-- ==== Sys2Proof/Word.lean ====
section
/-! DEFINITION. The plain value types of the PL3 model: link bytes, conveyor positions, texts, label images. -/

namespace Sys2Proof

/-- One byte of a frame or record (12 section 12.6). -/
abbrev Byte := BitVec 8

/-- A conveyor position in µm: a 32-bit counter, arithmetic modulo 2^32 (00_scope "Positions"). -/
abbrev Pos := BitVec 32

/-- A text: its characters, without the 00h bytes that fill its field on a link. -/
abbrev Text := List Byte

/-- A label image of 448 columns by 256 rows (R145): pixel (x, y) is bit 448 y + x. -/
abbrev Image := BitVec 114688

/-- A glyph of 8 columns by 12 rows (R153): its first byte is the most significant. -/
abbrev SmallGlyph := BitVec 96

/-- A glyph of 16 columns by 24 rows (R153): its first byte is the most significant. -/
abbrev LargeGlyph := BitVec 384

/-- A position counter's distance of `mm` millimetres, in µm modulo 2^32. -/
def umOfMm (mm : Nat) : Pos := BitVec.ofNat 32 (mm * 1000)

end Sys2Proof
end

