-- ==== Sys2Proof/Config.lean ====
section
/-! DEFINITION. What the manual leaves open, as opaque constants (free values: nothing can be proved of
them), and the fixed capacities the rules give. -/

namespace Sys2Proof.Config

/-- FREE VALUE (log 6). A byte "as sent" of a scan record that is too short to hold it (R35, R184): the
k-th free byte handed out. -/
opaque freeByte : Nat → Byte

/-- FREE VALUE (log 7). What a request's flag byte other than 00h and 01h counts as (12 section 12.6 gives
a meaning to those two only). -/
opaque freeFlag : Byte → Bool

/-- Capacity of the Strip Tracking Queue (R1). -/
def stripCapacity : Nat := 32
/-- Capacity of the Piece Sort Queue (R114). -/
def pieceCapacity : Nat := 64
/-- Capacity of the Manifest Table (R140). -/
def manifestCapacity : Nat := 32
/-- Capacity of the notice queue (R180). -/
def noticeCapacity : Nat := 64
/-- Capacity of the announce queue (R185). -/
def announceCapacity : Nat := 32
/-- Greatest payload length of a frame (R172). -/
def maxPayload : Nat := 1040
/-- Greatest number of pieces in a plan (R59). -/
def maxPieces : Nat := 8
/-- Greatest number of tallies in a bundle (R134). -/
def maxTallies : Nat := 6

end Sys2Proof.Config
end

