-- ==== Sys2Proof/Syntax.lean ====
section
/-! DEFINITION. The commands of the PL3: one constructor of `Instr` for each row of the opcode table, with
the records of fields that requests carry. Fields are numbers as sent: a number may lie outside the range
its rule gives, and the request is then refused by that rule. The order of the fields is the order in which
the request's rule lists them, which is the order on the link (12 section 12.6). -/

namespace Sys2Proof

/-- The two links of the LIF (R172). -/
inductive Link where
  | control | scan
  deriving DecidableEq, Repr

/-- The three encoders (00_scope "Positions"). -/
inductive Encoder where
  | infeed | trim | sort
  deriving DecidableEq, Repr

/-- Direction of one encoder pulse (R4, R78, R112). -/
inductive Direction where
  | forward | reverse
  deriving DecidableEq, Repr

/-- The three photo-eyes of the trim conveyor (R6). -/
inductive TrimEye where
  | measure | scan | saw
  deriving DecidableEq, Repr

/-- A match field: ANY, or one grade or colour class (00_scope "Grades and classes"). -/
inductive Wanted where
  | any
  | only (n : Nat)
  deriving DecidableEq, Repr

/-- The six fields of LINE_GEOMETRY (R5). -/
structure Geometry where
  scale : Nat
  dScan : Nat
  dSaw : Nat
  eyeTol : Nat
  planLead : Nat
  feedWindow : Nat
  deriving DecidableEq, Repr

/-- A row of the Grade Table (R39). -/
structure GradeRow where
  name : Text
  maxsev : List Nat
  dlim : Nat
  deriving DecidableEq, Repr

/-- The plan options (R53). -/
structure PlanOptions where
  margin : Nat
  stockPct : Nat
  overrunPct : Nat
  deriving DecidableEq, Repr

/-- The settings of the Feed Pacer (R79). -/
structure PaceSettings where
  scale : Nat
  slotPitch : Nat
  feedPulse : Nat
  t1 : Nat
  t2 : Nat
  t3 : Nat
  s1 : Nat
  s2 : Nat
  s3 : Nat
  b1 : Nat
  b2 : Nat
  b3 : Nat
  g1 : Nat
  g2 : Nat
  g3 : Nat
  deriving DecidableEq, Repr

/-- The fields of a profile set (R86). -/
structure ProfileSet where
  species : Text
  profileId : Text
  width : Nat
  thickness : Nat
  endTrim : Nat
  allowance : Nat
  lmin : Nat
  lmax : Nat
  toolingLimit : Nat
  deriving DecidableEq, Repr

/-- The five trim settings (R96). -/
structure TrimSettings where
  sawDistance : Nat
  sawLead : Nat
  sawPulse : Nat
  slipTol : Nat
  sawComp : Int
  deriving DecidableEq, Repr

/-- The five cutter settings (R104): H, M, W, path, speed. -/
structure HeadsSettings where
  hysteresis : Nat
  residency : Nat
  spinUp : Nat
  path : Nat
  speed : Nat
  deriving DecidableEq, Repr

/-- The two sort settings (R113). -/
structure SortSettings where
  scale : Nat
  dropWindow : Nat
  deriving DecidableEq, Repr

/-- A bin sort entry (R121). Bit c − 1 of the class set stands for class c. -/
structure SortEntry where
  grade : Wanted
  colour : Wanted
  classSet : BitVec 8
  offset : Nat
  lead : Nat
  pulse : Nat
  deriving DecidableEq, Repr

/-- The bundle settings of a bin (R129). -/
structure BundleSettings where
  length : Nat
  rows : Nat
  gap : Nat
  closeSlack : Nat
  shortsThreshold : Nat
  shortsShare : Nat
  dischargePulse : Nat
  deriving DecidableEq, Repr

/-- A window or protect rectangle (R146, R155). -/
structure Rect where
  x0 : Nat
  x1 : Nat
  y0 : Nat
  y1 : Nat
  deriving DecidableEq, Repr

/-- The items of a Field Table entry, as sent (R156): kind, align, ink and glyph set are the places in
the lists of R156. -/
structure Field where
  kind : Nat
  x : Nat
  y : Nat
  glyphSet : Nat
  scale : Nat
  maxChars : Nat
  align : Nat
  ink : Nat
  moduleWidth : Nat
  height : Nat
  deriving DecidableEq, Repr

/-- The four print settings (R164): seconds, ms, ms, µs. -/
structure PrintSettings where
  timer : Nat
  strobe : Nat
  done : Nat
  byteTime : Nat
  deriving DecidableEq, Repr

/-- The fields of ORDER_LOAD (R67). The reference is its 12 bytes as sent. -/
structure OrderFields where
  reference : List Byte
  grade : Nat
  cls : Nat
  colour : Wanted
  demand : Nat
  deriving DecidableEq, Repr

/-- The commands: the rows of spec/opcode_table.json in the table's order. Each request carries the tag
of its frame, which the reply echoes (R174). -/
inductive Instr where
  | lineStart (tag : Byte)
  | lineStop (tag : Byte)
  | lineResume (tag : Byte)
  | lineClear (tag : Byte)
  | lineGeometry (tag : Byte) (g : Geometry)
  | lineRead (tag : Byte)
  | stripRead (tag : Byte) (strip : Nat)
  | measureSet (tag : Byte) (comp : Int)
  | gaugeTable (tag : Byte) (marks : List Nat) (tolerance : Nat)
  | gaugeVerify (tag : Byte)
  | gaugeCancel (tag : Byte)
  | gaugeRelease (tag : Byte)
  | gaugeRead (tag : Byte)
  | gradeSet (tag : Byte) (count : Nat) (rows : List GradeRow)
  | weightSet (tag : Byte) (weights : List Nat)
  | classSet (tag : Byte) (count : Nat) (bounds : List Nat)
  | gradeRead (tag : Byte)
  | valueSet (tag : Byte) (values : List Nat)
  | planOptions (tag : Byte) (o : PlanOptions)
  | planRead (tag : Byte)
  | orderLoad (tag : Byte) (line : Nat) (o : OrderFields)
  | orderAmend (tag : Byte) (line : Nat) (demand : Nat)
  | orderClose (tag : Byte) (line : Nat)
  | orderRead (tag : Byte) (first : Nat) (count : Nat)
  | paceSet (tag : Byte) (p : PaceSettings)
  | paceRead (tag : Byte)
  | profileSet (tag : Byte) (number : Nat) (p : ProfileSet)
  | profileChange (tag : Byte) (number : Nat)
  | profileAbort (tag : Byte)
  | profileRead (tag : Byte)
  | trimSet (tag : Byte) (t : TrimSettings)
  | headsSet (tag : Byte) (h : HeadsSettings)
  | trimRead (tag : Byte)
  | sortSet (tag : Byte) (t : SortSettings)
  | sortRead (tag : Byte)
  | binSet (tag : Byte) (bin : Nat) (e : SortEntry) (b : BundleSettings)
  | binClose (tag : Byte) (bin : Nat)
  | binDisable (tag : Byte) (bin : Nat)
  | binRead (tag : Byte) (bin : Nat)
  | cartMask (tag : Byte) (arrival : BitVec 16) (departure : BitVec 16)
  | manifestRead (tag : Byte) (bundle : Nat)
  | manifestTake (tag : Byte) (bundle : Nat)
  | tplWindow (tag : Byte) (w : Rect)
  | tplAddr (tag : Byte) (x : Nat) (y : Nat)
  | tplOp (tag : Byte) (op : Nat) (mask : Byte) (pattern : Byte)
  | tplWrite (tag : Byte) (data : List Byte)
  | tplFill (tag : Byte) (count : Nat) (value : Byte)
  | tplRead (tag : Byte) (count : Nat)
  | tplClear (tag : Byte)
  | tplHold (tag : Byte)
  | tplRelease (tag : Byte)
  | glyphWrite (tag : Byte) (set : Nat) (first : Nat) (count : Nat) (data : List Byte)
  | protectSet (tag : Byte) (area : Nat) (used : Byte) (r : Rect)
  | fieldSet (tag : Byte) (entry : Nat) (used : Byte) (f : Field)
  | lcpRead (tag : Byte)
  | printSet (tag : Byte) (p : PrintSettings)
  | printRetry (tag : Byte)
  | printDrop (tag : Byte)
  | printStatus (tag : Byte)
  | reset (tag : Byte)
  | statusRead (tag : Byte)
  | setDate (tag : Byte) (date : List Byte)
  | noticePoll (tag : Byte) (count : Nat)
  | noticeMask (tag : Byte) (mask : BitVec 32)
  | powerOnReset (stn : BitVec 4) (rate : BitVec 2)
  | framerByte (link : Link) (b : Byte)
  | gapTimerExpiry (link : Link)
  | broadcastFrame (kind : Byte) (payload : List Byte)
  | replySent
  | scanRecord (payload : List Byte)
  | announceSent
  | estopAssert
  | estopRelease
  | encoderPulse (encoder : Encoder) (direction : Direction)
  | measureLeadingEdge
  | measureTrailingEdge
  | scanLeadingEdge
  | scanTrailingEdge
  | sawLeadingEdge
  | sawTrailingEdge
  | windowExpiry (eye : TrimEye) (strip : Nat)
  | deadline (strip : Nat)
  | planCompletion
  | barEnd
  | slotEvent
  | feedReadyEdge (blocked : Bool)
  | feedPulseEnd
  | toolingReadyRise
  | toolingReadyFall
  | toolingTimerExpiry
  | cutDue (strip : Nat)
  | sawPulseEnd
  | spinupExpiry
  | hysteresisExpiry
  | residencyExpiry
  | dropLeadingEdge
  | dropTrailingEdge
  | dropWindowExpiry (strip : Nat) (index : Nat)
  | diverterFire (strip : Nat) (index : Nat)
  | diverterPulseEnd (bin : Nat)
  | cart (bin : Nat) (arrival : Bool)
  | dischargePulseEnd (bin : Nat)
  | renderCompletion
  | printReadyRise
  | printFaultAssert
  | printFaultRelease
  | printTimerExpiry
  | rowRequest
  | rowTransferEnd
  | strobeEnd
  | donePulseEnd
  | printReadyFall
  | rowRequestFall
  | replyBegins
  deriving DecidableEq, Repr

end Sys2Proof
end

