-- ==== Sys2Proof/Machine/State.lean ====
section
/-! DEFINITION. The state of the PL3: one record for each block, holding every record the rules give it,
the input pins, and the queue of waiting commands. Plain data throughout. -/

namespace Sys2Proof.Machine

open Sys2Proof

/-! ## Named values (each list in the order its rule gives, which is its numbering on the links) -/

/-- The line states (R17). -/
inductive LineState where
  | stopped | running | stopping | halted
  deriving DecidableEq, Repr

/-- Causes of a LINE_STATE notice (R17). -/
inductive LineCause where
  | request | drained | estop
  deriving DecidableEq, Repr

/-- The phase of a strip record (R2). -/
inductive Phase where
  | fed | measuring | travelling | atSaw
  deriving DecidableEq, Repr

/-- Reasons of an UNCUT plan status (R2). -/
inductive UncutReason where
  | noScan | noLength | late | outOfRange | stray | noYield
  deriving DecidableEq, Repr

/-- The plan status of a strip record (R2). -/
inductive PlanStatus where
  | pending | computing | ready
  | uncut (reason : UncutReason)
  deriving DecidableEq, Repr

/-- The four verification states of the MSU (R27). -/
inductive Verification where
  | idle | armed | onBar | latched
  deriving DecidableEq, Repr

/-- The gauge status (R32). -/
inductive GaugeStatus where
  | unverified | pass | suspect
  deriving DecidableEq, Repr

/-- Ending causes of a verification, in the order of the GAUGE_RESULT notice (section 12.6). -/
inductive GaugeCause where
  | mark32 | barEnd | request | line | estop
  deriving DecidableEq, Repr

/-- Outcomes in a GAUGE_RESULT notice (section 12.6). -/
inductive GaugeOutcome where
  | pass | suspect | cancelled
  deriving DecidableEq, Repr

/-- Reasons for which a scan record is discarded (R34). -/
inductive DiscardReason where
  | malformed | unknownTag | duplicate | late
  deriving DecidableEq, Repr

/-- The states of an order line (R66): FREE, OPEN, DRAINING. -/
inductive OrderState where
  | free | opened | draining
  deriving DecidableEq, Repr

/-- Causes of an ORDER_FILLED notice (R76). -/
inductive FillCause where
  | landing | amend
  deriving DecidableEq, Repr

/-- The changeover states (R88). -/
inductive Changeover where
  | running | draining | tooling | toolFault
  deriving DecidableEq, Repr

/-- Causes of a PROFILE_STATE notice (R94). -/
inductive ProfileCause where
  | request | drained | ready | timeout
  deriving DecidableEq, Repr

/-- The cutter group states (section 7.7). -/
inductive Cutter where
  | off | spinup | run | idleWait | standby
  deriving DecidableEq, Repr

/-- Causes of a CUTTER_STATE notice (R111). -/
inductive CutterCause where
  | request | line | estop | spunUp | idle | activity | hysteresis | wake
  deriving DecidableEq, Repr

/-- The state of one cut (R97). -/
inductive CutState where
  | pending | made | missed | cancelled
  deriving DecidableEq, Repr

/-- The slip outcome of a cut list (R97). -/
inductive SlipOutcome where
  | unchecked | pass | slip
  deriving DecidableEq, Repr

/-- The bin states (section 9): DISABLED, OPEN, CLOSE_PENDING, CLOSING, WAIT_CART. -/
inductive BinState where
  | disabled | opened | closePending | closing | waitCart
  deriving DecidableEq, Repr

/-- Close reasons (section 9.2). -/
inductive CloseReason where
  | full | requested | profile | disable
  deriving DecidableEq, Repr

/-- The label state of a manifest (R140). -/
inductive LabelState where
  | pending | printed | lost
  deriving DecidableEq, Repr

/-- The raster ops (R146). -/
inductive RasterOp where
  | replace | or | and | xor | condEq | condNe
  deriving DecidableEq, Repr

/-- The states of a label slot (R162). -/
inductive SlotState where
  | free | rendering | queued | printing | fault
  deriving DecidableEq, Repr

/-- The states of the print port (R163). -/
inductive PortState where
  | idle | busy | done
  deriving DecidableEq, Repr

/-- Causes of a PRINT_FAULT notice (R168). -/
inductive PrintCause where
  | faultInput | timeout
  deriving DecidableEq, Repr

/-- The framer states (R172). -/
inductive FramerState where
  | hunt | header | payload | crc
  deriving DecidableEq, Repr

/-- The eyes named in notices (section 12.6). -/
inductive Eye where
  | measure | scan | saw | drop
  deriving DecidableEq, Repr

/-- The result codes (section 12.6), in the order of their values 00h to 0Eh. -/
inductive ResultCode where
  | ok | badKind | badLength | badValue | notConfigured | wrongState | halted | estopActive | busy
  | inUse | isProtected | empty | notFound | notReady | resultPending
  deriving DecidableEq, Repr

/-! ## Strip records (LTR) -/

/-- A defect held after normalisation (R37, R38). -/
structure Defect where
  start : Nat
  extent : Nat
  kind : Nat
  severity : Nat
  face : Nat
  deriving DecidableEq, Repr

/-- The scan of a strip record (R2, R36). -/
structure Scan where
  colour : Nat
  defects : List Defect
  deriving DecidableEq, Repr

/-- A planned piece (R2): [start, stop) with its net length, grade, class, value and order line.
`created` says that the piece has been created at the saw, from which event it is no longer counted in
the strip's plan (R72, R73, R99). -/
structure PlannedPiece where
  start : Nat
  stop : Nat
  net : Nat
  grade : Nat
  cls : Nat
  value : Nat
  line : Option Nat
  created : Bool
  deriving DecidableEq, Repr

/-- An expected-edge window (R6). `reached` says that the opening position has been reached; from that
moment the window is open until it expires or is discarded (log 2, log 16). -/
structure Window where
  opensAt : Pos
  closesAt : Pos
  reached : Bool
  deriving DecidableEq, Repr

/-- A strip record (R2), with its windows (R6), its deadline position (R13) and whether that deadline has
been delivered (R34). -/
structure Strip where
  tag : Nat
  profile : Nat
  phase : Phase
  leadPos : Option Pos
  length : Option Nat
  announced : Bool
  scan : Option Scan
  status : PlanStatus
  plan : Option (List PlannedPiece)
  stray : Bool
  measureWin : Option Window
  scanWin : Option Window
  sawWin : Option Window
  deadline : Option Pos
  deadlineDone : Bool
  deriving DecidableEq, Repr

/-- One value for each trim eye. -/
structure PerEye (α : Type) where
  measure : α
  scan : α
  saw : α
  deriving DecidableEq, Repr

/-- The Line Tracker (chapter 1). -/
structure Ltr where
  lineState : LineState
  trimPos : Pos
  geometry : Geometry
  geometryLoaded : Bool
  nextTag : Nat
  strips : List Strip
  holder : PerEye (Option Nat)
  level : PerEye Bool
  strays : PerEye Nat
  missing : PerEye Nat
  unrecorded : Nat
  deriving DecidableEq, Repr

/-! ## Measure Unit (MSU) -/

/-- The latched result of a verification (R29). -/
structure GaugeResult where
  flags : List Bool
  deviations : List (Option Int)
  markCount : Nat
  cause : GaugeCause
  tolerance : Nat
  origin : Pos
  deriving DecidableEq, Repr

/-- The Measure Unit (chapter 2). `measured` lists the marks seen, mark 0 first; a mark beyond the list
is "not seen", and the mark count is the list's length (R27, R28). -/
structure Msu where
  comp : Int
  tableLoaded : Bool
  marks : List Nat
  tolerance : Nat
  verification : Verification
  measured : List Int
  origin : Pos
  barEndFrom : Option Pos
  result : Option GaugeResult
  status : GaugeStatus
  deriving DecidableEq, Repr

/-! ## Plan Engine (PLE) -/

/-- The snapshot a computation takes at its start (R50). Row g, column c of `factors` is the order factor
of grade g + 1 and class c + 1. -/
structure Snapshot where
  endTrim : Nat
  allowance : Nat
  lmin : Nat
  lmax : Nat
  gauge : GaugeStatus
  margin : Nat
  values : List Nat
  stockPct : Nat
  overrunPct : Nat
  factors : List (List Nat)
  deriving DecidableEq, Repr

/-- A computation in progress (R48): the strip's tag and the snapshot. -/
structure Computation where
  tag : Nat
  snapshot : Snapshot
  deriving DecidableEq, Repr

/-- The Plan Engine (chapters 3 and 4). The grade count is the number of rows, the class count the number
of bounds. The engine is IDLE while `engine` is none. -/
structure Ple where
  gradesLoaded : Bool
  grades : List GradeRow
  weights : List Nat
  classesLoaded : Bool
  bounds : List Nat
  malformed : Nat
  unknownTag : Nat
  duplicate : Nat
  lateScans : Nat
  values : List Nat
  options : PlanOptions
  engine : Option Computation
  readyPlans : Nat
  noYieldPlans : Nat
  lateNoLength : Nat
  lateNoScan : Nat
  lateLate : Nat
  deriving DecidableEq, Repr

/-! ## Order Table Unit (OTU) -/

/-- An order line (R65). -/
structure OrderLine where
  state : OrderState
  reference : Text
  grade : Nat
  cls : Nat
  colour : Wanted
  demand : Nat
  fulfilled : Nat
  reserved : Nat
  landed : Nat
  filled : Bool
  deriving DecidableEq, Repr

/-- The Order Table Unit (chapter 5): lines 1 to 32. -/
structure Otu where
  lines : Vector OrderLine 32
  deriving DecidableEq, Repr

/-! ## Feed Pacer (FDP) and Profile Controller (PFC) -/

/-- The Feed Pacer (chapter 6). `feedPulse` is the remaining pulse time while the feed gate is driven. -/
structure Fdp where
  pos : Pos
  slotIndex : Nat
  nextBoundary : Pos
  settings : PaceSettings
  level : Nat
  trackLevel : Nat
  sortLevel : Nat
  binLevel : Nat
  trackFree : Nat
  sortFree : Nat
  blockedBins : Nat
  gapCount : Nat
  feedReady : Bool
  feedPulse : Option Nat
  fed : Nat
  skipped : Nat
  held : Nat
  empty : Nat
  heldLine : Nat
  heldTracking : Nat
  heldProfile : Nat
  heldGauge : Nat
  heldCutter : Nat
  deriving DecidableEq, Repr

/-- The Profile Controller (R86). `timer` is the remaining time of the tooling timer in ms while it runs. -/
structure Pfc where
  sets : Vector (Option ProfileSet) 8
  active : Option Nat
  target : Option Nat
  changeover : Changeover
  timer : Option Nat
  toolingRequest : Bool
  completed : Nat
  toolFaults : Nat
  aborts : Nat
  unsolicited : Nat
  deriving DecidableEq, Repr

/-! ## Trim Station Controller (TSC) -/

/-- One cut of a cut list (R97). -/
structure Cut where
  x : Nat
  fireAt : Pos
  state : CutState
  deriving DecidableEq, Repr

/-- A cut list in execution (R97). -/
structure CutList where
  tag : Nat
  p0 : Pos
  status : PlanStatus
  plan : List PlannedPiece
  cuts : List Cut
  lastMade : Nat
  trailSeen : Bool
  length2 : Option Nat
  slip : SlipOutcome
  deriving DecidableEq, Repr

/-- The Trim Station Controller (chapter 7). The timers and the saw pulse hold their remaining time in ms
while they run; the run output is `runOutput`. -/
structure Tsc where
  trim : TrimSettings
  heads : HeadsSettings
  travelMs : Nat
  cutLists : List CutList
  sawPulse : Option Nat
  cutter : Cutter
  runOutput : Bool
  spinTimer : Option Nat
  hystTimer : Option Nat
  residTimer : Option Nat
  wake : Bool
  sawFires : Nat
  created : Nat
  missedCuts : Nat
  slipped : Nat
  standbys : Nat
  spinUps : Nat
  deriving DecidableEq, Repr

/-! ## Sort Controller (SRT) -/

/-- Where a piece entry stands (R115): EXPECTED with its window close, or ASSIGNED with its bin, drop
edge position and fire position. -/
inductive Place where
  | expected (closesAt : Pos)
  | assigned (bin : Nat) (dropEdge : Pos) (fireAt : Pos)
  deriving DecidableEq, Repr

/-- An entry of the Piece Sort Queue (R115). -/
structure Piece where
  tag : Nat
  index : Nat
  start : Nat
  stop : Nat
  net : Nat
  grade : Nat
  cls : Nat
  value : Nat
  line : Option Nat
  colour : Nat
  profile : Nat
  force : Bool
  place : Place
  deriving DecidableEq, Repr

/-- The Sort Controller (chapter 8). `diverters` holds each output's remaining pulse time while driven. -/
structure Srt where
  pos : Pos
  settings : SortSettings
  pieces : List Piece
  level : Bool
  entries : Vector SortEntry 14
  diverters : Vector (Option Nat) 14
  dropStrays : Nat
  missing : Nat
  firings : Nat
  forced : Nat
  grade0 : Nat
  noBin : Nat
  sortFull : Nat
  bin0Total : Nat
  deriving DecidableEq, Repr

/-! ## Bundle Builder (BDB) -/

/-- A tally key (R133): an order reference, or STOCK. -/
inductive TallyKey where
  | order (reference : Text)
  | stock
  deriving DecidableEq, Repr

/-- A tally of a bundle (R133). -/
structure Tally where
  key : TallyKey
  pieces : Nat
  mm : Nat
  deriving DecidableEq, Repr

/-- The colour of a bundle once a piece has landed (R133). -/
inductive BundleColour where
  | one (c : Nat)
  | mixed
  deriving DecidableEq, Repr

/-- The open bundle of a bin (R133). `rowFills` lists the rows used, first started first; the current row
is the last. -/
structure Bundle where
  rowFills : List Nat
  inRow : Nat
  shorts : Nat
  profile : Nat
  tallies : List Tally
  landed : Nat
  perClass : Vector Nat 8
  lineal : Nat
  shortsLanded : Nat
  worst : Nat
  colour : Option BundleColour
  deriving DecidableEq, Repr

/-- A bin record (R128). `discharge` is the remaining pulse time while the discharge output is driven. -/
structure Bin where
  state : BinState
  settings : BundleSettings
  incoming : Nat
  bundle : Bundle
  reason : Option CloseReason
  toDisabled : Bool
  arrivalMask : Bool
  departureMask : Bool
  discharge : Option Nat
  refusedSpace : Nat
  refusedShorts : Nat
  refusedTally : Nat
  deriving DecidableEq, Repr

/-- A manifest (R140). -/
structure Manifest where
  number : Nat
  bin : Nat
  worst : Nat
  colour : BundleColour
  perClass : Vector Nat 8
  pieces : Nat
  lineal : Nat
  shorts : Nat
  rows : Nat
  tallies : List Tally
  profile : Nat
  gauge : GaugeStatus
  date : Text
  reason : CloseReason
  check : BitVec 16
  label : LabelState
  discharged : Bool
  clipped : List Nat
  deriving DecidableEq, Repr

/-- The Bundle Builder (chapter 9). -/
structure Bdb where
  bins : Vector Bin 14
  closingOrder : List Nat
  manifests : List Manifest
  nextBundle : Nat
  deriving DecidableEq, Repr

/-! ## Label Composer (LCP) and Print Queue (PRQ) -/

/-- The render record of a slot (R158). -/
structure RenderRecord where
  slot : Nat
  bundle : Nat
  gradeName : Text
  classCount : Nat
  profileId : Text
  species : Text
  deriving DecidableEq, Repr

/-- The Label Composer (chapter 10). `renderOrder` lists the slots in RENDERING with their render records,
oldest first; `engine` is the slot taken up. -/
structure Lcp where
  template : Image
  window : Rect
  addrX : Nat
  addrY : Nat
  op : RasterOp
  mask : Byte
  pattern : Byte
  hold : Bool
  small : Vector SmallGlyph 96
  large : Vector LargeGlyph 96
  protect : Vector (Option Rect) 4
  fields : Vector (Option Field) 16
  engine : Option Nat
  renderOrder : List RenderRecord
  rendered : Nat
  clippedFields : Nat
  deriving DecidableEq, Repr

/-- A label slot (R162). -/
structure Slot where
  state : SlotState
  bundle : Option Nat
  attempts : Nat
  image : Image
  deriving DecidableEq, Repr

/-- The Print Queue (chapter 11). `transfer` holds, while a row is in transfer, the 56 bytes it presents
on data 0 to 7; the strobe, done and print timers hold their remaining time in ms. `inForce` are the
settings the print in progress was started with (R164). -/
structure Prq where
  slots : Vector Slot 4
  order : List Nat
  port : PortState
  sending : Nat
  rowsSent : Nat
  transfer : Option (List Byte)
  strobe : Option Nat
  donePulse : Option Nat
  timer : Option Nat
  settings : PrintSettings
  inForce : PrintSettings
  printed : Nat
  faults : Nat
  timeouts : Nat
  retries : Nat
  drops : Nat
  strayRows : Nat
  strayFaults : Nat
  deriving DecidableEq, Repr

/-! ## Link Interface (LIF) -/

/-- A notice (section 12.6, notice record), with the fields its rule names. -/
inductive Notice where
  | stripLost (tag : Nat) (eye : Eye) (status : PlanStatus)
  | stray (eye : Eye) (pos : Pos) (tag : Nat)
  | stripSlip (tag length length2 marked assigned : Nat)
  | scanDiscard (reason : DiscardReason) (tag count : Nat)
  | planLate (tag : Nat) (reason : UncutReason) (abandoned : Bool)
  | pieceLost (tag index net grade line : Nat) (force : Bool)
  | orderFilled (line : Nat) (reference : Text) (demand fulfilled reserved : Nat) (cause : FillCause)
  | orderDone (line : Nat) (reference : Text) (demand fulfilled landed : Nat) (filled : Bool)
  | paceLevel (new old track sort bins trackFree sortFree blocked : Nat)
  | profileState (new left : Changeover) (target active : Option Nat) (cause : ProfileCause)
  | cutterState (new left : Cutter) (cause : CutterCause)
  | gaugeResult (outcome : GaugeOutcome) (cause : GaugeCause) (marks flags : Nat)
  | bundleClosed (number bin : Nat) (reason : CloseReason) (pieces lineal worst : Nat)
  | labelPrinted (number slot attempts : Nat)
  | printFault (number slot : Nat) (cause : PrintCause) (rows attempts : Nat)
  | cart (bin : Nat) (arrival : Bool)
  | lineState (new left : LineState) (cause : LineCause)
  deriving DecidableEq, Repr

/-- A queued notice with its sequence number (R180). -/
structure Queued where
  seq : Nat
  notice : Notice
  deriving DecidableEq, Repr

/-- A receive framer (R172): the bytes taken after the start byte, in the order of arrival. -/
structure Framer where
  state : FramerState
  bytes : List Byte
  deriving DecidableEq, Repr

/-- A pending reply (R174, R175): the kind of its request, its tag, result code and data; `begun` says
that it is being sent, `resetAfter` that a RESET is performed at its end (R177). -/
structure Reply where
  kind : Byte
  tag : Byte
  code : ResultCode
  data : List Byte
  begun : Bool
  resetAfter : Bool
  deriving DecidableEq, Repr

/-- An announcement in the announce queue (R10, R185). -/
structure Announcement where
  tag : Nat
  length : Nat
  profile : Nat
  deriving DecidableEq, Repr

/-- The receive counters of one link (R186). `wrongStation` is "other station" on the control link. -/
structure RxCounters where
  noise : Nat
  overlength : Nat
  gapErrors : Nat
  crcErrors : Nat
  wrongStation : Nat
  deriving DecidableEq, Repr

/-- The Link Interface (chapter 12). Bit k of `masks` is the enable of the notice kind of code k. -/
structure Lif where
  control : Framer
  scan : Framer
  reply : Option Reply
  stn : BitVec 4
  rate : BitVec 2
  date : Text
  notices : List Queued
  nextSeq : Nat
  masks : BitVec 17
  attention : Bool
  announceQueue : List Announcement
  announceSeq : Nat
  controlRx : RxCounters
  scanRx : RxCounters
  pendingDiscards : Nat
  broadcastIgnored : Nat
  repliesSent : Nat
  noticeOverflow : Nat
  scanBadKind : Nat
  scanRecords : Nat
  announcementsSent : Nat
  announceOverflow : Nat
  deriving DecidableEq, Repr

/-! ## Pins -/

/-- The levels of the inputs and straps, as they stand outside the part. The cart state of a bin (R142),
the tooling-ready level (R86) and the print inputs (R163) follow their inputs in every line state, so
their one home is here; the eye levels of the LTR, FDP and SRT are held apart, since they hold in
HALTED. -/
structure Pins where
  estop : Bool
  feedReady : Bool
  eyes : PerEye Bool
  drop : Bool
  carts : Vector Bool 14
  toolingReady : Bool
  printReady : Bool
  rowRequest : Bool
  printFault : Bool
  stn : BitVec 4
  rate : BitVec 2
  deriving DecidableEq, Repr

/-- The whole state. `pending` (the waiting commands) and `free` (how many free values have been handed
out, log 6) are the model's own fields. -/
structure State where
  pins : Pins
  ltr : Ltr
  msu : Msu
  ple : Ple
  otu : Otu
  fdp : Fdp
  pfc : Pfc
  tsc : Tsc
  srt : Srt
  bdb : Bdb
  lcp : Lcp
  prq : Prq
  lif : Lif
  free : Nat
  pending : List Instr
  deriving DecidableEq, Repr

/-- Faults of the model. None: the rules name no condition that stops the part, so no command raises one
(safe: nothing is hidden behind a stop). -/
inductive Fault where
  deriving DecidableEq, Repr

/-- Refusals of the model. -/
inductive Refusal where
  /-- The host's: raised only by `exec`'s arm of a command that has no meaning yet. No arm raises it in
  this model. Safe: a refused step proves nothing. -/
  | notModelled (mnemonic : String)
  deriving DecidableEq, Repr

/-! ## The state after reset -/

/-- An empty bundle (R133): every field at 0 or none. -/
def Bundle.emptied : Bundle :=
  { rowFills := [], inRow := 0, shorts := 0, profile := 0, tallies := [], landed := 0
    perClass := Vector.replicate 8 0, lineal := 0, shortsLanded := 0, worst := 0, colour := none }

/-- A bin record after reset (R128). -/
def Bin.initial : Bin :=
  { state := .disabled
    settings := { length := 0, rows := 0, gap := 0, closeSlack := 0, shortsThreshold := 0
                  shortsShare := 0, dischargePulse := 0 }
    incoming := 0, bundle := .emptied, reason := none, toDisabled := false
    arrivalMask := false, departureMask := false, discharge := none
    refusedSpace := 0, refusedShorts := 0, refusedTally := 0 }

/-- An order line after reset (R65). -/
def OrderLine.initial : OrderLine :=
  { state := .free, reference := [], grade := 0, cls := 0, colour := .only 0, demand := 0
    fulfilled := 0, reserved := 0, landed := 0, filled := false }

/-- A bin sort entry after reset (R121). -/
def clearedEntry : SortEntry :=
  { grade := .only 0, colour := .only 0, classSet := 0#8, offset := 0, lead := 0, pulse := 0 }

/-- A label slot after reset (R162). -/
def Slot.initial : Slot :=
  { state := .free, bundle := none, attempts := 0, image := 0#114688 }

/-- The print settings after reset (R164). -/
def initialPrint : PrintSettings := { timer := 20, strobe := 2, done := 2, byteTime := 8 }

/-- Receive counters after reset (R186). -/
def RxCounters.zero : RxCounters :=
  { noise := 0, overlength := 0, gapErrors := 0, crcErrors := 0, wrongStation := 0 }

/-- Every input at rest, every strap 0 (DESIGN CHOICE, log 11: no rule gives a pin a level). Unsafe for a
claim that rests on it. -/
def Pins.atRest : Pins :=
  { estop := false, feedReady := false, eyes := ⟨false, false, false⟩, drop := false
    carts := Vector.replicate 14 false, toolingReady := false, printReady := false
    rowRequest := false, printFault := false, stn := 0#4, rate := 0#2 }

/-- The machine right after reset with every input at rest (R177; the values of each record are those its
rule states, and where a rule states none, those of log 11). -/
def State.reset : State where
  pins := .atRest
  ltr :=
    { lineState := .stopped, trimPos := 0#32
      geometry := { scale := 125, dScan := 0, dSaw := 0, eyeTol := 0, planLead := 0, feedWindow := 0 }
      geometryLoaded := false, nextTag := 1, strips := []
      holder := ⟨none, none, none⟩, level := ⟨false, false, false⟩
      strays := ⟨0, 0, 0⟩, missing := ⟨0, 0, 0⟩, unrecorded := 0 }
  msu :=
    { comp := 0, tableLoaded := false, marks := List.replicate 32 0, tolerance := 1000
      verification := .idle, measured := [], origin := 0#32, barEndFrom := none, result := none
      status := .unverified }
  ple :=
    { gradesLoaded := false, grades := [], weights := List.replicate 8 0
      classesLoaded := false, bounds := [], malformed := 0, unknownTag := 0, duplicate := 0
      lateScans := 0, values := List.replicate 40 0
      options := { margin := 0, stockPct := 100, overrunPct := 100 }, engine := none
      readyPlans := 0, noYieldPlans := 0, lateNoLength := 0, lateNoScan := 0, lateLate := 0 }
  otu := { lines := Vector.replicate 32 .initial }
  fdp :=
    { pos := 0#32, slotIndex := 15, nextBoundary := 500000#32
      settings := { scale := 125, slotPitch := 500, feedPulse := 80, t1 := 12, t2 := 8, t3 := 4
                    s1 := 32, s2 := 16, s3 := 8, b1 := 3, b2 := 6, b3 := 9, g1 := 2, g2 := 4, g3 := 8 }
      level := 0, trackLevel := 0, sortLevel := 0, binLevel := 0, trackFree := 0, sortFree := 0
      blockedBins := 0, gapCount := 0, feedReady := false, feedPulse := none
      fed := 0, skipped := 0, held := 0, empty := 0, heldLine := 0, heldTracking := 0
      heldProfile := 0, heldGauge := 0, heldCutter := 0 }
  pfc :=
    { sets := Vector.replicate 8 none, active := none, target := none, changeover := .running
      timer := none, toolingRequest := false, completed := 0, toolFaults := 0, aborts := 0
      unsolicited := 0 }
  tsc :=
    { trim := { sawDistance := 150, sawLead := 25, sawPulse := 40, slipTol := 10, sawComp := 0 }
      heads := { hysteresis := 120000, residency := 60000, spinUp := 5000, path := 6000, speed := 1500 }
      travelMs := 4000, cutLists := [], sawPulse := none, cutter := .off, runOutput := false
      spinTimer := none, hystTimer := none, residTimer := none, wake := false
      sawFires := 0, created := 0, missedCuts := 0, slipped := 0, standbys := 0, spinUps := 0 }
  srt :=
    { pos := 0#32, settings := { scale := 125, dropWindow := 3000 }, pieces := [], level := false
      entries := Vector.replicate 14 clearedEntry, diverters := Vector.replicate 14 none
      dropStrays := 0, missing := 0, firings := 0, forced := 0, grade0 := 0, noBin := 0
      sortFull := 0, bin0Total := 0 }
  bdb := { bins := Vector.replicate 14 .initial, closingOrder := [], manifests := [], nextBundle := 1 }
  lcp :=
    { template := 0#114688, window := { x0 := 0, x1 := 447, y0 := 0, y1 := 255 }, addrX := 0, addrY := 0
      op := .replace, mask := 0xFF#8, pattern := 0#8, hold := false
      small := Vector.replicate 96 0#96, large := Vector.replicate 96 0#384
      protect := Vector.replicate 4 none, fields := Vector.replicate 16 none
      engine := none, renderOrder := [], rendered := 0, clippedFields := 0 }
  prq :=
    { slots := Vector.replicate 4 .initial, order := [], port := .idle, sending := 0, rowsSent := 0
      transfer := none, strobe := none, donePulse := none, timer := none
      settings := initialPrint, inForce := initialPrint, printed := 0, faults := 0, timeouts := 0
      retries := 0, drops := 0, strayRows := 0, strayFaults := 0 }
  lif :=
    { control := { state := .hunt, bytes := [] }, scan := { state := .hunt, bytes := [] }
      reply := none, stn := 0#4, rate := 0#2, date := [], notices := [], nextSeq := 0
      masks := BitVec.allOnes 17, attention := false, announceQueue := [], announceSeq := 0
      controlRx := .zero, scanRx := .zero, pendingDiscards := 0, broadcastIgnored := 0
      repliesSent := 0, noticeOverflow := 0, scanBadKind := 0, scanRecords := 0
      announcementsSent := 0, announceOverflow := 0 }
  free := 0
  pending := []

end Sys2Proof.Machine
end

