-- ==== Sys2Proof/Machine/Ops.lean ====
section
/-! DEFINITION. The operations every block shares: table access, counters, positions, updates of one block of
the state, bytes, the CRC, the raising of a notice, and the taking of a request with its reply. -/

namespace Sys2Proof.Machine

open Sys2Proof

/-- The outcome of a command. -/
abbrev Outcome := Host.Outcome State Fault Refusal

/-! ## Updating one block -/

/-- The state with its `pins` record replaced. -/
def State.setPins (s : State) (v : Pins) : State := { s with pins := v }
/-- The state with its `ltr` record replaced. -/
def State.setLtr (s : State) (v : Ltr) : State := { s with ltr := v }
/-- The state with its `msu` record replaced. -/
def State.setMsu (s : State) (v : Msu) : State := { s with msu := v }
/-- The state with its `ple` record replaced. -/
def State.setPle (s : State) (v : Ple) : State := { s with ple := v }
/-- The state with its `otu` record replaced. -/
def State.setOtu (s : State) (v : Otu) : State := { s with otu := v }
/-- The state with its `fdp` record replaced. -/
def State.setFdp (s : State) (v : Fdp) : State := { s with fdp := v }
/-- The state with its `pfc` record replaced. -/
def State.setPfc (s : State) (v : Pfc) : State := { s with pfc := v }
/-- The state with its `tsc` record replaced. -/
def State.setTsc (s : State) (v : Tsc) : State := { s with tsc := v }
/-- The state with its `srt` record replaced. -/
def State.setSrt (s : State) (v : Srt) : State := { s with srt := v }
/-- The state with its `bdb` record replaced. -/
def State.setBdb (s : State) (v : Bdb) : State := { s with bdb := v }
/-- The state with its `lcp` record replaced. -/
def State.setLcp (s : State) (v : Lcp) : State := { s with lcp := v }
/-- The state with its `prq` record replaced. -/
def State.setPrq (s : State) (v : Prq) : State := { s with prq := v }
/-- The state with its `lif` record replaced. -/
def State.setLif (s : State) (v : Lif) : State := { s with lif := v }

/-! ## Tables numbered from 1 -/

/-- Entry k (1 to n) of a table, none outside it. -/
def tabGet {α : Type} {n : Nat} (v : Vector α n) (k : Nat) : Option α :=
  if k = 0 then none else v[k - 1]?

/-- A table with entry k changed by f; unchanged where there is no entry k. -/
def tabMod {α : Type} {n : Nat} (v : Vector α n) (k : Nat) (f : α → α) : Vector α n :=
  if h : k ≠ 0 ∧ k - 1 < n then v.set (k - 1) (f (v[k - 1]'h.2)) h.2 else v

/-! ## Counters and totals -/

/-- A diagnostic counter counts up and stops at 65,535 (00_scope "Counters and totals"). -/
def bump (n : Nat) : Nat := min (n + 1) 65535

/-- A millimetre total grows and stops at 4,294,967,295 (00_scope "Counters and totals"). -/
def addTotal (n mm : Nat) : Nat := min (n + mm) 4294967295

/-- The next tag of a sequence of tags 1 to 65,535 (R3). -/
def tagAfter (t : Nat) : Nat := if t < 65535 then t + 1 else 1

/-! ## Positions -/

/-- The difference of two positions, modulo 2^32, read as a signed number of µm (00_scope "Positions"). -/
def signedDiff (a b : Pos) : Int := (a - b).toInt

/-- A position is reached when the counter has advanced to or past it (00_scope, R4, R78, R112; log 15). -/
def reached (now target : Pos) : Bool := decide (0 ≤ signedDiff now target)

/-- A position is exceeded when the counter has advanced past it (R4, R112; log 15). -/
def exceeded (now target : Pos) : Bool := decide (0 < signedDiff now target)

/-- One encoder pulse of the given scale (R4, R78, R112). -/
def pulse (now : Pos) (scale : Nat) : Direction → Pos
  | .forward => now + BitVec.ofNat 32 scale
  | .reverse => now - BitVec.ofNat 32 scale

/-! ## One value for each trim eye -/

/-- The value of one eye. -/
def PerEye.get {α : Type} (p : PerEye α) : TrimEye → α
  | .measure => p.measure
  | .scan => p.scan
  | .saw => p.saw

/-- The values with one eye's changed. -/
def PerEye.put {α : Type} (p : PerEye α) (e : TrimEye) (v : α) : PerEye α :=
  match e with
  | .measure => { p with measure := v }
  | .scan => { p with scan := v }
  | .saw => { p with saw := v }

/-- The eye as notices name it. -/
def eyeOf : TrimEye → Eye
  | .measure => .measure
  | .scan => .scan
  | .saw => .saw

/-! ## Text -/

/-- The text of a field of bytes as sent: the bytes before the 00h bytes that fill it (section 12.6). -/
def textOf (bytes : List Byte) : Text :=
  (bytes.reverse.dropWhile (fun b => b == 0#8)).reverse

/-- A character of a text is 20h to 7Eh (00_scope "Text"). -/
def isChar (b : Byte) : Bool := decide (0x20 ≤ b.toNat) && decide (b.toNat ≤ 0x7E)

/-- Every character of a text is one (00_scope "Text"). -/
def textOk (t : Text) : Bool := t.all isChar

/-- A text of ASCII characters. -/
def ascii (cs : List Char) : Text := cs.map fun c => BitVec.ofNat 8 c.toNat

/-- The decimal digits of n before those in the accumulator; `fuel` bounds their number. -/
def digitsInto : Nat → Nat → Text → Text
  | 0, _, acc => acc
  | fuel + 1, n, acc =>
    let acc' := BitVec.ofNat 8 (0x30 + n % 10) :: acc
    if n < 10 then acc' else digitsInto fuel (n / 10) acc'

/-- A number in decimal without leading zeros, 0 as "0" (R157). Every number printed is below 10^20. -/
def decimal (n : Nat) : Text := digitsInto 20 n []

/-! ## Integers on the links: most significant byte first (section 12.6) -/

/-- A 1-byte integer. -/
def be1 (n : Nat) : List Byte := [BitVec.ofNat 8 n]

/-- A 2-byte integer. -/
def be2 (n : Nat) : List Byte := [BitVec.ofNat 8 (n / 256), BitVec.ofNat 8 n]

/-- A 4-byte integer. -/
def be4 (n : Nat) : List Byte :=
  [BitVec.ofNat 8 (n / 16777216), BitVec.ofNat 8 (n / 65536), BitVec.ofNat 8 (n / 256),
   BitVec.ofNat 8 n]

/-- A signed 2-byte integer, two's complement. -/
def sbe2 (n : Int) : List Byte := be2 (BitVec.ofInt 16 n).toNat

/-- A signed 4-byte integer, two's complement. -/
def sbe4 (n : Int) : List Byte := be4 (BitVec.ofInt 32 n).toNat

/-- A position. -/
def bePos (p : Pos) : List Byte := be4 p.toNat

/-- A flag: 00h clear, 01h set (section 12.6). -/
def beFlag (b : Bool) : List Byte := [if b then 1#8 else 0#8]

/-- A text in a field of n bytes, left-aligned, with 00h beyond its last character (section 12.6). -/
def beText (n : Nat) (t : Text) : List Byte := (t ++ List.replicate n 0#8).take n

/-- A list whose length varies: a 1-byte count, then the entries (section 12.6). -/
def beList {α : Type} (f : α → List Byte) (l : List α) : List Byte := be1 l.length ++ l.flatMap f

/-- An optional field: a flag, then the field, whose bytes are all 00h when it is absent (section 12.6);
`size` is the field's bytes when absent. -/
def beOpt {α : Type} (size : Nat) (f : α → List Byte) : Option α → List Byte
  | none => beFlag false ++ List.replicate size 0#8
  | some a => beFlag true ++ f a

/-- A match field, ANY as FFh (section 12.6). -/
def beWanted : Wanted → List Byte
  | .any => [0xFF#8]
  | .only n => be1 n

/-! ## The CRC (R160) -/

/-- One shift of the CRC register: the bit shifted out decides the exclusive OR with 1021h. -/
def crcShift (r : BitVec 16) : BitVec 16 :=
  if r.msb then (r <<< 1) ^^^ 0x1021#16 else r <<< 1

/-- The CRC register after k shifts. -/
def crcShifts : Nat → BitVec 16 → BitVec 16
  | 0, r => r
  | k + 1, r => crcShifts k (crcShift r)

/-- One byte into the CRC register: into the upper 8 bits, then eight shifts. -/
def crcByte (r : BitVec 16) (b : Byte) : BitVec 16 :=
  crcShifts 8 (r ^^^ (b.setWidth 16 <<< 8))

/-- The CRC of a list of bytes (R160): the register starts at FFFFh; no final exclusive OR. -/
def crc16 (bytes : List Byte) : BitVec 16 := bytes.foldl crcByte 0xFFFF#16

/-! ## Notices (R180) -/

/-- The code of a notice's kind (section 12.6). -/
def Notice.code : Notice → Nat
  | .stripLost .. => 0
  | .stray .. => 1
  | .stripSlip .. => 2
  | .scanDiscard .. => 3
  | .planLate .. => 4
  | .pieceLost .. => 5
  | .orderFilled .. => 6
  | .orderDone .. => 7
  | .paceLevel .. => 8
  | .profileState .. => 9
  | .cutterState .. => 10
  | .gaugeResult .. => 11
  | .bundleClosed .. => 12
  | .labelPrinted .. => 13
  | .printFault .. => 14
  | .cart .. => 15
  | .lineState .. => 16

/-- The raising of a notice into the notice queue (R180, R181): masked, it leaves no trace; else it takes
the next sequence number and joins the queue, or is discarded and counted when the queue is full. -/
def Lif.raise (l : Lif) (n : Notice) : Lif :=
  if l.masks.getLsbD n.code then
    let seq' := (l.nextSeq + 1) % 65536
    if l.notices.length < Config.noticeCapacity then
      { l with nextSeq := seq', notices := l.notices ++ [{ seq := l.nextSeq, notice := n }]
               attention := true }
    else
      { l with nextSeq := seq', noticeOverflow := bump l.noticeOverflow }
  else l

/-- The raising of a notice, in the state (R180). -/
def State.raise (s : State) (n : Notice) : State := s.setLif (s.lif.raise n)

/-! ## Requests and replies (R173 to R176) -/

/-- What the owner of a request gives: a refusal code, which changes nothing (R174), or the state after
the request's whole effect with the reply's data. -/
abbrev Answer := Except ResultCode (State × List Byte)

/-- A check of a request: refused with the code when the condition holds. -/
def refuseIf (bad : Bool) (code : ResultCode) (rest : Answer) : Answer :=
  if bad then .error code else rest

/-- A request taken, with the reply's data. -/
def taken (s : State) (data : List Byte) : Answer := .ok (s, data)

/-- In HALTED a request of the refused group is refused before any check of its own (R20). -/
def refuseHalted (s : State) (rest : Answer) : Answer :=
  refuseIf (s.ltr.lineState == .halted) .halted rest

/-- A reply becomes pending (R174, R175). -/
def State.setReply (s : State) (kind tag : Byte) (code : ResultCode) (data : List Byte)
    (resetAfter : Bool) : State :=
  s.setLif { s.lif with reply := some { kind, tag, code, data, begun := false, resetAfter } }

/-- A complete frame that finds a reply pending (R173, R175): discarded and counted; while the reply is
being sent the receiver takes no bytes, so there is no frame. -/
def State.frameWhilePending (s : State) (r : Reply) : State :=
  if r.begun then s else s.setLif { s.lif with pendingDiscards := bump s.lif.pendingDiscards }

/-- A sound addressed frame (R173, R174): discarded while a reply is pending; otherwise a request, whose
owner gives the result, and the reply is pending from this event. -/
def request (kind tag : Byte) (owner : State → Answer) (s : State) : State :=
  match s.lif.reply with
  | some r => s.frameWhilePending r
  | none =>
    match owner s with
    | .ok (t, data) => t.setReply kind tag .ok data false
    | .error code => s.setReply kind tag code [] false

/-- A sound broadcast frame's kind acted on (R176): the owner's result is discarded, no reply. -/
def unanswered (owner : State → Answer) (s : State) : State :=
  match owner s with
  | .ok (t, _) => t
  | .error _ => s

end Sys2Proof.Machine
end

