-- ==== Sys2Proof/Machine/Layout.lean ====
section
/-! DEFINITION. The layouts of section 12.6: named values as their place in their list, the notice record,
the manifest record, and the records carried in requests and replies. -/

namespace Sys2Proof.Machine

open Sys2Proof

/-! ## Named values: the place in the list where the rule gives the values, from 0 (section 12.6) -/

/-- Line states, in the order of section 1.5's table. DESIGN CHOICE (log 9): R17's table of LINE_START's effects
lists STOPPED, STOPPING, RUNNING, HALTED, and no rule says which of the two lists gives the numbers. -/
def LineState.code : LineState → Nat
  | .stopped => 0 | .running => 1 | .stopping => 2 | .halted => 3
/-- LINE_STATE causes (R17). -/
def LineCause.code : LineCause → Nat
  | .request => 0 | .drained => 1 | .estop => 2
/-- Phases (R2). -/
def Phase.code : Phase → Nat
  | .fed => 0 | .measuring => 1 | .travelling => 2 | .atSaw => 3
/-- UNCUT reasons (R2, section 12.6). -/
def UncutReason.code : UncutReason → Nat
  | .noScan => 0 | .noLength => 1 | .late => 2 | .outOfRange => 3 | .stray => 4 | .noYield => 5
/-- Plan status (section 12.6): an UNCUT status is 4 plus its reason's place. -/
def PlanStatus.code : PlanStatus → Nat
  | .pending => 0 | .computing => 1 | .ready => 2 | .uncut r => 4 + r.code
/-- Verification states (R27). -/
def Verification.code : Verification → Nat
  | .idle => 0 | .armed => 1 | .onBar => 2 | .latched => 3
/-- Gauge status (R32). -/
def GaugeStatus.code : GaugeStatus → Nat
  | .unverified => 0 | .pass => 1 | .suspect => 2
/-- Gauge causes (section 12.6). -/
def GaugeCause.code : GaugeCause → Nat
  | .mark32 => 0 | .barEnd => 1 | .request => 2 | .line => 3 | .estop => 4
/-- Gauge outcomes (section 12.6). -/
def GaugeOutcome.code : GaugeOutcome → Nat
  | .pass => 0 | .suspect => 1 | .cancelled => 2
/-- Scan discard reasons (R34). -/
def DiscardReason.code : DiscardReason → Nat
  | .malformed => 0 | .unknownTag => 1 | .duplicate => 2 | .late => 3
/-- Order line states (R65). -/
def OrderState.code : OrderState → Nat
  | .free => 0 | .opened => 1 | .draining => 2
/-- ORDER_FILLED causes (R76). -/
def FillCause.code : FillCause → Nat
  | .landing => 0 | .amend => 1
/-- Changeover states (section 6.5). -/
def Changeover.code : Changeover → Nat
  | .running => 0 | .draining => 1 | .tooling => 2 | .toolFault => 3
/-- PROFILE_STATE causes (R94). -/
def ProfileCause.code : ProfileCause → Nat
  | .request => 0 | .drained => 1 | .ready => 2 | .timeout => 3
/-- Cutter group states (section 7.7). -/
def Cutter.code : Cutter → Nat
  | .off => 0 | .spinup => 1 | .run => 2 | .idleWait => 3 | .standby => 4
/-- CUTTER_STATE causes (R111). -/
def CutterCause.code : CutterCause → Nat
  | .request => 0 | .line => 1 | .estop => 2 | .spunUp => 3 | .idle => 4 | .activity => 5
  | .hysteresis => 6 | .wake => 7
/-- Cut states (R97). -/
def CutState.code : CutState → Nat
  | .pending => 0 | .made => 1 | .missed => 2 | .cancelled => 3
/-- Slip outcomes NONE, PASS, SLIP (R97). -/
def SlipOutcome.code : SlipOutcome → Nat
  | .unchecked => 0 | .pass => 1 | .slip => 2
/-- Bin states (section 9). -/
def BinState.code : BinState → Nat
  | .disabled => 0 | .opened => 1 | .closePending => 2 | .closing => 3 | .waitCart => 4
/-- Close reasons in notices and manifests (section 12.6, manifest record). -/
def CloseReason.code : CloseReason → Nat
  | .full => 0 | .requested => 1 | .profile => 2 | .disable => 3
/-- Label states (R140). -/
def LabelState.code : LabelState → Nat
  | .pending => 0 | .printed => 1 | .lost => 2
/-- Raster ops (R146). -/
def RasterOp.code : RasterOp → Nat
  | .replace => 0 | .or => 1 | .and => 2 | .xor => 3 | .condEq => 4 | .condNe => 5
/-- Slot states (R162). -/
def SlotState.code : SlotState → Nat
  | .free => 0 | .rendering => 1 | .queued => 2 | .printing => 3 | .fault => 4
/-- Port states (R163). -/
def PortState.code : PortState → Nat
  | .idle => 0 | .busy => 1 | .done => 2
/-- Print fault causes (R168). -/
def PrintCause.code : PrintCause → Nat
  | .faultInput => 0 | .timeout => 1
/-- Eyes (section 12.6). -/
def Eye.code : Eye → Nat
  | .measure => 0 | .scan => 1 | .saw => 2 | .drop => 3
/-- Result codes (section 12.6). -/
def ResultCode.code : ResultCode → Nat
  | .ok => 0 | .badKind => 1 | .badLength => 2 | .badValue => 3 | .notConfigured => 4
  | .wrongState => 5 | .halted => 6 | .estopActive => 7 | .busy => 8 | .inUse => 9
  | .isProtected => 10 | .empty => 11 | .notFound => 12 | .notReady => 13 | .resultPending => 14

/-! ## The notice record (section 12.6) -/

/-- The detail bytes of a notice, in the order of the table of section 12.6. -/
def Notice.detail : Notice → List Byte
  | .stripLost tag eye status => be2 tag ++ be1 eye.code ++ be1 status.code
  | .stray eye pos tag => be1 eye.code ++ bePos pos ++ be2 tag
  | .stripSlip tag l l2 m a => be2 tag ++ be2 l ++ be2 l2 ++ be1 m ++ be1 a
  | .scanDiscard r tag c => be1 r.code ++ be2 tag ++ be1 c
  | .planLate tag r a => be2 tag ++ be1 r.code ++ beFlag a
  | .pieceLost tag i n g l f => be2 tag ++ be1 i ++ be2 n ++ be1 g ++ be1 l ++ beFlag f
  | .orderFilled l r d f rs c => be1 l ++ beText 12 r ++ be4 d ++ be4 f ++ be4 rs ++ be1 c.code
  | .orderDone l r d f n fl => be1 l ++ beText 12 r ++ be4 d ++ be4 f ++ be2 n ++ beFlag fl
  | .paceLevel n o t s b tf sf bl =>
    be1 n ++ be1 o ++ be1 t ++ be1 s ++ be1 b ++ be1 tf ++ be1 sf ++ be1 bl
  | .profileState n l t a c =>
    be1 n.code ++ be1 l.code ++ be1 (t.getD 0) ++ be1 (a.getD 0) ++ be1 c.code
  | .cutterState n l c => be1 n.code ++ be1 l.code ++ be1 c.code
  | .gaugeResult o c m f => be1 o.code ++ be1 c.code ++ be1 m ++ be1 f
  | .bundleClosed n b r p mm w => be4 n ++ be1 b ++ be1 r.code ++ be2 p ++ be4 mm ++ be1 w
  | .labelPrinted n sl a => be4 n ++ be1 sl ++ be1 a
  | .printFault n sl c r a => be4 n ++ be1 sl ++ be1 c.code ++ be2 r ++ be1 a
  | .cart b arr => be1 b ++ be1 (if arr then 0 else 1)
  | .lineState n l c => be1 n.code ++ be1 l.code ++ be1 c.code

/-- The notice record of 32 bytes (section 12.6). -/
def Queued.record (q : Queued) : List Byte :=
  be2 q.seq ++ be1 q.notice.code ++ be1 q.notice.detail.length ++ beText 28 q.notice.detail

/-! ## The manifest record (section 12.6) -/

/-- Colour of a bundle, MIXED as FEh. -/
def BundleColour.code : BundleColour → Nat
  | .one c => c
  | .mixed => 0xFE

/-- Key type and reference of a tally: 13 bytes. -/
def TallyKey.bytes : TallyKey → List Byte
  | .order r => [0#8] ++ beText 12 r
  | .stock => [1#8] ++ List.replicate 12 0#8

/-- A tally in 19 bytes (section 12.6, manifest record; in BIN_READ too, log 36). -/
def Tally.bytes (t : Tally) : List Byte := t.key.bytes ++ be2 t.pieces ++ be4 t.mm

/-- The check fields of a manifest: offsets 0 to 159 of its record (section 12.6). -/
def Manifest.checkFields (m : Manifest) : List Byte :=
  be4 m.number ++ be1 m.bin ++ be1 m.worst ++ be1 m.colour.code
    ++ m.perClass.toList.flatMap be2
    ++ be2 m.pieces ++ be4 m.lineal ++ be4 m.shorts ++ be1 m.rows ++ be1 m.tallies.length
    ++ beText 114 (m.tallies.flatMap Tally.bytes)
    ++ be1 m.profile ++ be1 m.gauge.code ++ beText 8 m.date ++ be1 m.reason.code

/-- The manifest record of 181 bytes (section 12.6). -/
def Manifest.record (m : Manifest) : List Byte :=
  m.checkFields ++ be2 m.check.toNat ++ be1 m.label.code ++ beFlag m.discharged
    ++ be1 m.clipped.length ++ beText 16 (m.clipped.flatMap be1)

/-! ## Records carried in requests and replies, in the order their rules list the fields -/

/-- LINE_GEOMETRY's fields (R5): 11 bytes. -/
def geometryBytes (g : Geometry) : List Byte :=
  be2 g.scale ++ be2 g.dScan ++ be2 g.dSaw ++ be1 g.eyeTol ++ be2 g.planLead ++ be2 g.feedWindow

/-- A Grade Table row (R39): 18 bytes. -/
def gradeRowBytes (r : GradeRow) : List Byte :=
  beText 8 r.name ++ r.maxsev.flatMap be1 ++ be2 r.dlim

/-- The plan options (R53): 3 bytes. -/
def planOptionBytes (o : PlanOptions) : List Byte :=
  be1 o.margin ++ be1 o.stockPct ++ be1 o.overrunPct

/-- The Feed Pacer settings (R79): 18 bytes. -/
def paceBytes (p : PaceSettings) : List Byte :=
  be2 p.scale ++ be2 p.slotPitch ++ be2 p.feedPulse ++ be1 p.t1 ++ be1 p.t2 ++ be1 p.t3
    ++ be1 p.s1 ++ be1 p.s2 ++ be1 p.s3 ++ be1 p.b1 ++ be1 p.b2 ++ be1 p.b3
    ++ be1 p.g1 ++ be1 p.g2 ++ be1 p.g3

/-- A profile set (R86): 23 bytes. -/
def profileBytes (p : ProfileSet) : List Byte :=
  beText 4 p.species ++ beText 8 p.profileId ++ be2 p.width ++ be1 p.thickness ++ be1 p.endTrim
    ++ be1 p.allowance ++ be2 p.lmin ++ be2 p.lmax ++ be2 p.toolingLimit

/-- The trim settings (R96): 9 bytes. -/
def trimBytes (t : TrimSettings) : List Byte :=
  be2 t.sawDistance ++ be2 t.sawLead ++ be2 t.sawPulse ++ be1 t.slipTol ++ sbe2 t.sawComp

/-- The cutter settings (R104): 16 bytes. -/
def headsBytes (h : HeadsSettings) : List Byte :=
  be4 h.hysteresis ++ be4 h.residency ++ be2 h.spinUp ++ be4 h.path ++ be2 h.speed

/-- The sort settings (R113): 4 bytes. -/
def sortBytes (t : SortSettings) : List Byte := be2 t.scale ++ be2 t.dropWindow

/-- A bin sort entry (R121): 9 bytes. -/
def sortEntryBytes (e : SortEntry) : List Byte :=
  beWanted e.grade ++ beWanted e.colour ++ [e.classSet] ++ be2 e.offset ++ be2 e.lead ++ be2 e.pulse

/-- The bundle settings (R129): 11 bytes. -/
def bundleSettingBytes (b : BundleSettings) : List Byte :=
  be2 b.length ++ be1 b.rows ++ be1 b.gap ++ be2 b.closeSlack ++ be2 b.shortsThreshold
    ++ be1 b.shortsShare ++ be2 b.dischargePulse

/-- A rectangle (R146): 6 bytes. -/
def rectBytes (r : Rect) : List Byte := be2 r.x0 ++ be2 r.x1 ++ be1 r.y0 ++ be1 r.y1

/-- The items of a Field Table entry (R156): 11 bytes. -/
def fieldBytes (f : Field) : List Byte :=
  be1 f.kind ++ be2 f.x ++ be1 f.y ++ be1 f.glyphSet ++ be1 f.scale ++ be1 f.maxChars
    ++ be1 f.align ++ be1 f.ink ++ be1 f.moduleWidth ++ be1 f.height

/-- The print settings (R164): 4 bytes. -/
def printBytes (p : PrintSettings) : List Byte :=
  be1 p.timer ++ be1 p.strobe ++ be1 p.done ++ be1 p.byteTime

/-- The five receive counters of a link (R186). -/
def rxBytes (c : RxCounters) : List Byte :=
  be2 c.noise ++ be2 c.overlength ++ be2 c.gapErrors ++ be2 c.crcErrors ++ be2 c.wrongStation

end Sys2Proof.Machine
end

