-- ==== Sys2Proof/Decode.lean ====
section
/-! DEFINITION. From words and frames to commands. The opcode table gives no row any bits, so no word spells
a command; the bits that spell a request are those of its frame (section 12.6): the kind with the payload,
read here and written here. -/

namespace Sys2Proof

/-- The command that a word of the opcode table's bits spells: none, since the table gives no row any bits
(log 30). -/
def decodeTableWord (_nbits _w : Nat) : Option Instr := none

namespace Wire

open Sys2Proof.Machine

/-! ## Reading fields of a payload (section 12.6): most significant byte first -/

/-- The byte at offset i. -/
def byteAt (p : List Byte) (i : Nat) : Byte := p.getD i 0#8

/-- The 1-byte integer at offset i. -/
def u1 (p : List Byte) (i : Nat) : Nat := (byteAt p i).toNat

/-- The 2-byte integer at offset i. -/
def u2 (p : List Byte) (i : Nat) : Nat := u1 p i * 256 + u1 p (i + 1)

/-- The 4-byte integer at offset i. -/
def u4 (p : List Byte) (i : Nat) : Nat := u2 p i * 65536 + u2 p (i + 2)

/-- The signed 2-byte integer at offset i. -/
def i2 (p : List Byte) (i : Nat) : Int := (BitVec.ofNat 16 (u2 p i)).toInt

/-- The n bytes at offset i. -/
def bytesAt (p : List Byte) (i n : Nat) : List Byte := (p.drop i).take n

/-- The match field at offset i: ANY is FFh. -/
def wantedAt (p : List Byte) (i : Nat) : Wanted := if u1 p i = 255 then .any else .only (u1 p i)

/-- The n 1-byte integers from offset i on. -/
def list1 (p : List Byte) (i n : Nat) : List Nat := (List.range n).map (fun k => u1 p (i + k))

/-- The n 2-byte integers from offset i on. -/
def list2 (p : List Byte) (i n : Nat) : List Nat := (List.range n).map (fun k => u2 p (i + 2 * k))

/-- The n 4-byte integers from offset i on. -/
def list4 (p : List Byte) (i n : Nat) : List Nat := (List.range n).map (fun k => u4 p (i + 4 * k))

/-- The Grade Table row at offset i (R39). -/
def gradeRowAt (p : List Byte) (i : Nat) : GradeRow :=
  { name := bytesAt p i 8, maxsev := list1 p (i + 8) 8, dlim := u2 p (i + 16) }

/-- The rectangle at offset i (R146). -/
def rectAt (p : List Byte) (i : Nat) : Rect :=
  { x0 := u2 p i, x1 := u2 p (i + 2), y0 := u1 p (i + 4), y1 := u1 p (i + 5) }

/-- The items of a Field Table entry at offset i (R156). -/
def fieldAt (p : List Byte) (i : Nat) : Field :=
  { kind := u1 p i, x := u2 p (i + 1), y := u1 p (i + 3), glyphSet := u1 p (i + 4)
    scale := u1 p (i + 5), maxChars := u1 p (i + 6), align := u1 p (i + 7), ink := u1 p (i + 8)
    moduleWidth := u1 p (i + 9), height := u1 p (i + 10) }

/-! ## Kinds and lengths (the control-link kind table of section 12.6) -/

/-- GLYPH_WRITE's length (section 12.6): the set byte, the first code, the count, then the glyphs; a set byte
other than SMALL and LARGE has no length that fits. -/
def glyphLengthFits (p : List Byte) : Bool :=
  if p.length < 3 then false
  else if u1 p 0 = 0 then p.length == 3 + 12 * u1 p 2
  else if u1 p 0 = 1 then p.length == 3 + 48 * u1 p 2
  else false

/-- Whether a payload has the length the kind table gives for a kind; none for a byte that is no request
kind (R174). -/
def lengthFits (kind : Nat) (p : List Byte) : Option Bool :=
  match kind with
  | 0x10 | 0x11 | 0x12 | 0x13 | 0x15 | 0x1A | 0x1B | 0x1C | 0x1D | 0x23 | 0x2A | 0x41 | 0x4A | 0x4B
  | 0x52 | 0x55 | 0x66 | 0x67 | 0x68 | 0x6C | 0x71 | 0x72 | 0x73 | 0x78 | 0x79 => some (p.length == 0)
  | 0x14 => some (p.length == 11)
  | 0x16 => some (p.length == 2)
  | 0x18 => some (p.length == 2)
  | 0x19 => some (p.length == 130)
  | 0x20 => some (decide (0 < p.length) && p.length == 1 + 18 * u1 p 0)
  | 0x21 => some (p.length == 8)
  | 0x22 => some (decide (0 < p.length) && p.length == 1 + 2 * u1 p 0)
  | 0x28 => some (p.length == 80)
  | 0x29 => some (p.length == 3)
  | 0x30 => some (p.length == 20)
  | 0x31 => some (p.length == 5)
  | 0x32 => some (p.length == 1)
  | 0x33 => some (p.length == 2)
  | 0x40 => some (p.length == 18)
  | 0x48 => some (p.length == 24)
  | 0x49 => some (p.length == 1)
  | 0x50 => some (p.length == 9)
  | 0x51 => some (p.length == 16)
  | 0x54 => some (p.length == 4)
  | 0x58 => some (p.length == 21)
  | 0x59 => some (p.length == 1)
  | 0x5A => some (p.length == 1)
  | 0x5B => some (p.length == 1)
  | 0x5C => some (p.length == 4)
  | 0x5D => some (p.length == 4)
  | 0x5E => some (p.length == 4)
  | 0x60 => some (p.length == 6)
  | 0x61 => some (p.length == 3)
  | 0x62 => some (p.length == 3)
  | 0x63 => some (decide (1 ≤ p.length) && decide (p.length ≤ 1024))
  | 0x64 => some (p.length == 3)
  | 0x65 => some (p.length == 2)
  | 0x69 => some (glyphLengthFits p)
  | 0x6A => some (p.length == 8)
  | 0x6B => some (p.length == 13)
  | 0x70 => some (p.length == 4)
  | 0x7A => some (p.length == 8)
  | 0x7B => some (p.length == 1)
  | 0x7C => some (p.length == 4)
  | _ => none

/-! ## Reading a request -/

/-- The request of a kind whose payload has the right length. -/
def readRequest (kind : Nat) (tag : Byte) (p : List Byte) : Option Instr :=
  match kind with
  | 0x10 => some (.lineStart tag)
  | 0x11 => some (.lineStop tag)
  | 0x12 => some (.lineResume tag)
  | 0x13 => some (.lineClear tag)
  | 0x14 => some (.lineGeometry tag
      { scale := u2 p 0, dScan := u2 p 2, dSaw := u2 p 4, eyeTol := u1 p 6, planLead := u2 p 7
        feedWindow := u2 p 9 })
  | 0x15 => some (.lineRead tag)
  | 0x16 => some (.stripRead tag (u2 p 0))
  | 0x18 => some (.measureSet tag (i2 p 0))
  | 0x19 => some (.gaugeTable tag (list4 p 0 32) (u2 p 128))
  | 0x1A => some (.gaugeVerify tag)
  | 0x1B => some (.gaugeCancel tag)
  | 0x1C => some (.gaugeRelease tag)
  | 0x1D => some (.gaugeRead tag)
  | 0x20 => some (.gradeSet tag (u1 p 0) ((List.range (u1 p 0)).map (fun k => gradeRowAt p (1 + 18 * k))))
  | 0x21 => some (.weightSet tag (list1 p 0 8))
  | 0x22 => some (.classSet tag (u1 p 0) (list2 p 1 (u1 p 0)))
  | 0x23 => some (.gradeRead tag)
  | 0x28 => some (.valueSet tag (list2 p 0 40))
  | 0x29 => some (.planOptions tag { margin := u1 p 0, stockPct := u1 p 1, overrunPct := u1 p 2 })
  | 0x2A => some (.planRead tag)
  | 0x30 => some (.orderLoad tag (u1 p 0)
      { reference := bytesAt p 1 12, grade := u1 p 13, cls := u1 p 14, colour := wantedAt p 15
        demand := u4 p 16 })
  | 0x31 => some (.orderAmend tag (u1 p 0) (u4 p 1))
  | 0x32 => some (.orderClose tag (u1 p 0))
  | 0x33 => some (.orderRead tag (u1 p 0) (u1 p 1))
  | 0x40 => some (.paceSet tag
      { scale := u2 p 0, slotPitch := u2 p 2, feedPulse := u2 p 4, t1 := u1 p 6, t2 := u1 p 7
        t3 := u1 p 8, s1 := u1 p 9, s2 := u1 p 10, s3 := u1 p 11, b1 := u1 p 12, b2 := u1 p 13
        b3 := u1 p 14, g1 := u1 p 15, g2 := u1 p 16, g3 := u1 p 17 })
  | 0x41 => some (.paceRead tag)
  | 0x48 => some (.profileSet tag (u1 p 0)
      { species := bytesAt p 1 4, profileId := bytesAt p 5 8, width := u2 p 13, thickness := u1 p 15
        endTrim := u1 p 16, allowance := u1 p 17, lmin := u2 p 18, lmax := u2 p 20
        toolingLimit := u2 p 22 })
  | 0x49 => some (.profileChange tag (u1 p 0))
  | 0x4A => some (.profileAbort tag)
  | 0x4B => some (.profileRead tag)
  | 0x50 => some (.trimSet tag
      { sawDistance := u2 p 0, sawLead := u2 p 2, sawPulse := u2 p 4, slipTol := u1 p 6
        sawComp := i2 p 7 })
  | 0x51 => some (.headsSet tag
      { hysteresis := u4 p 0, residency := u4 p 4, spinUp := u2 p 8, path := u4 p 10, speed := u2 p 14 })
  | 0x52 => some (.trimRead tag)
  | 0x54 => some (.sortSet tag { scale := u2 p 0, dropWindow := u2 p 2 })
  | 0x55 => some (.sortRead tag)
  | 0x58 => some (.binSet tag (u1 p 0)
      { grade := wantedAt p 1, colour := wantedAt p 2, classSet := byteAt p 3, offset := u2 p 4
        lead := u2 p 6, pulse := u2 p 8 }
      { length := u2 p 10, rows := u1 p 12, gap := u1 p 13, closeSlack := u2 p 14
        shortsThreshold := u2 p 16, shortsShare := u1 p 18, dischargePulse := u2 p 19 })
  | 0x59 => some (.binClose tag (u1 p 0))
  | 0x5A => some (.binDisable tag (u1 p 0))
  | 0x5B => some (.binRead tag (u1 p 0))
  | 0x5C => some (.cartMask tag (BitVec.ofNat 16 (u2 p 0)) (BitVec.ofNat 16 (u2 p 2)))
  | 0x5D => some (.manifestRead tag (u4 p 0))
  | 0x5E => some (.manifestTake tag (u4 p 0))
  | 0x60 => some (.tplWindow tag (rectAt p 0))
  | 0x61 => some (.tplAddr tag (u2 p 0) (u1 p 2))
  | 0x62 => some (.tplOp tag (u1 p 0) (byteAt p 1) (byteAt p 2))
  | 0x63 => some (.tplWrite tag p)
  | 0x64 => some (.tplFill tag (u2 p 0) (byteAt p 2))
  | 0x65 => some (.tplRead tag (u2 p 0))
  | 0x66 => some (.tplClear tag)
  | 0x67 => some (.tplHold tag)
  | 0x68 => some (.tplRelease tag)
  | 0x69 => some (.glyphWrite tag (u1 p 0) (u1 p 1) (u1 p 2) (p.drop 3))
  | 0x6A => some (.protectSet tag (u1 p 0) (byteAt p 1) (rectAt p 2))
  | 0x6B => some (.fieldSet tag (u1 p 0) (byteAt p 1) (fieldAt p 2))
  | 0x6C => some (.lcpRead tag)
  | 0x70 => some (.printSet tag
      { timer := u1 p 0, strobe := u1 p 1, done := u1 p 2, byteTime := u1 p 3 })
  | 0x71 => some (.printRetry tag)
  | 0x72 => some (.printDrop tag)
  | 0x73 => some (.printStatus tag)
  | 0x78 => some (.reset tag)
  | 0x79 => some (.statusRead tag)
  | 0x7A => some (.setDate tag p)
  | 0x7B => some (.noticePoll tag (u1 p 0))
  | 0x7C => some (.noticeMask tag (BitVec.ofNat 32 (u4 p 0)))
  | _ => none

/-- A request read from its kind, tag and payload (R174): BAD_KIND, then BAD_LENGTH, then the request. -/
def parseRequest (kind tag : Byte) (p : List Byte) : Except ResultCode Instr :=
  match lengthFits kind.toNat p, readRequest kind.toNat tag p with
  | some true, some i => .ok i
  | some false, _ => .error .badLength
  | _, _ => .error .badKind

/-! ## Writing a request -/

/-- The kind, tag and payload of a request (section 12.6); none for a command that is no request. -/
def writeRequest : Instr → Option (Byte × Byte × List Byte)
  | .lineStart t => some (0x10#8, t, [])
  | .lineStop t => some (0x11#8, t, [])
  | .lineResume t => some (0x12#8, t, [])
  | .lineClear t => some (0x13#8, t, [])
  | .lineGeometry t g => some (0x14#8, t, geometryBytes g)
  | .lineRead t => some (0x15#8, t, [])
  | .stripRead t n => some (0x16#8, t, be2 n)
  | .measureSet t c => some (0x18#8, t, sbe2 c)
  | .gaugeTable t ms tol => some (0x19#8, t, ms.flatMap be4 ++ be2 tol)
  | .gaugeVerify t => some (0x1A#8, t, [])
  | .gaugeCancel t => some (0x1B#8, t, [])
  | .gaugeRelease t => some (0x1C#8, t, [])
  | .gaugeRead t => some (0x1D#8, t, [])
  | .gradeSet t n rows => some (0x20#8, t, be1 n ++ rows.flatMap gradeRowBytes)
  | .weightSet t ws => some (0x21#8, t, ws.flatMap be1)
  | .classSet t n bs => some (0x22#8, t, be1 n ++ bs.flatMap be2)
  | .gradeRead t => some (0x23#8, t, [])
  | .valueSet t vs => some (0x28#8, t, vs.flatMap be2)
  | .planOptions t o => some (0x29#8, t, planOptionBytes o)
  | .planRead t => some (0x2A#8, t, [])
  | .orderLoad t k o =>
    some (0x30#8, t, be1 k ++ beText 12 o.reference ++ be1 o.grade ++ be1 o.cls ++ beWanted o.colour
      ++ be4 o.demand)
  | .orderAmend t k d => some (0x31#8, t, be1 k ++ be4 d)
  | .orderClose t k => some (0x32#8, t, be1 k)
  | .orderRead t f n => some (0x33#8, t, be1 f ++ be1 n)
  | .paceSet t p => some (0x40#8, t, paceBytes p)
  | .paceRead t => some (0x41#8, t, [])
  | .profileSet t n p => some (0x48#8, t, be1 n ++ profileBytes p)
  | .profileChange t n => some (0x49#8, t, be1 n)
  | .profileAbort t => some (0x4A#8, t, [])
  | .profileRead t => some (0x4B#8, t, [])
  | .trimSet t x => some (0x50#8, t, trimBytes x)
  | .headsSet t h => some (0x51#8, t, headsBytes h)
  | .trimRead t => some (0x52#8, t, [])
  | .sortSet t x => some (0x54#8, t, sortBytes x)
  | .sortRead t => some (0x55#8, t, [])
  | .binSet t n e b => some (0x58#8, t, be1 n ++ sortEntryBytes e ++ bundleSettingBytes b)
  | .binClose t n => some (0x59#8, t, be1 n)
  | .binDisable t n => some (0x5A#8, t, be1 n)
  | .binRead t n => some (0x5B#8, t, be1 n)
  | .cartMask t a d => some (0x5C#8, t, be2 a.toNat ++ be2 d.toNat)
  | .manifestRead t n => some (0x5D#8, t, be4 n)
  | .manifestTake t n => some (0x5E#8, t, be4 n)
  | .tplWindow t w => some (0x60#8, t, rectBytes w)
  | .tplAddr t x y => some (0x61#8, t, be2 x ++ be1 y)
  | .tplOp t o m p => some (0x62#8, t, be1 o ++ [m] ++ [p])
  | .tplWrite t d => some (0x63#8, t, d)
  | .tplFill t n v => some (0x64#8, t, be2 n ++ [v])
  | .tplRead t n => some (0x65#8, t, be2 n)
  | .tplClear t => some (0x66#8, t, [])
  | .tplHold t => some (0x67#8, t, [])
  | .tplRelease t => some (0x68#8, t, [])
  | .glyphWrite t st f n d => some (0x69#8, t, be1 st ++ be1 f ++ be1 n ++ d)
  | .protectSet t a u r => some (0x6A#8, t, be1 a ++ [u] ++ rectBytes r)
  | .fieldSet t e u f => some (0x6B#8, t, be1 e ++ [u] ++ fieldBytes f)
  | .lcpRead t => some (0x6C#8, t, [])
  | .printSet t p => some (0x70#8, t, printBytes p)
  | .printRetry t => some (0x71#8, t, [])
  | .printDrop t => some (0x72#8, t, [])
  | .printStatus t => some (0x73#8, t, [])
  | .reset t => some (0x78#8, t, [])
  | .statusRead t => some (0x79#8, t, [])
  | .setDate t d => some (0x7A#8, t, beText 8 d)
  | .noticePoll t n => some (0x7B#8, t, be1 n)
  | .noticeMask t m => some (0x7C#8, t, be4 m.toNat)
  | .powerOnReset .. | .framerByte .. | .gapTimerExpiry .. | .broadcastFrame .. | .replySent
  | .scanRecord .. | .announceSent | .estopAssert | .estopRelease | .encoderPulse ..
  | .measureLeadingEdge | .measureTrailingEdge | .scanLeadingEdge | .scanTrailingEdge
  | .sawLeadingEdge | .sawTrailingEdge | .windowExpiry .. | .deadline .. | .planCompletion | .barEnd
  | .slotEvent | .feedReadyEdge .. | .feedPulseEnd | .toolingReadyRise | .toolingReadyFall
  | .toolingTimerExpiry | .cutDue .. | .sawPulseEnd | .spinupExpiry | .hysteresisExpiry
  | .residencyExpiry | .dropLeadingEdge | .dropTrailingEdge | .dropWindowExpiry .. | .diverterFire ..
  | .diverterPulseEnd .. | .cart .. | .dischargePulseEnd .. | .renderCompletion | .printReadyRise
  | .printFaultAssert | .printFaultRelease | .printTimerExpiry | .rowRequest | .rowTransferEnd
  | .strobeEnd | .donePulseEnd | .printReadyFall | .rowRequestFall | .replyBegins => none

end Wire

end Sys2Proof
end

