-- ==== Sys2Proof/Machine/Flags.lean ====
section
/-! DEFINITION. What the blocks read of one another: free counts, pointers, holds, levels, each computed
from the records it is a view of. -/

namespace Sys2Proof.Machine

open Sys2Proof

/-! ## The two queues -/

/-- Free count of the Strip Tracking Queue (R1). -/
def stripFree (s : State) : Nat := Config.stripCapacity - s.ltr.strips.length

/-- Free count of the Piece Sort Queue (R114). -/
def pieceFree (s : State) : Nat := Config.pieceCapacity - s.srt.pieces.length

/-- Both queues are empty (R18, R90). -/
def bothEmpty (s : State) : Bool := s.ltr.strips.isEmpty && s.srt.pieces.isEmpty

/-- The strip record of a tag. -/
def stripOf (s : State) (tag : Nat) : Option Strip := s.ltr.strips.find? (fun r => r.tag == tag)

/-- The window of a record at an eye (R6). -/
def Strip.window (r : Strip) : TrimEye → Option Window
  | .measure => r.measureWin
  | .scan => r.scanWin
  | .saw => r.sawWin

/-- The next-expected pointer of an eye: the oldest record that still has a window there (R6). -/
def nextExpected (s : State) (e : TrimEye) : Option Nat :=
  (s.ltr.strips.find? (fun r => (r.window e).isSome)).map (·.tag)

/-- A record whose window at the eye is open: the opening has been reached and the window has neither
expired nor been discarded (R6; log 2, log 16). -/
def Strip.expectedAt (r : Strip) (e : TrimEye) : Bool :=
  match r.window e with
  | some w => w.reached
  | none => false

/-- The oldest record whose window at the eye is open (R8, R10, R11). Records before the next-expected
pointer have no window, so the search from the queue's front is the search from the pointer. -/
def matchAt (s : State) (e : TrimEye) : Option Strip :=
  s.ltr.strips.find? (fun r => r.expectedAt e)

/-- An entry of the Piece Sort Queue is EXPECTED (R115). -/
def Piece.isExpected (p : Piece) : Bool :=
  match p.place with
  | .expected _ => true
  | .assigned .. => false

/-- The drop-eye pointer: the oldest EXPECTED entry (R118). -/
def dropPointer (s : State) : Option Piece := s.srt.pieces.find? Piece.isExpected

/-- The entry of a strip tag and piece index (R114: there is at most one). -/
def pieceOf (s : State) (tag index : Nat) : Option Piece :=
  s.srt.pieces.find? (fun p => p.tag == tag && p.index == index)

/-! ## Order lines -/

/-- Effective remaining of an order line (R71). -/
def OrderLine.remaining (l : OrderLine) : Int := (l.demand : Int) - l.fulfilled - l.reserved

/-! ## Line and configuration -/

/-- The line watches its eyes (section 1.5 table). -/
def watching (s : State) : Bool :=
  s.ltr.lineState == .running || s.ltr.lineState == .stopping

/-- The configuration LINE_START and LINE_RESUME require (R17). -/
def configured (s : State) : Bool :=
  s.ltr.geometryLoaded && (s.ple.gradesLoaded && decide (1 ≤ s.ple.grades.length))
    && s.ple.classesLoaded && s.pfc.active.isSome

/-- A verification is in flight (R27): the MSU takes the measure eye's edges and the feed is held. -/
def verifying (s : State) : Bool :=
  s.msu.verification == .armed || s.msu.verification == .onBar

/-! ## Bins -/

/-- Bin b's record. Only bins 1 to 14 exist; a record after reset stands for any other number. -/
def binAt (s : State) (b : Nat) : Bin := (tabGet s.bdb.bins b).getD .initial

/-- Bin b's sort entry (R121). -/
def entryAt (s : State) (b : Nat) : SortEntry := (tabGet s.srt.entries b).getD clearedEntry

/-- The bins in order. -/
def binNumbers : List Nat := [1, 2, 3, 4, 5, 6, 7, 8, 9, 10, 11, 12, 13, 14]

/-- A bin is blocked in CLOSE_PENDING, CLOSING or WAIT_CART (R80). -/
def Bin.blocked (b : Bin) : Bool :=
  b.state == .closePending || b.state == .closing || b.state == .waitCart

/-- The blocked-bin count (R80). -/
def blockedBins (s : State) : Nat := s.bdb.bins.toList.countP Bin.blocked

/-- Rows used of a bundle (R133). -/
def Bundle.rowsUsed (b : Bundle) : Nat := b.rowFills.length

/-- Something is allocated in a bundle: at least one row started (R132). -/
def Bundle.allocated (b : Bundle) : Bool := !b.rowFills.isEmpty

/-! ## Label slots -/

/-- Slot k's record. Only slots 1 to 4 exist. -/
def slotAt (s : State) (k : Nat) : Slot := (tabGet s.prq.slots k).getD .initial

/-- The slots in order. -/
def slotNumbers : List Nat := [1, 2, 3, 4]

/-- The FREE label slot of lowest number (R139). -/
def freeSlot (s : State) : Option Nat := slotNumbers.find? (fun k => (slotAt s k).state == .free)

/-- The slot in FAULT, lowest number first (R169: at most one is, since one print is in progress). -/
def faultSlot (s : State) : Option Nat := slotNumbers.find? (fun k => (slotAt s k).state == .fault)

/-! ## Feed holds (R82) -/

/-- CUTTER: the group is neither in RUN nor in SPINUP with remaining time at most travel_ms. -/
def cutterHold (s : State) : Bool :=
  match s.tsc.cutter with
  | .run => false
  | .spinup => decide (s.tsc.travelMs < s.tsc.spinTimer.getD 0)
  | _ => true

/-- LINE: the line state is not RUNNING. -/
def lineHold (s : State) : Bool := s.ltr.lineState != .running

/-- TRACKING: the Strip Tracking Queue is full. -/
def trackingHold (s : State) : Bool := stripFree s == 0

/-- PROFILE: the changeover state is not RUNNING. -/
def profileHold (s : State) : Bool := s.pfc.changeover != .running

/-- GAUGE: a verification is ARMED or ON_BAR. -/
def gaugeHold (s : State) : Bool := verifying s

/-- Slot i of a period with gap count g is a gap (R81). -/
def isGap (g i : Nat) : Bool := decide (i * g / 16 < (i + 1) * g / 16)

/-- The gap slots of a gap count (R81). -/
def gapSlots (g : Nat) : List Nat := (List.range 16).filter (isGap g)

/-- A source level: the first level from 3 down whose test holds (R80). -/
def levelOf (three two one : Bool) : Nat :=
  if three then 3 else if two then 2 else if one then 1 else 0

/-! ## Eligibility (R49) -/

/-- A strip record is eligible for computation. -/
def Strip.eligible (r : Strip) : Bool :=
  r.length.isSome && r.scan.isSome && r.status == .pending

/-- The wait order: the eligible records, oldest first (R49). -/
def waitOrder (s : State) : List Strip := s.ltr.strips.filter Strip.eligible

end Sys2Proof.Machine
end

