-- ==== Sys2Proof/Machine/Operands.lean ====
section
/-! DEFINITION. The checks requests make of the fields they carry: ranges, relations between fields, texts,
references to other tables. Each answers true when the field may be taken. -/

namespace Sys2Proof.Machine

open Sys2Proof

/-- A value lies in a range, both ends included. -/
def within (lo hi n : Nat) : Bool := decide (lo ≤ n) && decide (n ≤ hi)

/-- A signed value lies in a range, both ends included. -/
def withinInt (lo hi n : Int) : Bool := decide (lo ≤ n) && decide (n ≤ hi)

/-- Each entry is greater than the one before it. -/
def ascending : List Nat → Bool
  | a :: b :: rest => decide (a < b) && ascending (b :: rest)
  | _ => true

/-- A flag byte of a request: 00h clear, 01h set (section 12.6); any other byte is a free value (log 7). -/
def flagOf (b : Byte) : Bool :=
  if b = 0#8 then false else if b = 1#8 then true else Config.freeFlag b

/-- LINE_GEOMETRY: the ranges and the three conditions (R5). -/
def geometryOk (g : Geometry) : Bool :=
  within 10 2000 g.scale && within 50 20000 g.dScan && within 100 40000 g.dSaw
    && within 1 200 g.eyeTol && within 10 40000 g.planLead && within 100 20000 g.feedWindow
    && decide (g.eyeTol < g.dScan) && decide (g.dScan + g.eyeTol + g.planLead < g.dSaw)
    && decide (g.eyeTol < g.planLead)

/-- MEASURE_SET: the compensation's range (R23). -/
def compOk (c : Int) : Bool := withinInt (-5000) 5000 c

/-- GAUGE_TABLE: mark 0 is 0, the marks ascend, mark 31 and T are in range (R26). -/
def gaugeTableOk (marks : List Nat) (t : Nat) : Bool :=
  marks.head? == some 0 && ascending marks && marks.all (fun m => decide (m ≤ 3000000))
    && within 100 5000 t

/-- GRADE_SET: the count, every maxsev, every name (R39). -/
def gradesOk (count : Nat) (rows : List GradeRow) : Bool :=
  within 1 5 count && rows.all (fun r => r.maxsev.all (fun m => decide (m ≤ 7)))
    && rows.all (fun r => textOk (textOf r.name))

/-- A grade of an order line not FREE, or of the match pattern of a bin not DISABLED, is above a count
(R39). -/
def gradeInUseAbove (s : State) (count : Nat) : Bool :=
  s.otu.lines.toList.any (fun l => l.state != .free && decide (count < l.grade))
    || binNumbers.any (fun b => (binAt s b).state != .disabled &&
        match (entryAt s b).grade with
        | .any => false
        | .only g => decide (count < g))

/-- WEIGHT_SET: each weight is at most 15 (R40). -/
def weightsOk (ws : List Nat) : Bool := ws.all (fun w => decide (w ≤ 15))

/-- CLASS_SET: the count and the bounds (R41). -/
def classesOk (count : Nat) (bounds : List Nat) : Bool :=
  within 1 8 count && (match bounds.head? with | some b => decide (150 ≤ b) | none => false)
    && ascending bounds && bounds.all (fun b => decide (b ≤ 3000))

/-- The highest class of a class set (0 for the empty set). -/
def topClass (cs : BitVec 8) : Nat :=
  ((List.range 8).filter (fun i => cs.getLsbD i)).foldl (fun m i => max m (i + 1)) 0

/-- A class is in a class set (R121). -/
def inClassSet (cs : BitVec 8) (c : Nat) : Bool := decide (1 ≤ c) && cs.getLsbD (c - 1)

/-- A class of an order line not FREE, or in the class set of a bin not DISABLED, is above a count (R41). -/
def classInUseAbove (s : State) (count : Nat) : Bool :=
  s.otu.lines.toList.any (fun l => l.state != .free && decide (count < l.cls))
    || binNumbers.any (fun b => (binAt s b).state != .disabled &&
        decide (count < topClass (entryAt s b).classSet))

/-- VALUE_SET: each value is at most 4,095 (R52). -/
def valuesOk (vs : List Nat) : Bool := vs.all (fun v => decide (v ≤ 4095))

/-- PLAN_OPTIONS (R53). -/
def planOptionsOk (o : PlanOptions) : Bool :=
  decide (o.margin ≤ 50) && decide (o.stockPct ≤ 100) && decide (o.overrunPct ≤ 100)

/-- A colour match: 0 to 3, or ANY (R65, R121). -/
def colourOk : Wanted → Bool
  | .any => true
  | .only c => decide (c ≤ 3)

/-- The tables an order line or bin needs are loaded (R67, R129). -/
def tablesLoaded (s : State) : Bool := s.ple.gradesLoaded && s.ple.classesLoaded

/-- A demand in range (R65). -/
def demandOk (d : Nat) : Bool := within 1 2000000000 d

/-- ORDER_LOAD's fields (R67, check 4). -/
def orderOk (s : State) (o : OrderFields) : Bool :=
  within 1 s.ple.grades.length o.grade && within 1 s.ple.bounds.length o.cls && colourOk o.colour
    && demandOk o.demand && textOk (textOf o.reference)

/-- PACE_SET: the ranges and orders of R79. -/
def paceOk (p : PaceSettings) : Bool :=
  within 10 2000 p.scale && within 100 2000 p.slotPitch && within 10 1000 p.feedPulse
    && within 0 32 p.t1 && within 0 32 p.t2 && within 0 32 p.t3
    && within 0 64 p.s1 && within 0 64 p.s2 && within 0 64 p.s3
    && within 1 14 p.b1 && within 1 14 p.b2 && within 1 14 p.b3
    && within 0 255 p.g1 && within 0 255 p.g2 && within 0 255 p.g3
    && decide (p.t2 < p.t1) && decide (p.t3 < p.t2) && decide (p.s2 < p.s1) && decide (p.s3 < p.s2)
    && decide (p.b1 < p.b2) && decide (p.b2 < p.b3)

/-- PROFILE_SET's fields (R86, R87 check 2). -/
def profileOk (p : ProfileSet) : Bool :=
  within 20 400 p.width && within 4 60 p.thickness && within 0 50 p.endTrim
    && within 2 20 p.allowance && within 150 1200 p.lmin && within 300 3000 p.lmax
    && within 10 3600 p.toolingLimit && decide (p.lmin ≤ p.lmax)
    && textOk (textOf p.species) && textOk (textOf p.profileId)

/-- TRIM_SET (R96). -/
def trimOk (t : TrimSettings) : Bool :=
  within 20 2000 t.sawDistance && within 0 1000 t.sawLead && within 10 500 t.sawPulse
    && within 1 50 t.slipTol && withinInt (-5000) 5000 t.sawComp && decide (t.sawLead < t.sawDistance)

/-- HEADS_SET (R104). -/
def headsOk (h : HeadsSettings) : Bool :=
  within 0 600000 h.hysteresis && within 0 600000 h.residency && within 100 30000 h.spinUp
    && within 100 100000 h.path && within 100 5000 h.speed

/-- SORT_SET (R113). -/
def sortOk (t : SortSettings) : Bool := within 10 2000 t.scale && within 100 20000 t.dropWindow

/-- A bin number, 1 to 14. -/
def binOk (b : Nat) : Bool := within 1 14 b

/-- BIN_SET's fields (R121, R129 check 4). -/
def binSetOk (s : State) (e : SortEntry) (b : BundleSettings) : Bool :=
  (match e.grade with | .any => true | .only g => within 1 s.ple.grades.length g)
    && colourOk e.colour
    && e.classSet != 0#8 && decide (topClass e.classSet ≤ s.ple.bounds.length)
    && within 50 60000 e.offset && within 0 1000 e.lead && within 10 1000 e.pulse
    && decide (e.lead < e.offset)
    && within 500 3000 b.length && within 1 40 b.rows && within 0 20 b.gap
    && decide (b.closeSlack ≤ b.length) && within 0 3000 b.shortsThreshold
    && within 0 255 b.shortsShare && within 100 10000 b.dischargePulse

/-- A rectangle of the image (R147). -/
def rectOk (r : Rect) : Bool :=
  decide (r.x0 ≤ r.x1) && decide (r.x1 ≤ 447) && decide (r.y0 ≤ r.y1) && decide (r.y1 ≤ 255)

/-- A pixel lies in a rectangle (R147, R155). -/
def inRect (r : Rect) (x y : Nat) : Bool := within r.x0 r.x1 x && within r.y0 r.y1 y

/-- The raster op of a number sent (R148). -/
def rasterOf : Nat → Option RasterOp
  | 0 => some .replace
  | 1 => some .or
  | 2 => some .and
  | 3 => some .xor
  | 4 => some .condEq
  | 5 => some .condNe
  | _ => none

/-- GLYPH_WRITE: the glyph's bytes in a set, none for a set that does not exist (R153, section 12.6). -/
def glyphSize : Nat → Option Nat
  | 0 => some 12
  | 1 => some 48
  | _ => none

/-- GLYPH_WRITE's check 2 (R154). -/
def glyphRangeOk (set first count : Nat) : Bool :=
  within 1 (if set = 0 then 80 else 20) count && within 0x20 0x7F first
    && within 0x20 0x7F (first + count - 1)

/-- The kind CODE_STRIP of a Field Table entry (R156). -/
def codeStripKind : Nat := 12

/-- FIELD_SET's items, read by kind (R156). -/
def fieldOk (f : Field) : Bool :=
  within 0 12 f.kind && within 0 447 f.x && within 0 255 f.y && within 0 1 f.align && within 0 1 f.ink
    && (if f.kind = codeStripKind then within 1 3 f.moduleWidth && within 8 128 f.height
        else within 0 1 f.glyphSet && within 1 2 f.scale && within 1 32 f.maxChars)

/-- PRINT_SET (R164). -/
def printOk (p : PrintSettings) : Bool :=
  within 1 60 p.timer && within 1 50 p.strobe && within 1 50 p.done && within 1 200 p.byteTime

/-- SET_DATE: characters, then 00h to the end (R179). -/
def dateOk (d : List Byte) : Bool := textOk (textOf d)

end Sys2Proof.Machine
end

