-- ==== Sys2Proof/Machine/Orders.lean ====
section
/-! DEFINITION. The Order Table Unit (chapter 5): the lookup, reservations, releases, credits, and the
requests ORDER_LOAD, ORDER_AMEND, ORDER_CLOSE and ORDER_READ. -/

namespace Sys2Proof.Machine

open Sys2Proof

/-- Order line k. Only lines 1 to 32 exist. -/
def lineAt (s : State) (k : Nat) : OrderLine := (tabGet s.otu.lines k).getD .initial

/-- The state with order line k changed. -/
def State.modLine (s : State) (k : Nat) (f : OrderLine → OrderLine) : State :=
  s.setOtu { s.otu with lines := tabMod s.otu.lines k f }

/-- A line matches a key (R71): OPEN, of the grade and class, of the colour or ANY. -/
def OrderLine.fits (l : OrderLine) (grade cls colour : Nat) : Bool :=
  l.state == .opened && l.grade == grade && l.cls == cls
    && (l.colour == .any || l.colour == .only colour)

/-- The line numbers in order. -/
def lineNumbers : List Nat := (List.range 32).map (· + 1)

/-- The lookup (R71): the matching line of lowest index with R above 0, else the matching line of lowest
index, else none. -/
def lookup (s : State) (grade cls colour : Nat) : Option Nat :=
  match lineNumbers.find? (fun k => (lineAt s k).fits grade cls colour
      && decide (0 < (lineAt s k).remaining)) with
  | some k => some k
  | none => lineNumbers.find? (fun k => (lineAt s k).fits grade cls colour)

/-- A reservation on the line found (R72). -/
def reserve (line : Option Nat) (n : Nat) (s : State) : State :=
  match line with
  | none => s
  | some k => s.modLine k (fun l => { l with reserved := l.reserved + n })

/-- The ORDER_DONE notice of a line's figures (R77). -/
def orderDone (k : Nat) (l : OrderLine) : Notice :=
  .orderDone k l.reference l.demand l.fulfilled l.landed l.filled

/-- The ORDER_FILLED notice of a line's figures (R76). -/
def orderFilled (k : Nat) (l : OrderLine) (c : FillCause) : Notice :=
  .orderFilled k l.reference l.demand l.fulfilled l.reserved c

/-- A DRAINING line whose reserved is 0 becomes FREE with ORDER_DONE (R77). -/
def drainLine (k : Nat) (s : State) : State :=
  let l := lineAt s k
  if l.state == .draining && l.reserved == 0 then
    (s.modLine k (fun l => { l with state := .free })).raise (orderDone k l)
  else s

/-- A release (R74): n is subtracted from the line's reserved, and a DRAINING line left with 0 is done. -/
def release (line : Option Nat) (n : Nat) (s : State) : State :=
  match line with
  | none => s
  | some k => drainLine k (s.modLine k (fun l => { l with reserved := l.reserved - n }))

/-- The filled flag passes to set when fulfilled has reached demand (R76). -/
def fillLine (k : Nat) (c : FillCause) (s : State) : State :=
  let l := lineAt s k
  if !l.filled && decide (l.demand ≤ l.fulfilled) then
    (s.modLine k (fun l => { l with filled := true })).raise (orderFilled k l c)
  else s

/-- The credit of a landing (R75): n moves from reserved to fulfilled, then ORDER_FILLED, then
ORDER_DONE. -/
def credit (line : Option Nat) (n : Nat) (s : State) : State :=
  match line with
  | none => s
  | some k =>
    drainLine k (fillLine k .landing (s.modLine k (fun l =>
      { l with reserved := l.reserved - n, fulfilled := addTotal l.fulfilled n, landed := bump l.landed })))

/-- A line index, 1 to 32. -/
def lineOk (k : Nat) : Bool := within 1 32 k

/-! ## Requests -/

/-- ORDER_LOAD by its owner (R67). -/
def orderLoad (k : Nat) (o : OrderFields) (s : State) : Answer :=
  refuseIf (o.reference.length != 12) .badLength <|
  refuseHalted s <|
  refuseIf (!lineOk k) .badValue <|
  refuseIf (!tablesLoaded s) .notConfigured <|
  refuseIf (!orderOk s o) .badValue <|
  refuseIf ((lineAt s k).state != .free) .inUse <|
  taken (s.modLine k (fun _ =>
    { state := .opened, reference := textOf o.reference, grade := o.grade, cls := o.cls
      colour := o.colour, demand := o.demand, fulfilled := 0, reserved := 0, landed := 0
      filled := false })) []

/-- ORDER_AMEND by its owner (R68). -/
def orderAmend (k demand : Nat) (s : State) : Answer :=
  refuseHalted s <|
  refuseIf (!lineOk k || !demandOk demand) .badValue <|
  refuseIf ((lineAt s k).state == .free) .notFound <|
  refuseIf ((lineAt s k).state == .draining) .wrongState <|
  taken (fillLine k .amend (s.modLine k (fun l => { l with demand := demand }))) []

/-- ORDER_CLOSE by its owner (R69): an OPEN line becomes DRAINING, or, with reserved 0, FREE at once; a
DRAINING line stays as it is. -/
def orderClose (k : Nat) (s : State) : Answer :=
  refuseHalted s <|
  refuseIf (!lineOk k) .badValue <|
  refuseIf ((lineAt s k).state == .free) .notFound <|
  if (lineAt s k).state == .draining then taken s []
  else taken (drainLine k (s.modLine k (fun l => { l with state := .draining }))) []

/-- R as sent by ORDER_READ: a value below −2,147,483,648 is sent as that (R70). -/
def sentRemaining (l : OrderLine) : Int := max (-2147483648) l.remaining

/-- One line as ORDER_READ gives it (R65, R70). -/
def orderLineBytes (s : State) (k : Nat) : List Byte :=
  let l := lineAt s k
  be1 k ++ be1 l.state.code ++ beText 12 l.reference ++ be1 l.grade ++ be1 l.cls ++ beWanted l.colour
    ++ be4 l.demand ++ be4 l.fulfilled ++ be4 l.reserved ++ be2 l.landed ++ beFlag l.filled
    ++ sbe4 (sentRemaining l)

/-- ORDER_READ by its owner (R70). -/
def orderRead (first count : Nat) (s : State) : Answer :=
  refuseIf (!lineOk first || !within 1 16 count || decide (32 < first + count - 1)) .badValue <|
  taken s (beList (orderLineBytes s) ((List.range count).map (· + first))
    ++ be1 (s.otu.lines.toList.countP (fun l => l.state == .opened))
    ++ be1 (s.otu.lines.toList.countP (fun l => l.state == .draining)))

/-- ORDER_LOAD (R67, R174). -/
def execOrderLoad (tag : Byte) (k : Nat) (o : OrderFields) (s : State) : Outcome :=
  .next (request 0x30#8 tag (orderLoad k o) s)

/-- ORDER_AMEND (R68, R174). -/
def execOrderAmend (tag : Byte) (k demand : Nat) (s : State) : Outcome :=
  .next (request 0x31#8 tag (orderAmend k demand) s)

/-- ORDER_CLOSE (R69, R174). -/
def execOrderClose (tag : Byte) (k : Nat) (s : State) : Outcome :=
  .next (request 0x32#8 tag (orderClose k) s)

/-- ORDER_READ (R70, R174). -/
def execOrderRead (tag : Byte) (first count : Nat) (s : State) : Outcome :=
  .next (request 0x33#8 tag (orderRead first count) s)

end Sys2Proof.Machine
end

