-- ==== Sys2Proof/Machine/Compose.lean ====
section
/-! DEFINITION. Label images and how labels are drawn (chapter 10): pixels, the template's address counter
and raster ops, glyphs, field texts, the code strip, and the start of a rendering. -/

namespace Sys2Proof.Machine

open Sys2Proof

/-! ## Pixels (R145) -/

/-- The bit of pixel (x, y). -/
def pixelBit (x y : Nat) : Nat := 448 * y + x

/-- The value of pixel (x, y). -/
def Image.pixel (i : Image) (x y : Nat) : Bool := BitVec.getLsbD i (pixelBit x y)

/-- The image with pixel (x, y) set to a value. -/
def Image.plot (i : Image) (x y : Nat) (v : Bool) : Image :=
  if v then i ||| BitVec.twoPow 114688 (pixelBit x y)
  else i &&& ~~~(BitVec.twoPow 114688 (pixelBit x y))

/-- Eight pixels as a byte, the first in the most significant bit (R145). -/
def byteOfPixels (ps : List Bool) : Byte :=
  ps.foldl (fun b p => (b <<< 1) ||| (if p then 1#8 else 0#8)) 0#8

/-- A row of an image in 56 bytes, column 0 first (R145). -/
def Image.rowBytes (i : Image) (y : Nat) : List Byte :=
  (List.range 56).map fun k => byteOfPixels ((List.range 8).map fun j => Image.pixel i (8 * k + j) y)

/-! ## The address counter (R147) -/

/-- The counter after one advance through a window. -/
def advance (w : Rect) (x y : Nat) : Nat × Nat :=
  if x < w.x1 then (x + 1, y) else if y < w.y1 then (w.x0, y + 1) else (w.x0, w.y0)

/-- The n pixels the counter visits from (x, y), in order. -/
def visited (w : Rect) : Nat → Nat → Nat → List (Nat × Nat)
  | 0, _, _ => []
  | n + 1, x, y => (x, y) :: visited w n (advance w x y).1 (advance w x y).2

/-- The counter after n advances. -/
def advances (w : Rect) : Nat → Nat → Nat → Nat × Nat
  | 0, x, y => (x, y)
  | n + 1, x, y => advances w n (advance w x y).1 (advance w x y).2

/-! ## Raster ops (R148, R149) -/

/-- Bit at position k of a byte, position 0 the most significant (R148). -/
def bitAt (b : Byte) (k : Nat) : Bool := b.getMsbD k

/-- The new value of an unmasked pixel from its old value and the data bit (R148); under COND_EQ and
COND_NE a written byte sets it as REPLACE does (R149). -/
def rasterBit (op : RasterOp) (old data : Bool) : Bool :=
  match op with
  | .replace | .condEq | .condNe => data
  | .or => old || data
  | .and => old && data
  | .xor => old != data

/-- Every unmasked position of the covered pixels agrees with the pattern (R149). -/
def agrees (l : Lcp) (px : List (Nat × Nat)) : Bool :=
  (List.range 8).all fun k =>
    !bitAt l.mask k || (match px[k]? with
      | some p => Image.pixel l.template p.1 p.2 == bitAt l.pattern k
      | none => true)

/-- A byte is written (R149): always under the four plain ops, by the comparison under COND_EQ and
COND_NE. -/
def byteWritten (l : Lcp) (px : List (Nat × Nat)) : Bool :=
  match l.op with
  | .condEq => agrees l px
  | .condNe => !agrees l px
  | _ => true

/-- The template with the pixels from position k on changed by a byte (R148): masked pixels keep their old
values. DESIGN CHOICE (log 34): in a window of fewer than 8 pixels a byte covers a pixel at more than one position,
and no rule says whether the later position finds the value before the byte or the one just written; the positions
are applied one after another, each on the image as the one before left it. -/
def plotByte (op : RasterOp) (mask data : Byte) : Nat → List (Nat × Nat) → Image → Image
  | _, [], i => i
  | k, p :: ps, i =>
    plotByte op mask data (k + 1) ps
      (if bitAt mask k then Image.plot i p.1 p.2 (rasterBit op (Image.pixel i p.1 p.2) (bitAt data k))
       else i)

/-- One data byte applied to the template; the counter advances by 8 (R148, R149, R150). -/
def Lcp.applyByte (l : Lcp) (data : Byte) : Lcp :=
  let px := visited l.window 8 l.addrX l.addrY
  let c := advances l.window 8 l.addrX l.addrY
  { l with
    template := if byteWritten l px then plotByte l.op l.mask data 0 px l.template else l.template
    addrX := c.1, addrY := c.2 }

/-- Data bytes applied in the order sent (R150). -/
def Lcp.applyBytes (l : Lcp) (data : List Byte) : Lcp := data.foldl Lcp.applyByte l

/-- One data byte applied n times (R150). -/
def Lcp.fill (l : Lcp) (data : Byte) : Nat → Lcp
  | 0 => l
  | n + 1 => (l.applyByte data).fill data n

/-- The bytes of the 8 n pixels the counter visits (R151). -/
def Lcp.readBytes (l : Lcp) : Nat → Nat → Nat → List Byte
  | 0, _, _ => []
  | n + 1, x, y =>
    byteOfPixels ((visited l.window 8 x y).map fun p => Image.pixel l.template p.1 p.2)
      :: l.readBytes n (advances l.window 8 x y).1 (advances l.window 8 x y).2

/-! ## Drawing (R155, R156) -/

/-- A pixel lies inside a protect area (R155). -/
def isProtected (areas : Vector (Option Rect) 4) (x y : Nat) : Bool :=
  areas.toList.any fun a => match a with | some r => inRect r x y | none => false

/-- A target of field drawing (R156): its column and row, and whether it belongs to an inked pixel of the field (a
glyph pixel of 1, a bar pixel) or to a glyph pixel of 0. -/
structure Target where
  x : Int
  y : Nat
  inked : Bool
  deriving DecidableEq, Repr

/-- One target of field drawing (R156): dropped and reported past the label edge, left inside a protect
area, and otherwise set to the ink, or left as it is where the glyph pixel is 0. -/
def drawTarget (areas : Vector (Option Rect) 4) (ink : Bool) (a : Image × Bool) (t : Target) : Image × Bool :=
  if t.x < 0 || 447 < t.x || 255 < t.y then (a.1, true)
  else if isProtected areas t.x.toNat t.y || !t.inked then a
  else (Image.plot a.1 t.x.toNat t.y ink, a.2)

/-- The targets of one field drawn over a slot image, with whether any was dropped. -/
def drawTargets (areas : Vector (Option Rect) 4) (ink : Bool) (ts : List Target) (i : Image) :
    Image × Bool :=
  ts.foldl (drawTarget areas ink) (i, false)

/-- Columns and rows of a glyph set's cells (R153). -/
def glyphColumns (set : Nat) : Nat := if set = 0 then 8 else 16
/-- Rows of a glyph set's cells (R153). -/
def glyphRows (set : Nat) : Nat := if set = 0 then 12 else 24

/-- The glyph drawn for a character code (R153): its own from 20h to 7Fh, else 3Fh. -/
def glyphIndex (c : Byte) : Nat :=
  if within 0x20 0x7F c.toNat then c.toNat - 0x20 else 0x3F - 0x20

/-- Pixel (column, row) of the glyph of a character (R153). -/
def glyphPixel (l : Lcp) (set : Nat) (c : Byte) (column row : Nat) : Bool :=
  if set = 0 then (l.small[glyphIndex c]?.getD 0#96).getMsbD (8 * row + column)
  else (l.large[glyphIndex c]?.getD 0#384).getMsbD (16 * row + column)

/-- The targets of one character whose cell's left column is x0 and top row y0 (R156): each glyph pixel, of 1 or
of 0, covers a block of scale by scale pixels. DEDUCED (log 39): the targets of a glyph pixel of 0, which step 3 leaves
as they are, count in step 5's clipping as any other target does. -/
def cellTargets (l : Lcp) (set scale : Nat) (c : Byte) (x0 : Int) (y0 : Nat) : List Target :=
  (List.range (glyphRows set)).flatMap fun row =>
    (List.range (glyphColumns set)).flatMap fun column =>
      (List.range scale).flatMap fun dy => (List.range scale).map fun dx =>
        { x := x0 + ((scale * column + dx : Nat) : Int), y := y0 + scale * row + dy
          inked := glyphPixel l set c column row }

/-- The targets of a text (R156): cut to max characters, cells side by side, placed LEFT or RIGHT. -/
def textTargets (l : Lcp) (f : Field) (t : Text) : List Target :=
  let shown := t.take f.maxChars
  let cell := glyphColumns f.glyphSet * f.scale
  let left : Int := if f.align = 0 then f.x else (f.x : Int) - (shown.length * cell : Nat) + 1
  (shown.zipIdx).flatMap fun p =>
    cellTargets l f.glyphSet f.scale p.1 (left + ((p.2 * cell : Nat) : Int)) f.y

/-- The widths in modules of the bars of a code strip, each followed by a space of 2 but the last
(R159). -/
def stripBars (number : Nat) (check : BitVec 16) : List Nat :=
  [3] ++ ((List.range 32).map fun k => if (BitVec.ofNat 32 number).getMsbD k then 3 else 1)
    ++ ((List.range 16).map fun k => if check.getMsbD k then 3 else 1) ++ [3]

/-- The first module and the width of each bar (R159). -/
def placeBars : Nat → List Nat → List (Nat × Nat)
  | _, [] => []
  | at_, b :: bs => (at_, b) :: placeBars (at_ + b + 2) bs

/-- The width of a code strip in modules (R159): 5 + 5 ones + 3 zeros + 3. -/
def stripWidth (number : Nat) (check : BitVec 16) : Nat :=
  ((stripBars number check).map (· + 2)).sum - 2

/-- The targets of a code strip (R159). -/
def stripTargets (f : Field) (number : Nat) (check : BitVec 16) : List Target :=
  let width := stripWidth number check * f.moduleWidth
  let left : Int := if f.align = 0 then f.x else (f.x : Int) - width + 1
  (placeBars 0 (stripBars number check)).flatMap fun b =>
    (List.range f.height).flatMap fun dy =>
      (List.range (b.2 * f.moduleWidth)).map fun dx =>
        { x := left + ((b.1 * f.moduleWidth + dx : Nat) : Int), y := f.y + dy, inked := true }

/-! ## Field texts (R157) -/

/-- Metres of a length in mm: whole metres, ".", three digits. -/
def metres (mm : Nat) : Text :=
  let r := mm % 1000
  decimal (mm / 1000) ++ ascii ['.'] ++
    [BitVec.ofNat 8 (0x30 + r / 100), BitVec.ofNat 8 (0x30 + r / 10 % 10), BitVec.ofNat 8 (0x30 + r % 10)]

/-- One hexadecimal digit, 0 to 9 and A to F. -/
def hexDigit (n : Nat) : Byte := BitVec.ofNat 8 (if n < 10 then 0x30 + n else 0x41 + (n - 10))

/-- Four hexadecimal digits. -/
def hex4 (c : BitVec 16) : Text :=
  [hexDigit (c.toNat / 4096), hexDigit (c.toNat / 256 % 16), hexDigit (c.toNat / 16 % 16),
   hexDigit (c.toNat % 16)]

/-- Texts separated by "/". -/
def slashed : List Text → Text
  | [] => []
  | [t] => t
  | t :: ts => t ++ ascii ['/'] ++ slashed ts

/-- The text of a tally key. -/
def TallyKey.text : TallyKey → Text
  | .order r => r
  | .stock => ascii ['S', 'T', 'O', 'C', 'K']

/-- The text of the gauge status. -/
def GaugeStatus.text : GaugeStatus → Text
  | .unverified => ascii ['U', 'N', 'V', 'E', 'R', 'I', 'F', 'I', 'E', 'D']
  | .pass => ascii ['P', 'A', 'S', 'S']
  | .suspect => ascii ['S', 'U', 'S', 'P', 'E', 'C', 'T']

/-- The ORDER_REF text: the first tally's key, and "+" with the number of further tallies. -/
def orderRefText : List Tally → Text
  | [] => []
  | [t] => t.key.text
  | t :: ts => t.key.text ++ ascii ['+'] ++ decimal ts.length

/-- The text of a field kind, from the manifest and the render record (R157). CODE_STRIP has none. -/
def fieldText (m : Manifest) (r : RenderRecord) : Nat → Text
  | 0 => decimal m.number
  | 1 => if m.worst = 0 then ascii ['-'] else r.gradeName
  | 2 => slashed ((m.perClass.toList.take r.classCount).map decimal)
  | 3 => decimal m.pieces
  | 4 => metres m.lineal
  | 5 => decimal (m.shorts * 100 / m.lineal) ++ ascii ['%']
  | 6 => orderRefText m.tallies
  | 7 => r.profileId
  | 8 => r.species
  | 9 => m.date
  | 10 => m.gauge.text
  | 11 => hex4 m.check
  | _ => []

/-- The targets of one field (R156, R159). -/
def fieldTargets (l : Lcp) (m : Manifest) (r : RenderRecord) (f : Field) : List Target :=
  if f.kind = codeStripKind then stripTargets f m.number m.check
  else textTargets l f (fieldText m r f.kind)

/-- One entry of the Field Table drawn over the image, with its number listed if it was clipped (R156,
R158). -/
def drawField (l : Lcp) (m : Manifest) (r : RenderRecord) (a : Image × List Nat)
    (e : Option Field × Nat) : Image × List Nat :=
  match e.1 with
  | none => a
  | some f =>
    let d := drawTargets l.protect (f.ink == 0) (fieldTargets l m r f) a.1
    (d.1, if d.2 then a.2 ++ [e.2 + 1] else a.2)

/-- A rendered label (R158): the template's copy with the used entries drawn in ascending order, and the
clipped-field list. -/
def renderLabel (l : Lcp) (m : Manifest) (r : RenderRecord) : Image × List Nat :=
  (l.fields.toList.zipIdx).foldl (drawField l m r) (l.template, [])

/-! ## The start of a rendering (R158) -/

/-- The render engine, when idle, takes up the first slot of the render order (R158). -/
def Lcp.takeUp (l : Lcp) : Lcp :=
  match l.engine, l.renderOrder with
  | none, r :: _ => { l with engine := some r.slot }
  | _, _ => l

/-- The render record of a slot, from the tables as they stand (R158). -/
def renderRecord (s : State) (slot : Nat) (m : Manifest) : RenderRecord :=
  { slot := slot, bundle := m.number
    gradeName := if m.worst = 0 then [] else (s.ple.grades[m.worst - 1]?.map (·.name)).getD []
    classCount := s.ple.bounds.length
    profileId := match tabGet s.pfc.sets m.profile with | some (some p) => p.profileId | _ => []
    species := match tabGet s.pfc.sets m.profile with | some (some p) => p.species | _ => [] }

/-- The state with label slot k changed. -/
def State.modSlot (s : State) (k : Nat) (f : Slot → Slot) : State :=
  s.setPrq { s.prq with slots := tabMod s.prq.slots k f }

/-- A rendering begins (R158, R162): the slot takes the bundle number, joins the render order with its
render record, and is taken up if the engine is idle. -/
def renderStart (slot : Nat) (m : Manifest) (s : State) : State :=
  let t := s.modSlot slot (fun x => { x with state := .rendering, bundle := some m.number, attempts := 0 })
  t.setLcp (Lcp.takeUp { t.lcp with renderOrder := t.lcp.renderOrder ++ [renderRecord s slot m] })

end Sys2Proof.Machine
end

