-- ==== Sys2Proof/Machine/Closing.lean ====
section
/-! DEFINITION. What the Bundle Builder shares with the other blocks (chapter 9): acceptance and landing of
a piece, close requests, the closing order, the attempt at completion and the close completion, and the
start of a discharge. -/

namespace Sys2Proof.Machine

open Sys2Proof

/-- The state with bin b's record changed. -/
def State.modBin (s : State) (b : Nat) (f : Bin → Bin) : State :=
  s.setBdb { s.bdb with bins := tabMod s.bdb.bins b f }

/-- The cart state of a bin (R142): it follows the bin's cart-present input. -/
def cartPresent (s : State) (b : Nat) : Bool := (tabGet s.pins.carts b).getD false

/-- The manifest of a bundle number (R140: no two have the same). -/
def manifestOf (s : State) (number : Nat) : Option Manifest :=
  s.bdb.manifests.find? (fun m => m.number == number)

/-- The state with the manifests of a bundle number changed. -/
def State.modManifest (s : State) (number : Nat) (f : Manifest → Manifest) : State :=
  s.setBdb { s.bdb with manifests := s.bdb.manifests.map (fun m => if m.number == number then f m else m) }

/-! ## Acceptance and landing (R134 to R136) -/

/-- The tally key of a piece: its order line's reference, or STOCK (R134). -/
def tallyKey (s : State) (line : Option Nat) : TallyKey :=
  match line with
  | none => .stock
  | some k => .order (lineAt s k).reference

/-- The fill of the current row, the last started (R133). -/
def Bundle.currentFill (u : Bundle) : Nat := u.rowFills.getLast?.getD 0

/-- What a piece adds to the current row: the gap, when the row holds a piece, and its length (R134). -/
def addedFill (x : Bin) (n : Nat) : Nat := (if x.bundle.inRow = 0 then 0 else x.settings.gap) + n

/-- The piece fits in the current row (R134 test 1). -/
def fitsRow (x : Bin) (n : Nat) : Bool :=
  x.bundle.allocated && decide (x.bundle.currentFill + addedFill x n ≤ x.settings.length)

/-- The space test (R134 test 1). -/
def spaceOk (x : Bin) (n : Nat) : Bool :=
  fitsRow x n || (decide (x.bundle.rowsUsed < x.settings.rows) && decide (n ≤ x.settings.length))

/-- A piece is short (R134 test 2). -/
def isShort (x : Bin) (n : Nat) : Bool := decide (n < x.settings.shortsThreshold)

/-- The greatest shorts length of a bundle (R134). -/
def shortsLimit (b : BundleSettings) : Nat := b.shortsShare * b.length * b.rows / 100

/-- The shorts test (R134 test 2). -/
def shortsOk (x : Bin) (n : Nat) : Bool :=
  !isShort x n || decide (x.bundle.shorts + n ≤ shortsLimit x.settings)

/-- A bundle has a tally of a key. -/
def hasTally (u : Bundle) (k : TallyKey) : Bool := u.tallies.any (fun t => t.key == k)

/-- The tally test (R134 test 3). -/
def talliesOk (x : Bin) (k : TallyKey) : Bool :=
  hasTally x.bundle k || decide (x.bundle.tallies.length < Config.maxTallies)

/-- An accepted piece's space allocated in the open bundle (R134). -/
def allocate (x : Bin) (n profile : Nat) (k : TallyKey) : Bin :=
  let u := x.bundle
  let rows := if fitsRow x n then u.rowFills.dropLast ++ [u.currentFill + addedFill x n]
              else u.rowFills ++ [n]
  { x with bundle :=
    { u with
      rowFills := rows
      inRow := if fitsRow x n then u.inRow + 1 else 1
      shorts := if isShort x n then u.shorts + n else u.shorts
      tallies := if hasTally u k then u.tallies else u.tallies ++ [{ key := k, pieces := 0, mm := 0 }]
      profile := if u.allocated then u.profile else profile } }

/-- The acceptance test of an OPEN bin (R134): the first failing test refuses and counts; otherwise the
piece is allocated at once. -/
def offer (x : Bin) (n profile : Nat) (k : TallyKey) : Bin × Bool :=
  if !spaceOk x n then ({ x with refusedSpace := bump x.refusedSpace }, false)
  else if !shortsOk x n then ({ x with refusedShorts := bump x.refusedShorts }, false)
  else if !talliesOk x k then ({ x with refusedTally := bump x.refusedTally }, false)
  else (allocate x n profile k, true)

/-- The bundle is full (R135). -/
def bundleFull (x : Bin) : Bool :=
  x.bundle.rowsUsed == x.settings.rows
    && decide ((x.settings.length : Int) - x.bundle.currentFill < x.settings.closeSlack)

/-- The landed fields raised at a landing (R136). -/
def landIn (n grade cls colour : Nat) (k : TallyKey) (x : Bin) : Bin :=
  let u := x.bundle
  { x with bundle :=
    { u with
      landed := u.landed + 1
      perClass := tabMod u.perClass cls (· + 1)
      lineal := u.lineal + n
      shortsLanded := if isShort x n then u.shortsLanded + n else u.shortsLanded
      tallies := u.tallies.map (fun t =>
        if t.key == k then { t with pieces := t.pieces + 1, mm := t.mm + n } else t)
      worst := max u.worst grade
      colour := match u.colour with
        | none => some (.one colour)
        | some c => if c == .one colour then some c else some .mixed } }

/-! ## Discharge (R143) -/

/-- The start of a discharge: in WAIT_CART, with the cart present, the line not HALTED and no discharge
begun (R143, log 18). -/
def dischargeStart (b : Nat) (s : State) : State :=
  let x := binAt s b
  if x.state == .waitCart && cartPresent s b && s.ltr.lineState != .halted && x.discharge.isNone then
    s.modBin b (fun x => { x with discharge := some x.settings.dischargePulse })
  else s

/-- Every bin's discharge begun where it can, when the line leaves HALTED (R143). -/
def dischargeAll (s : State) : State := binNumbers.foldl (fun s b => dischargeStart b s) s

/-! ## Close completion (R138, R139) -/

/-- The manifest written at the close completion of bin b (R140), with its check value. -/
def newManifest (s : State) (b : Nat) : Manifest :=
  let x := binAt s b
  let u := x.bundle
  let m : Manifest :=
    { number := s.bdb.nextBundle, bin := b, worst := u.worst, colour := u.colour.getD .mixed
      perClass := u.perClass, pieces := u.landed, lineal := u.lineal, shorts := u.shortsLanded
      rows := u.rowsUsed, tallies := u.tallies, profile := u.profile, gauge := s.msu.status
      date := s.lif.date, reason := x.reason.getD .full, check := 0#16, label := .pending
      discharged := false, clipped := [] }
  { m with check := crc16 m.checkFields }

/-- The bundle number after n (R139). -/
def bundleAfter (n : Nat) : Nat := if n < 4294967295 then n + 1 else 1

/-- The close completion of bin b into slot k (R139). -/
def closeComplete (b k : Nat) (s : State) : State :=
  let m := newManifest s b
  let s1 := s.setBdb { s.bdb with nextBundle := bundleAfter s.bdb.nextBundle
                                  manifests := s.bdb.manifests ++ [m] }
  let s2 := renderStart k m s1
  let s3 := s2.raise (.bundleClosed m.number b m.reason m.pieces m.lineal m.worst)
  let s4 := s3.setBdb { s3.bdb with closingOrder := s3.bdb.closingOrder.erase b }
  dischargeStart b (s4.modBin b (fun x => { x with state := .waitCart }))

/-- A manifest entry and the template hold are available (R138). -/
def closeResources (s : State) : Bool :=
  decide (s.bdb.manifests.length < Config.manifestCapacity) && s.lcp.hold

/-- At most n close completions, the first bin of the closing order each time, until the order is empty
or a resource is lacking (R138). -/
def attempts : Nat → State → State
  | 0, s => s
  | n + 1, s =>
    match s.bdb.closingOrder, freeSlot s with
    | b :: _, some k => if closeResources s then attempts n (closeComplete b k s) else s
    | _, _ => s

/-- An attempt at completion (R138). -/
def attempt (s : State) : State := attempts s.bdb.closingOrder.length s

/-! ## Close requests (R131, R137) -/

/-- A bin passes to CLOSING, joins the closing order, and an attempt is made (R137). -/
def closingEntry (b : Nat) (s : State) : State :=
  let t := s.modBin b (fun x => { x with state := .closing })
  attempt (t.setBdb { t.bdb with closingOrder := t.bdb.closingOrder ++ [b] })

/-- A bin in CLOSE_PENDING whose incoming count is 0 passes to CLOSING (R130). -/
def settlePending (b : Nat) (s : State) : State :=
  if (binAt s b).state == .closePending && (binAt s b).incoming == 0 then closingEntry b s else s

/-- A close request (R131): taken in OPEN only. -/
def closeRequest (b : Nat) (r : CloseReason) (s : State) : State :=
  if (binAt s b).state == .opened then
    settlePending b (s.modBin b (fun x =>
      { x with reason := some r, toDisabled := x.toDisabled || r == .disable, state := .closePending }))
  else s

end Sys2Proof.Machine
end

