-- ==== Sys2Proof/Machine/Cutters.lean ====
section
/-! DEFINITION. The cutter group of the Trim Station Controller (section 7.7): its passages, the idle
condition, the wake, its timers' expiries, and HEADS_SET. -/

namespace Sys2Proof.Machine

open Sys2Proof

/-- The cutter group run output is driven in SPINUP, RUN and IDLE_WAIT (R103). -/
def Cutter.driven : Cutter → Bool
  | .spinup | .run | .idleWait => true
  | .off | .standby => false

/-- A change of the cutter group state: the state, the run output, and the CUTTER_STATE notice (R103,
R111). -/
def cutterTo (new : Cutter) (cause : CutterCause) (s : State) : State :=
  (s.setTsc { s.tsc with cutter := new, runOutput := new.driven }).raise
    (.cutterState new s.tsc.cutter cause)

/-- Entry to SPINUP (R105): the spin-up timer starts with W, the wake latch clears (R108). -/
def enterSpinup (cause : CutterCause) (s : State) : State :=
  let t := cutterTo .spinup cause s
  t.setTsc { t.tsc with spinTimer := some t.tsc.heads.spinUp, hystTimer := none, residTimer := none
                        wake := false }

/-- Entry to OFF (R109): the run output drops, every timer and the wake latch are discarded; a group
already OFF stays OFF with no notice. -/
def cutterOff (cause : CutterCause) (s : State) : State :=
  let t := if s.tsc.cutter == .off then s else cutterTo .off cause s
  t.setTsc { t.tsc with runOutput := false, spinTimer := none, hystTimer := none, residTimer := none
                        wake := false }

/-- The idle condition (R106): no strip record and the feed-ready eye clear. -/
def idle (s : State) : Bool := s.ltr.strips.isEmpty && !s.fdp.feedReady

/-- The test of the idle condition (R106). -/
def idleTest (s : State) : State :=
  if s.tsc.cutter == .run && idle s && decide (0 < s.tsc.heads.hysteresis) then
    let t := cutterTo .idleWait .idle s
    t.setTsc { t.tsc with hystTimer := some t.tsc.heads.hysteresis }
  else s

/-- A return from IDLE_WAIT to RUN (R106). -/
def activity (s : State) : State :=
  if s.tsc.cutter == .idleWait then
    let t := cutterTo .run .activity s
    t.setTsc { t.tsc with hystTimer := none }
  else s

/-- A waiting strip reported by the Feed Pacer (R108): in STANDBY it wakes the group, or sets the wake
latch while the residency timer runs. -/
def wakeReport (s : State) : State :=
  if s.tsc.cutter == .standby then
    match s.tsc.residTimer with
    | none => enterSpinup .wake s
    | some _ => s.setTsc { s.tsc with wake := true }
  else s

/-- Expiry of the spin-up timer (R105). -/
def spinupExpiry (s : State) : State :=
  if s.tsc.cutter == .spinup && s.tsc.spinTimer.isSome then
    let t := cutterTo .run .spunUp s
    idleTest (t.setTsc { t.tsc with spinTimer := none, spinUps := bump t.tsc.spinUps })
  else s

/-- Expiry of the hysteresis timer in IDLE_WAIT (R107): with M of 0 the residency timer expires at the
entry to STANDBY. -/
def hysteresisExpiry (s : State) : State :=
  if s.tsc.cutter == .idleWait && s.tsc.hystTimer.isSome then
    let t := cutterTo .standby .hysteresis s
    let m := t.tsc.heads.residency
    t.setTsc { t.tsc with hystTimer := none, residTimer := if m = 0 then none else some m
                          wake := false, standbys := bump t.tsc.standbys }
  else s

/-- Expiry of the residency timer in STANDBY (R108). -/
def residencyExpiry (s : State) : State :=
  if s.tsc.cutter == .standby && s.tsc.residTimer.isSome then
    let t := s.setTsc { s.tsc with residTimer := none }
    if s.tsc.wake then enterSpinup .wake t else t
  else s

/-- HEADS_SET by its owner (R104). -/
def headsSet (h : HeadsSettings) (s : State) : Answer :=
  refuseHalted s <|
  refuseIf (!headsOk h) .badValue <|
  taken (s.setTsc { s.tsc with heads := h, travelMs := h.path * 1000 / h.speed })
    (be4 (h.path * 1000 / h.speed))

/-- HEADS_SET (R104, R174). -/
def execHeadsSet (tag : Byte) (h : HeadsSettings) (s : State) : Outcome :=
  .next (request 0x51#8 tag (headsSet h) s)

/-- SPINUP_EXPIRY (R105). -/
def execSpinupExpiry (s : State) : Outcome := .next (spinupExpiry s)

/-- HYSTERESIS_EXPIRY (R107). -/
def execHysteresisExpiry (s : State) : Outcome := .next (hysteresisExpiry s)

/-- RESIDENCY_EXPIRY (R108). -/
def execResidencyExpiry (s : State) : Outcome := .next (residencyExpiry s)

end Sys2Proof.Machine
end

