-- ==== Sys2Proof/Machine/Settle.lean ====
section
/-! DEFINITION. Changes of the line state, the cancelling of a gauge verification, changes of the changeover
state, and what follows at an event that leaves both queues empty: the end of STOPPING (R18), then the
drain test (R90). -/

namespace Sys2Proof.Machine

open Sys2Proof

/-- A change of the line state with its notice (R17). -/
def lineTo (new : LineState) (cause : LineCause) (s : State) : State :=
  (s.setLtr { s.ltr with lineState := new }).raise (.lineState new s.ltr.lineState cause)

/-- A verification in flight is cancelled (R30): nothing is latched and the gauge status stays. -/
def gaugeCancel (cause : GaugeCause) (s : State) : State :=
  if verifying s then
    (s.setMsu { s.msu with verification := .idle, measured := [], origin := 0#32, barEndFrom := none }).raise
      (.gaugeResult .cancelled cause s.msu.measured.length 0)
  else s

/-- The end of STOPPING (R18): with both queues empty the line enters STOPPED and the cutter group goes to
OFF. -/
def endStopping (s : State) : State :=
  if s.ltr.lineState == .stopping && bothEmpty s then cutterOff .line (lineTo .stopped .drained s)
  else s

/-- A change of the changeover state with its notice, after the target and active set have changed
(R94). -/
def profileTo (new : Changeover) (cause : ProfileCause) (s : State) : State :=
  (s.setPfc { s.pfc with changeover := new }).raise
    (.profileState new s.pfc.changeover s.pfc.target s.pfc.active cause)

/-- The tooling limit of a set, in ms (R90, R93). -/
def toolingMs (s : State) (set : Option Nat) : Nat :=
  match set with
  | some k => match tabGet s.pfc.sets k with
    | some (some p) => p.toolingLimit * 1000
    | _ => 0
  | none => 0

/-- Bin b's bundle is closed for a changeover when it is OPEN with something allocated (R90). -/
def profileClose (s : State) (b : Nat) : State :=
  if (binAt s b).state == .opened && (binAt s b).bundle.allocated then closeRequest b .profile s else s

/-- The drain test (R90): in DRAINING with both queues empty the bundles are closed in ascending bin
number, the tooling request is asserted, the tooling timer starts and the state becomes TOOLING. -/
def drainTest (s : State) : State :=
  if s.pfc.changeover == .draining && bothEmpty s then
    let t := binNumbers.foldl profileClose s
    profileTo .tooling .drained
      (t.setPfc { t.pfc with toolingRequest := true, timer := some (toolingMs t t.pfc.target) })
  else s

/-- What follows the landing or removal of a piece (R18, R90, R114). -/
def afterPiece (s : State) : State := drainTest (endStopping s)

/-- What follows the removal of a strip record (R18, R106, R90; the place of the idle condition is log 12). -/
def afterStrip (s : State) : State := drainTest (idleTest (endStopping s))

end Sys2Proof.Machine
end

