-- ==== Sys2Proof/Machine/Planning.lean ====
section
/-! DEFINITION. The Plan Engine (chapters 3 and 4): scan records and their normalisation, the grading and
value tables, the grading of a candidate piece, the selection of a plan, its completion and the deadline. -/

namespace Sys2Proof.Machine

open Sys2Proof

/-! ## Strip records -/

/-- The state with the strip record of a tag changed. -/
def State.modStrip (s : State) (tag : Nat) (f : Strip → Strip) : State :=
  s.setLtr { s.ltr with strips := s.ltr.strips.map (fun r => if r.tag == tag then f r else r) }

/-! ## Normalisation (R37, R38) -/

/-- The first stage (R37): severity 0 dropped, severity held at 7, extent 0 held as 1. -/
def firstStage (ds : List Defect) : List Defect :=
  (ds.filter (fun d => d.severity != 0)).map
    (fun d => { d with severity := min d.severity 7, extent := max d.extent 1 })

/-- The second stage (R38): a defect starting at L or beyond is dropped, one ending beyond L ends at L. -/
def secondStage (l : Nat) (ds : List Defect) : List Defect :=
  (ds.filter (fun d => decide (d.start < l))).map
    (fun d => if l < d.start + d.extent then { d with extent := l - d.start } else d)

/-! ## Grading a candidate piece (R43 to R47) -/

/-- The overlap of a defect with [p, q), signed (R43). -/
def overlap (p q : Nat) (d : Defect) : Int :=
  (min q (d.start + d.extent) : Nat) - (max p d.start : Nat)

/-- The defects that count against [p, q) (R43). -/
def counting (p q : Nat) (ds : List Defect) : List Defect :=
  ds.filter (fun d => decide (0 < overlap p q d))

/-- The penalty sum S (R44). -/
def penalty (weights : List Nat) (p q : Nat) (ds : List Defect) : Nat :=
  ((counting p q ds).map (fun d => weights.getD d.kind 0 * d.severity * (overlap p q d).toNat)).sum

/-- The density D (R44), with n = q − p. -/
def density (weights : List Nat) (p q : Nat) (ds : List Defect) : Nat :=
  min 65535 (penalty weights p q ds * 100 / (q - p))

/-- A Grade Table row admits a piece (R45). -/
def rowAdmits (row : GradeRow) (p q dens : Nat) (ds : List Defect) : Bool :=
  (counting p q ds).all (fun d => decide (d.severity ≤ row.maxsev.getD d.kind 0))
    && decide (dens ≤ row.dlim)

/-- The grade of [p, q): the first row that admits it (R45). -/
def gradeOf (e : Ple) (p q : Nat) (ds : List Defect) : Option Nat :=
  (e.grades.findIdx? (fun row => rowAdmits row p q (density e.weights p q ds) ds)).map (· + 1)

/-- The length class of a net length: the highest whose bound is at most it (R46). -/
def classOf (bounds : List Nat) (n : Nat) : Option Nat :=
  let c := bounds.countP (fun b => decide (b ≤ n))
  if c = 0 then none else some c

/-! ## Boundaries and candidates (R51, R54 to R56) -/

/-- Lmin′ (R51). -/
def Snapshot.lminUsed (n : Snapshot) : Nat := if n.gauge == .suspect then n.lmin + n.margin else n.lmin

/-- Lmax′ (R51). -/
def Snapshot.lmaxUsed (n : Snapshot) : Nat := if n.gauge == .suspect then n.lmax - n.margin else n.lmax

/-- A number joins an ascending list without duplicates. -/
def insertPoint (x : Nat) : List Nat → List Nat
  | [] => [x]
  | y :: ys => if x < y then x :: y :: ys else if x = y then y :: ys else y :: insertPoint x ys

/-- The two points of a defect (R54 step 1). -/
def defectPoints (k : Nat) (d : Defect) : List Nat :=
  let l := d.start / 5 * 5
  [l, (max (d.start + d.extent) (l + k) + 4) / 5 * 5]

/-- The candidate boundaries B of a strip of length l (R54). -/
def boundaries (n : Snapshot) (l : Nat) (ds : List Defect) : List Nat :=
  let e := n.endTrim
  let extra := if n.lmaxUsed < l - 2 * e then [e + n.lmaxUsed, l - e - n.lmaxUsed] else []
  let raw := [e, l - e] ++ ds.flatMap (defectPoints n.allowance) ++ extra
  (raw.map (fun p => min (l - e) (max e p))).foldl (fun acc p => insertPoint p acc) []

/-- The order factor of a grade and class in a snapshot (R50, R56). -/
def Snapshot.factor (n : Snapshot) (g c : Nat) : Nat := (n.factors.getD (g - 1) []).getD (c - 1) 0

/-- val[g][c] of a snapshot's Value Table (R52). -/
def Snapshot.value (n : Snapshot) (g c : Nat) : Nat := n.values.getD (8 * (g - 1) + (c - 1)) 0

/-- The admissible candidate [p, q), with its grade, class and value, or none (R55, R56). -/
def candidate (e : Ple) (n : Snapshot) (ds : List Defect) (p q : Nat) : Option PlannedPiece :=
  let len := q - p
  if len < n.lminUsed || n.lmaxUsed < len then none
  else match gradeOf e p q ds, classOf e.bounds len with
    | some g, some c =>
      some { start := p, stop := q, net := len, grade := g, cls := c
             value := n.value g c * len * n.factor g c / 100000, line := none, created := false }
    | _, _ => none

/-! ## Selecting the plan (R57 to R59) -/

/-- A best record (R57). `pieces` is its trace, last piece first: SKIP keeps the trace of F(j − 1), a
choice i adds the piece to the trace of G(i), so it is the list that tracing the back-choices gives
(R59; log 22). -/
structure Best where
  value : Nat
  count : Nat
  length : Nat
  pieces : List PlannedPiece
  deriving DecidableEq, Repr

/-- The empty record (R57). -/
def Best.none : Best := { value := 0, count := 0, length := 0, pieces := [] }

/-- A record with a piece added (R57). -/
def Best.add (b : Best) (p : PlannedPiece) : Best :=
  { value := b.value + p.value, count := b.count + 1, length := b.length + p.net
    pieces := p :: b.pieces }

/-- One candidate record is better than another (R58). -/
def better (a b : Best) : Bool :=
  decide (b.value < a.value)
    || (a.value == b.value && decide (a.count < b.count))
    || (a.value == b.value && a.count == b.count && decide (b.length < a.length))

/-- The predecessor G(i) (R57): F(h) of the largest h with b_h ≤ b_i − K, or the empty record. -/
def predecessor (k : Nat) (bs : List Nat) (f : List Best) (bi : Nat) : Best :=
  match ((List.range bs.length).filter (fun h => decide (bs.getD h 0 + k ≤ bi))).getLast? with
  | some h => f.getD h Best.none
  | none => Best.none

/-- F(j) from F(0) … F(j − 1) (R57): SKIP first, then each admissible [b_i, b_j) for i ascending, each
replacing the current best only if better. -/
def bestAt (e : Ple) (n : Snapshot) (ds : List Defect) (bs : List Nat) (f : List Best) (j : Nat) : Best :=
  (List.range j).foldl (fun cur i =>
    match candidate e n ds (bs.getD i 0) (bs.getD j 0) with
    | none => cur
    | some p =>
      let c := (predecessor n.allowance bs f (bs.getD i 0)).add p
      if better c cur then c else cur)
    (f.getD (j - 1) Best.none)

/-- The best records F(0) … F(N − 1) (R57). -/
def bests (e : Ple) (n : Snapshot) (ds : List Defect) (bs : List Nat) : List Best :=
  (List.range (bs.length - 1)).foldl (fun f j => f ++ [bestAt e n ds bs f (j + 1)]) [Best.none]

/-- Piece a is kept before piece b (R59): higher value, or equal value and lower start. -/
def keptBefore (a b : PlannedPiece) : Bool :=
  decide (b.value < a.value) || (a.value == b.value && decide (a.start < b.start))

/-- The eight pieces of highest value, in ascending start (R59). -/
def keepEight (ps : List PlannedPiece) : List PlannedPiece :=
  ps.filter (fun p => decide (ps.countP (fun q => keptBefore q p) < Config.maxPieces))

/-- The pieces of the plan of a strip (R51, R54 to R59). -/
def selectPlan (e : Ple) (n : Snapshot) (l : Nat) (ds : List Defect) : List PlannedPiece :=
  if n.lmaxUsed < n.lminUsed || decide (l - 2 * n.endTrim < n.lminUsed) then []
  else keepEight ((bests e n ds (boundaries n l ds)).getLast?.getD Best.none).pieces.reverse

/-! ## The engine (R48 to R50, R60 to R63) -/

/-- The order factor of a key against the Order Table as it stands (R50, R56). -/
def orderFactor (s : State) (g c colour : Nat) : Nat :=
  match lookup s g c colour with
  | some k => if 0 < (lineAt s k).remaining then 100 else s.ple.options.overrunPct
  | none => s.ple.options.stockPct

/-- The snapshot for a strip record (R50). -/
def snapshotOf (s : State) (r : Strip) : Snapshot :=
  let p := match tabGet s.pfc.sets r.profile with
    | some (some p) => p
    | _ => { species := [], profileId := [], width := 0, thickness := 0, endTrim := 0, allowance := 0
             lmin := 0, lmax := 0, toolingLimit := 0 }
  let colour := (r.scan.map (·.colour)).getD 0
  { endTrim := p.endTrim, allowance := p.allowance, lmin := p.lmin, lmax := p.lmax
    gauge := s.msu.status, margin := s.ple.options.margin, values := s.ple.values
    stockPct := s.ple.options.stockPct, overrunPct := s.ple.options.overrunPct
    factors := (List.range s.ple.grades.length).map fun g =>
      (List.range s.ple.bounds.length).map fun c => orderFactor s (g + 1) (c + 1) colour }

/-- The engine, IDLE, takes up the oldest eligible record (R48, R49). -/
def takeUp (s : State) : State :=
  match s.ple.engine, (waitOrder s).head? with
  | none, some r =>
    (s.setPle { s.ple with engine := some { tag := r.tag, snapshot := snapshotOf s r } }).modStrip r.tag
      (fun x => { x with status := .computing })
  | _, _ => s

/-- A computation of a tag is abandoned and the engine takes up the next eligible strip (R61, R62). -/
def abandon (tag : Nat) (s : State) : State :=
  if (s.ple.engine.map (·.tag)) == some tag then takeUp (s.setPle { s.ple with engine := none }) else s

/-- The pieces of a plan given their order lines, each reserved before the next is looked up (R60). -/
def reservePieces (colour : Nat) : List PlannedPiece → State → State × List PlannedPiece
  | [], s => (s, [])
  | p :: ps, s =>
    let k := lookup s p.grade p.cls colour
    let r := reservePieces colour ps (reserve k p.net s)
    (r.1, { p with line := k } :: r.2)

/-- The completion's outcome written into the strip record (R60). -/
def writePlan (r : Strip) (n : Snapshot) (s : State) : State :=
  let scan := r.scan.getD { colour := 0, defects := [] }
  match selectPlan s.ple n (r.length.getD 0) scan.defects with
  | [] =>
    (s.setPle { s.ple with noYieldPlans := bump s.ple.noYieldPlans }).modStrip r.tag
      (fun x => { x with plan := some [], status := .uncut .noYield })
  | p :: ps =>
    let t := reservePieces scan.colour (p :: ps) s
    (t.1.setPle { t.1.ple with readyPlans := bump t.1.ple.readyPlans }).modStrip r.tag
      (fun x => { x with plan := some t.2, status := .ready })

/-- The completion of the computation in progress (R60), after which the engine is IDLE and takes up the
next eligible strip (R48). -/
def planCompletion (s : State) : State :=
  match s.ple.engine with
  | none => s
  | some c =>
    let t := s.setPle { s.ple with engine := none }
    match stripOf t c.tag with
    | none => takeUp t
    | some r => takeUp (writePlan r c.snapshot t)

/-- A deadline that changes the plan status (R61): the counter of the reason, PLAN_LATE, and the status. -/
def planLate (tag : Nat) (reason : UncutReason) (abandoned : Bool) (s : State) : State :=
  let e := s.ple
  let e' := match reason with
    | .noLength => { e with lateNoLength := bump e.lateNoLength }
    | .noScan => { e with lateNoScan := bump e.lateNoScan }
    | _ => { e with lateLate := bump e.lateLate }
  ((s.setPle e').modStrip tag (fun x => { x with status := .uncut reason })).raise
    (.planLate tag reason abandoned)

/-- The Plan Engine's action at the deadline of a strip (R61). -/
def deadlineAction (r : Strip) (s : State) : State :=
  match r.status with
  | .ready | .uncut _ => s
  | .computing => abandon r.tag (planLate r.tag .late true s)
  | .pending =>
    if r.length.isNone then planLate r.tag .noLength false s
    else if r.scan.isNone then planLate r.tag .noScan false s
    else planLate r.tag .late false s

/-- Delivery of the deadline of a strip (R13): once, when the trim position has reached it, not in
HALTED (R19). -/
def deliverDeadline (tag : Nat) (s : State) : State :=
  match stripOf s tag with
  | none => s
  | some r =>
    match r.deadline with
    | none => s
    | some d =>
      if s.ltr.lineState != .halted && !r.deadlineDone && reached s.ltr.trimPos d then
        deadlineAction r (s.modStrip tag (fun x => { x with deadlineDone := true }))
      else s

/-! ## Scan records (R33 to R36) -/

/-- Byte i of a scan record's payload as sent; a byte the payload is too short to hold is a free value
(log 6). -/
def sentByte (s : State) (payload : List Byte) (i : Nat) : Byte :=
  payload.getD i (Config.freeByte (s.free + i))

/-- A 2-byte integer of a payload. -/
def word2 (hi lo : Byte) : Nat := hi.toNat * 256 + lo.toNat

/-- The defects of a payload from offset 4 on, seven bytes each (section 12.6). -/
def readDefects : List Byte → List Defect
  | s1 :: s0 :: e1 :: e0 :: k :: v :: f :: rest =>
    { start := word2 s1 s0, extent := word2 e1 e0, kind := k.toNat, severity := v.toNat
      face := f.toNat } :: readDefects rest
  | _ => []

/-- A scan record is malformed (R34 check 1). -/
def malformed (payload : List Byte) : Bool :=
  match payload with
  | _ :: _ :: colour :: count :: rest =>
    decide (24 < count.toNat) || payload.length != 4 + 7 * count.toNat || decide (3 < colour.toNat)
      || (readDefects rest).any (fun d => decide (7 < d.kind) || decide (3 < d.face))
  | _ => true

/-- The fate of a scan record of a tag (R34 checks 2 to 4). -/
def scanFate (s : State) (tag : Nat) : Except DiscardReason Strip :=
  match stripOf s tag with
  | none => .error .unknownTag
  | some r =>
    if r.scan.isSome then .error .duplicate
    else if r.deadlineDone then .error .late
    else .ok r

/-- A scan record discarded (R35): the counter of the reason and the SCAN_DISCARD notice. -/
def scanDiscard (reason : DiscardReason) (tag count : Nat) (s : State) : State :=
  let e := s.ple
  let e' := match reason with
    | .malformed => { e with malformed := bump e.malformed }
    | .unknownTag => { e with unknownTag := bump e.unknownTag }
    | .duplicate => { e with duplicate := bump e.duplicate }
    | .late => { e with lateScans := bump e.lateScans }
  (s.setPle e').raise (.scanDiscard reason tag count)

/-- The scan attached at an acceptance (R36): after the first stage, and after the second when the length
is present. -/
def acceptedScan (r : Strip) (colour : Nat) (ds : List Defect) : Scan :=
  { colour := colour
    defects := match r.length with
      | some l => secondStage l (firstStage ds)
      | none => firstStage ds }

/-- The acceptance of a scan record (R36): the strip may become eligible (R49). -/
def scanAccept (r : Strip) (colour : Nat) (ds : List Defect) (s : State) : State :=
  takeUp (s.modStrip r.tag (fun x => { x with scan := some (acceptedScan r colour ds) }))

/-- The tag and the defect count of a payload as sent (R35). -/
def sentTag (s : State) (p : List Byte) : Nat := word2 (sentByte s p 0) (sentByte s p 1)

/-- A scan record handed to the Plan Engine (R33, R34). -/
def takeScanRecord (payload : List Byte) (s : State) : State :=
  let tag := sentTag s payload
  let count := (sentByte s payload 3).toNat
  if malformed payload then
    let t := scanDiscard .malformed tag count s
    if payload.length < 4 then { t with free := t.free + 4 } else t
  else
    match scanFate s tag with
    | .error reason => scanDiscard reason tag count s
    | .ok r => scanAccept r (sentByte s payload 2).toNat (readDefects (payload.drop 4)) s

/-! ## Requests -/

/-- In RUNNING or STOPPING a table of chapter 3 is refused (R39 to R41). -/
def refuseWatching (s : State) (rest : Answer) : Answer := refuseIf (watching s) .wrongState rest

/-- GRADE_SET by its owner (R39). -/
def gradeSet (count : Nat) (rows : List GradeRow) (s : State) : Answer :=
  refuseIf (rows.length != count || rows.any (fun r => r.name.length != 8 || r.maxsev.length != 8)) .badLength <|
  refuseHalted s <|
  refuseWatching s <|
  refuseIf (!gradesOk count rows) .badValue <|
  refuseIf (gradeInUseAbove s count) .inUse <|
  taken (s.setPle { s.ple with
    gradesLoaded := true, grades := rows.map (fun r => { r with name := textOf r.name }) }) []

/-- WEIGHT_SET by its owner (R40). DESIGN CHOICE (log 40): R40 names WRONG_STATE and BAD_VALUE without ordering them; the
line state is tested first, as R39 and R41 order it. -/
def weightSet (ws : List Nat) (s : State) : Answer :=
  refuseIf (ws.length != 8) .badLength <|
  refuseHalted s <|
  refuseWatching s <|
  refuseIf (!weightsOk ws) .badValue <|
  taken (s.setPle { s.ple with weights := ws }) []

/-- CLASS_SET by its owner (R41). -/
def classSet (count : Nat) (bounds : List Nat) (s : State) : Answer :=
  refuseIf (bounds.length != count) .badLength <|
  refuseHalted s <|
  refuseWatching s <|
  refuseIf (!classesOk count bounds) .badValue <|
  refuseIf (classInUseAbove s count) .inUse <|
  taken (s.setPle { s.ple with classesLoaded := true, bounds := bounds }) []

/-- GRADE_READ's data (R42). -/
def gradeReadData (s : State) : List Byte :=
  beFlag s.ple.gradesLoaded ++ beList gradeRowBytes s.ple.grades ++ s.ple.weights.flatMap be1
    ++ beFlag s.ple.classesLoaded ++ beList be2 s.ple.bounds
    ++ be2 s.ple.malformed ++ be2 s.ple.unknownTag ++ be2 s.ple.duplicate ++ be2 s.ple.lateScans

/-- VALUE_SET by its owner (R52). -/
def valueSet (vs : List Nat) (s : State) : Answer :=
  refuseIf (vs.length != 40) .badLength <|
  refuseHalted s <|
  refuseIf (!valuesOk vs) .badValue <|
  taken (s.setPle { s.ple with values := vs }) []

/-- PLAN_OPTIONS by its owner (R53). -/
def planOptions (o : PlanOptions) (s : State) : Answer :=
  refuseHalted s <|
  refuseIf (!planOptionsOk o) .badValue <|
  taken (s.setPle { s.ple with options := o }) []

/-- PLAN_READ's data (R64). DESIGN CHOICE (log 36): the tag under computation is 2 bytes, 0 when IDLE ("none is 0"),
with no flag before it; section 12.6 would allow it as an optional field too. -/
def planReadData (s : State) : List Byte :=
  be1 (if s.ple.engine.isSome then 1 else 0) ++ be2 ((s.ple.engine.map (·.tag)).getD 0)
    ++ be1 (waitOrder s).length ++ be2 (((waitOrder s).head?.map (·.tag)).getD 0)
    ++ s.ple.values.flatMap be2 ++ planOptionBytes s.ple.options
    ++ be2 s.ple.readyPlans ++ be2 s.ple.noYieldPlans ++ be2 s.ple.lateNoLength
    ++ be2 s.ple.lateNoScan ++ be2 s.ple.lateLate

/-- GRADE_SET (R39, R174). -/
def execGradeSet (tag : Byte) (count : Nat) (rows : List GradeRow) (s : State) : Outcome :=
  .next (request 0x20#8 tag (gradeSet count rows) s)

/-- WEIGHT_SET (R40, R174). -/
def execWeightSet (tag : Byte) (ws : List Nat) (s : State) : Outcome :=
  .next (request 0x21#8 tag (weightSet ws) s)

/-- CLASS_SET (R41, R174). -/
def execClassSet (tag : Byte) (count : Nat) (bounds : List Nat) (s : State) : Outcome :=
  .next (request 0x22#8 tag (classSet count bounds) s)

/-- GRADE_READ (R42, R174). -/
def execGradeRead (tag : Byte) (s : State) : Outcome :=
  .next (request 0x23#8 tag (fun s => taken s (gradeReadData s)) s)

/-- VALUE_SET (R52, R174). -/
def execValueSet (tag : Byte) (vs : List Nat) (s : State) : Outcome :=
  .next (request 0x28#8 tag (valueSet vs) s)

/-- PLAN_OPTIONS (R53, R174). -/
def execPlanOptions (tag : Byte) (o : PlanOptions) (s : State) : Outcome :=
  .next (request 0x29#8 tag (planOptions o) s)

/-- PLAN_READ (R64, R174). -/
def execPlanRead (tag : Byte) (s : State) : Outcome :=
  .next (request 0x2A#8 tag (fun s => taken s (planReadData s)) s)

/-- PLAN_COMPLETION (R60). -/
def execPlanCompletion (s : State) : Outcome := .next (planCompletion s)

/-- DEADLINE (R13, R61). -/
def execDeadline (tag : Nat) (s : State) : Outcome := .next (deliverDeadline tag s)

/-- SCAN_RECORD (R34, R184): the records received counter rises and the payload is handed to the Plan
Engine. -/
def scanRecordReceived (payload : List Byte) (s : State) : State :=
  takeScanRecord payload (s.setLif { s.lif with scanRecords := bump s.lif.scanRecords })

/-- SCAN_RECORD (R33, R34, R184). -/
def execScanRecord (payload : List Byte) (s : State) : Outcome := .next (scanRecordReceived payload s)

end Sys2Proof.Machine
end

