-- ==== Sys2Proof/Machine/Strips.lean ====
section
/-! DEFINITION. Strip records in the Strip Tracking Queue (chapter 1): their allocation, their windows and
deadline, their removal, and the expiry of a window. -/

namespace Sys2Proof.Machine

open Sys2Proof

/-- A window from its opening to its closing position, with whether the opening is reached (R6). -/
def windowFrom (now opensAt closesAt : Pos) : Window :=
  { opensAt := opensAt, closesAt := closesAt, reached := reached now opensAt }

/-- The scan window set up from a leading-edge position (R6). -/
def scanWindow (s : State) (p : Pos) : Window :=
  let g := s.ltr.geometry
  windowFrom s.ltr.trimPos (p + umOfMm (g.dScan - g.eyeTol)) (p + umOfMm (g.dScan + g.eyeTol))

/-- The saw window set up from a leading-edge position (R6). -/
def sawWindow (s : State) (p : Pos) : Window :=
  let g := s.ltr.geometry
  windowFrom s.ltr.trimPos (p + umOfMm (g.dSaw - g.eyeTol)) (p + umOfMm (g.dSaw + g.eyeTol))

/-- The deadline position (R13). -/
def deadlinePos (s : State) (p : Pos) : Pos :=
  p + umOfMm (s.ltr.geometry.dSaw - s.ltr.geometry.planLead)

/-- The record allocated at a feed event (R7), with its measure window (R6). -/
def fedStrip (s : State) : Strip :=
  { tag := s.ltr.nextTag, profile := s.pfc.active.getD 0, phase := .fed, leadPos := none
    length := none, announced := false, scan := none, status := .pending, plan := none, stray := false
    measureWin := some (windowFrom s.ltr.trimPos s.ltr.trimPos
      (s.ltr.trimPos + umOfMm s.ltr.geometry.feedWindow))
    scanWin := none, sawWin := none, deadline := none, deadlineDone := false }

/-- What a leading edge at the measure eye sets up in a record, matched (R8) or given (R8): the
leading-edge position, the scan and saw windows and the deadline position. -/
def measured (s : State) (r : Strip) : Strip :=
  let p := s.ltr.trimPos
  { r with phase := .measuring, leadPos := some p, measureWin := none
           scanWin := some (scanWindow s p), sawWin := some (sawWindow s p)
           deadline := some (deadlinePos s p) }

/-- The record given to a stray at the measure eye (R8). -/
def strayStrip (s : State) : Strip :=
  measured s { fedStrip s with status := .uncut .stray, stray := true }

/-- A record allocated at the queue's tail takes the next tag (R1, R3). -/
def allocateStrip (r : Strip) (s : State) : State :=
  s.setLtr { s.ltr with strips := s.ltr.strips ++ [r], nextTag := tagAfter s.ltr.nextTag }

/-- A holder that named a removed record becomes none (R12). -/
def dropHolder (tag : Nat) (h : Option Nat) : Option Nat := if h == some tag then none else h

/-- A record leaves the queue, with its cut list and every eye holder that named it (R1, R12; R103: no cut
list outlives its record). Its windows and deadline position go with it. -/
def forgetStrip (tag : Nat) (s : State) : State :=
  let h := s.ltr.holder
  let t := s.setLtr { s.ltr with
    strips := s.ltr.strips.filter (fun r => r.tag != tag)
    holder := { measure := dropHolder tag h.measure, scan := dropHolder tag h.scan
                saw := dropHolder tag h.saw } }
  t.setTsc { t.tsc with cutLists := t.tsc.cutLists.filter (fun c => c.tag != tag) }

/-- The reservations of the planned pieces not yet created are released (R74, R12, R14, R22). -/
def releasePlan (r : Strip) (s : State) : State :=
  if r.status == .ready then
    (r.plan.getD []).foldl (fun s p => if p.created then s else release p.line p.net s) s
  else s

/-- A strip record is removed, missing or done at the saw: its reservations are released, a computation
of it is abandoned, and what follows the removal follows (R12, R14, R62). DESIGN CHOICE (log 37): no rule orders
the ORDER_DONE notices of the releases against the LINE_STATE, CUTTER_STATE and PROFILE_STATE notices of the same
removal; the releases come first. -/
def removeStrip (r : Strip) (s : State) : State :=
  afterStrip (abandon r.tag (releasePlan r (forgetStrip r.tag s)))

/-- Expiry of a record's window at an eye (R12): once its closing position is exceeded, not in HALTED
(R19). -/
def windowExpiry (e : TrimEye) (tag : Nat) (s : State) : State :=
  match stripOf s tag with
  | none => s
  | some r =>
    match r.window e with
    | none => s
    | some w =>
      if s.ltr.lineState != .halted && exceeded s.ltr.trimPos w.closesAt then
        let t := s.setLtr { s.ltr with missing := s.ltr.missing.put e (bump (s.ltr.missing.get e)) }
        removeStrip r (t.raise (.stripLost tag (eyeOf e) r.status))
      else s

/-- A window's opening is noted when the trim position reaches it (R6, log 16). -/
def noteReached (now : Pos) (w : Option Window) : Option Window :=
  w.map (fun w => { w with reached := w.reached || reached now w.opensAt })

/-- The windows of a record with the openings reached noted. -/
def Strip.noteWindows (now : Pos) (r : Strip) : Strip :=
  { r with measureWin := noteReached now r.measureWin, scanWin := noteReached now r.scanWin
           sawWin := noteReached now r.sawWin }

/-- WINDOW_EXPIRY (R12). -/
def execWindowExpiry (e : TrimEye) (tag : Nat) (s : State) : Outcome := .next (windowExpiry e tag s)

end Sys2Proof.Machine
end

