-- ==== Sys2Proof/Machine/Sorting.lean ====
section
/-! DEFINITION. The Sort Controller (chapter 8): the Piece Sort Queue, the drop eye, the bin search, bin 0,
the diverters and landing. -/

namespace Sys2Proof.Machine

open Sys2Proof

/-! ## The Piece Sort Queue (R114 to R117) -/

/-- An entry names a strip tag and piece index (R114). -/
def Piece.named (p : Piece) (tag index : Nat) : Bool := p.tag == tag && p.index == index

/-- The state with the entry of a tag and index changed. -/
def State.modPiece (s : State) (tag index : Nat) (f : Piece → Piece) : State :=
  s.setSrt { s.srt with pieces := s.srt.pieces.map (fun p => if p.named tag index then f p else p) }

/-- The entry of a tag and index leaves the queue (R114). -/
def dropPiece (tag index : Nat) (s : State) : State :=
  s.setSrt { s.srt with pieces := s.srt.pieces.filter (fun p => !p.named tag index) }

/-- The bin 0 total grows (R123). -/
def addBin0 (n : Nat) (s : State) : State :=
  s.setSrt { s.srt with bin0Total := addTotal s.srt.bin0Total n }

/-- The creation of a piece (R116): entered at the tail as EXPECTED, or, with 64 entries held, not entered,
its reservation released and the piece counted as SORT_FULL. -/
def enterPiece (p : Piece) (s : State) : State :=
  if s.srt.pieces.length < Config.pieceCapacity then
    s.setSrt { s.srt with pieces := s.srt.pieces ++
      [{ p with place := .expected (s.srt.pos + umOfMm s.srt.settings.dropWindow) }] }
  else
    let t := release p.line p.net s
    addBin0 p.net (t.setSrt { t.srt with sortFull := bump t.srt.sortFull })

/-- The slip check marks every EXPECTED entry of a tag FORCE_BIN0 (R117). -/
def markForced (tag : Nat) (s : State) : State :=
  s.setSrt { s.srt with pieces := s.srt.pieces.map (fun p =>
    if p.tag == tag && p.isExpected then { p with force := true } else p) }

/-- How many entries of a tag are EXPECTED (R117). -/
def expectedCount (s : State) (tag : Nat) : Nat :=
  s.srt.pieces.countP (fun p => p.tag == tag && p.isExpected)

/-- How many entries of a tag are ASSIGNED (R117). -/
def assignedCount (s : State) (tag : Nat) : Nat :=
  s.srt.pieces.countP (fun p => p.tag == tag && !p.isExpected)

/-! ## Bins (R121 to R124) -/

/-- A piece matches a bin sort entry (R121). -/
def matchesEntry (e : SortEntry) (p : Piece) : Bool :=
  (e.grade == .any || e.grade == .only p.grade) && (e.colour == .any || e.colour == .only p.colour)
    && inClassSet e.classSet p.cls

/-- The bins tested in ascending order (R122 step 3): each OPEN bin that matches is offered the piece, and
the first that accepts is its bin. -/
def searchBins (p : Piece) : List Nat → State → State × Option Nat
  | [], s => (s, none)
  | b :: bs, s =>
    if (binAt s b).state == .opened && matchesEntry (entryAt s b) p then
      let r := offer (binAt s b) p.net p.profile (tallyKey s p.line)
      let t := s.modBin b (fun _ => r.1)
      if r.2 then (t, some b) else searchBins p bs t
    else searchBins p bs s

/-- Reasons of a bin 0 outcome (R122). -/
inductive Bin0Reason where
  | forced | grade0 | noBin
  deriving DecidableEq, Repr

/-- The bin 0 counter of a reason rises (R123). -/
def countBin0 (r : Bin0Reason) (s : State) : State :=
  match r with
  | .forced => s.setSrt { s.srt with forced := bump s.srt.forced }
  | .grade0 => s.setSrt { s.srt with grade0 := bump s.srt.grade0 }
  | .noBin => s.setSrt { s.srt with noBin := bump s.srt.noBin }

/-- A bin 0 outcome (R123): release, counter and total, removal, and what follows the removal (R114). -/
def toBin0 (r : Bin0Reason) (p : Piece) (s : State) : State :=
  afterPiece (dropPiece p.tag p.index (addBin0 p.net (countBin0 r (release p.line p.net s))))

/-- A bin 1 to 14 outcome (R124): ASSIGNED with its fire position and counted as incoming; then the FULL
test (R135). -/
def assign (b : Nat) (p : Piece) (s : State) : State :=
  let e := entryAt s b
  let t := s.modPiece p.tag p.index (fun p =>
    { p with place := .assigned b s.srt.pos (s.srt.pos + umOfMm (e.offset - e.lead)) })
  let u := t.modBin b (fun x => { x with incoming := x.incoming + 1 })
  if bundleFull (binAt u b) then closeRequest b .full u else u

/-- The bin search of a matched entry, one event with the matching (R122). -/
def binSearch (p : Piece) (s : State) : State :=
  if p.force then toBin0 .forced p s
  else if p.grade = 0 then toBin0 .grade0 p s
  else
    match searchBins p binNumbers s with
    | (t, some b) => assign b p t
    | (t, none) => toBin0 .noBin p t

/-- A leading edge taken at the drop eye (R119): matched to the oldest EXPECTED entry, or a stray. -/
def dropLead (s : State) : State :=
  match dropPointer s with
  | some p => binSearch p s
  | none => (s.setSrt { s.srt with dropStrays := bump s.srt.dropStrays }).raise (.stray .drop s.srt.pos 0)

/-- A change of the drop eye's input (R118): in STOPPED the level follows, in HALTED it holds, otherwise the
level follows and the edge is taken. -/
def dropEdge (blocked : Bool) (s : State) : State :=
  if s.pins.drop == blocked then s
  else
    let t := s.setPins { s.pins with drop := blocked }
    match t.ltr.lineState with
    | .halted => t
    | .stopped => t.setSrt { t.srt with level := blocked }
    | _ =>
      let u := t.setSrt { t.srt with level := blocked }
      if blocked then dropLead u else u

/-- Expiry of an EXPECTED entry's window (R120): once its closing position is exceeded, not in HALTED
(R112). -/
def dropExpiry (tag index : Nat) (s : State) : State :=
  match pieceOf s tag index with
  | none => s
  | some p =>
    match p.place with
    | .assigned .. => s
    | .expected c =>
      if s.ltr.lineState != .halted && exceeded s.srt.pos c then
        let t := s.setSrt { s.srt with missing := bump s.srt.missing }
        let u := (release p.line p.net t).raise
          (.pieceLost p.tag p.index p.net p.grade (p.line.getD 0) p.force)
        afterPiece (dropPiece tag index u)
      else s

/-! ## Landing (R125, R126) -/

/-- The landing of a piece in its bin (R126), and what follows it. -/
def land (b : Nat) (p : Piece) (s : State) : State :=
  let s1 := (dropPiece p.tag p.index s).modBin b (fun x => { x with incoming := x.incoming - 1 })
  let s2 := credit p.line p.net s1
  let s3 := s2.modBin b (landIn p.net p.grade p.cls p.colour (tallyKey s2 p.line))
  afterPiece (settlePending b s3)

/-- The firing of an ASSIGNED entry's diverter (R125): once its fire position is reached, not in HALTED
(R112); the piece lands at it. -/
def diverterFire (tag index : Nat) (s : State) : State :=
  match pieceOf s tag index with
  | none => s
  | some p =>
    match p.place with
    | .expected _ => s
    | .assigned b _ fireAt =>
      if s.ltr.lineState != .halted && reached s.srt.pos fireAt then
        let pulseMs := (entryAt s b).pulse
        land b p (s.setSrt { s.srt with
          diverters := tabMod s.srt.diverters b (fun _ => some pulseMs), firings := bump s.srt.firings })
      else s

/-- A piece discarded by LINE_CLEAR (R22): its reservation is released, its bin's incoming count falls, and
a bin in CLOSE_PENDING left with 0 passes to CLOSING at this removal. -/
def clearPiece (s : State) (p : Piece) : State :=
  let t := dropPiece p.tag p.index (release p.line p.net s)
  match p.place with
  | .expected _ => t
  | .assigned b _ _ => settlePending b (t.modBin b (fun x => { x with incoming := x.incoming - 1 }))

/-! ## Requests and events -/

/-- SORT_SET by its owner (R113). DESIGN CHOICE (log 41): a new drop_window holds from this event on, for pieces created
before the reply too. -/
def sortSet (n : SortSettings) (s : State) : Answer :=
  refuseHalted s <|
  refuseIf (!sortOk n) .badValue <|
  refuseIf (watching s && n.scale != s.srt.settings.scale) .wrongState <|
  taken (s.setSrt { s.srt with settings := n }) []

/-- A piece entry as SORT_READ gives it (R115, R127). -/
def pieceBytes (p : Piece) : List Byte :=
  be2 p.tag ++ be1 p.index ++ be2 p.start ++ be2 p.stop ++ be2 p.net ++ be1 p.grade ++ be1 p.cls
    ++ be2 p.value ++ be1 (p.line.getD 0) ++ be1 p.colour ++ be1 p.profile ++ beFlag p.force
    ++ match p.place with
      | .expected c => be1 0 ++ beOpt 4 bePos (some c) ++ beOpt 1 be1 none ++ beOpt 4 bePos none
          ++ beOpt 4 bePos none
      | .assigned b d f => be1 1 ++ beOpt 4 bePos none ++ beOpt 1 be1 (some b) ++ beOpt 4 bePos (some d)
          ++ beOpt 4 bePos (some f)

/-- SORT_READ's data (R127). DESIGN CHOICE (log 36): each diverter output gives one byte, its level, which is also
the flag of its remaining time, then that time in 2 bytes (0 when not driven), output by output; R127 does not say
whether levels and times are interleaved, nor whether the level serves as the flag. -/
def sortReadData (s : State) : List Byte :=
  bePos s.srt.pos ++ sortBytes s.srt.settings ++ beFlag s.srt.level
    ++ (match dropPointer s with | some p => be2 p.tag ++ be1 p.index | none => be2 0 ++ be1 0)
    ++ be1 (pieceFree s) ++ beList pieceBytes s.srt.pieces
    ++ s.srt.entries.toList.flatMap sortEntryBytes
    ++ s.srt.diverters.toList.flatMap (fun d => beFlag d.isSome ++ be2 (d.getD 0))
    ++ be2 s.srt.dropStrays ++ be2 s.srt.missing ++ be2 s.srt.firings
    ++ be2 s.srt.forced ++ be2 s.srt.grade0 ++ be2 s.srt.noBin ++ be2 s.srt.sortFull
    ++ be4 s.srt.bin0Total

/-- SORT_SET (R113, R174). -/
def execSortSet (tag : Byte) (n : SortSettings) (s : State) : Outcome :=
  .next (request 0x54#8 tag (sortSet n) s)

/-- SORT_READ (R127, R174). -/
def execSortRead (tag : Byte) (s : State) : Outcome :=
  .next (request 0x55#8 tag (fun s => taken s (sortReadData s)) s)

/-- DROP_LEADING_EDGE (R118, R119). -/
def execDropLeadingEdge (s : State) : Outcome := .next (dropEdge true s)

/-- DROP_TRAILING_EDGE (R118). -/
def execDropTrailingEdge (s : State) : Outcome := .next (dropEdge false s)

/-- DROP_WINDOW_EXPIRY (R120). -/
def execDropWindowExpiry (tag index : Nat) (s : State) : Outcome := .next (dropExpiry tag index s)

/-- DIVERTER_FIRE (R125, R126). -/
def execDiverterFire (tag index : Nat) (s : State) : Outcome := .next (diverterFire tag index s)

/-- DIVERTER_PULSE_END (R125): the output drops at the end of the pulse time. -/
def execDiverterPulseEnd (b : Nat) (s : State) : Outcome :=
  .next (s.setSrt { s.srt with diverters := tabMod s.srt.diverters b (fun _ => none) })

end Sys2Proof.Machine
end

