-- ==== Sys2Proof/Machine/Trim.lean ====
section
/-! DEFINITION. The Trim Station Controller's cut lists (chapter 7): their set-up, the cuts falling due, the
creation of pieces, the trailing edge with the slip check, and the end of a strip at the saw. -/

namespace Sys2Proof.Machine

open Sys2Proof

/-! ## Cut lists (R97) -/

/-- The cut list in execution of a tag. -/
def cutListOf (s : State) (tag : Nat) : Option CutList := s.tsc.cutLists.find? (fun c => c.tag == tag)

/-- The state with the cut list of a tag changed. -/
def State.modCuts (s : State) (tag : Nat) (f : CutList → CutList) : State :=
  s.setTsc { s.tsc with cutLists := s.tsc.cutLists.map (fun c => if c.tag == tag then f c else c) }

/-- The cut positions of a plan on a strip of length l (R97): the distinct starts and ends, ascending, less
0 and l. -/
def cutPositions (l : Nat) (plan : List PlannedPiece) : List Nat :=
  ((plan.flatMap fun p => [p.start, p.stop]).foldl (fun acc x => insertPoint x acc) []).filter
    (fun x => x != 0 && x != l)

/-- The fire position of a cut at x (R97). -/
def fireAt (p0 : Pos) (t : TrimSettings) (x : Nat) : Pos := p0 + umOfMm (t.sawDistance + x - t.sawLead)

/-- The cut list set up at a matched saw leading edge (R97): the cuts of a READY plan, none otherwise (log 17). -/
def newCutList (s : State) (r : Strip) : CutList :=
  let plan := r.plan.getD []
  { tag := r.tag, p0 := s.ltr.trimPos, status := r.status, plan := plan
    cuts := (if r.status == .ready then cutPositions (r.length.getD 0) plan else []).map
      (fun x => { x := x, fireAt := fireAt s.ltr.trimPos s.tsc.trim x, state := .pending })
    lastMade := 0, trailSeen := false, length2 := none, slip := .unchecked }

/-- A strip's cut list joins those in execution (R97). -/
def cutListSetup (r : Strip) (s : State) : State :=
  s.setTsc { s.tsc with cutLists := s.tsc.cutLists ++ [newCutList s r] }

/-- A cut of the list has been MISSED. -/
def CutList.anyMissed (c : CutList) : Bool := c.cuts.any (fun k => k.state == .missed)

/-- A cut of the list is PENDING. -/
def CutList.anyPending (c : CutList) : Bool := c.cuts.any (fun k => k.state == .pending)

/-- The cut at x is MADE. -/
def CutList.madeAt (c : CutList) (x : Nat) : Bool := c.cuts.any (fun k => k.x == x && k.state == .made)

/-- The first PENDING cut of a list: fire positions ascend with x, so it is the next to fall due. -/
def CutList.nextCut (c : CutList) : Option Cut := c.cuts.find? (fun k => k.state == .pending)

/-! ## Pieces (R99, R100) -/

/-- The pieces created counter rises (R99). -/
def countCreated (s : State) : State := s.setTsc { s.tsc with created := bump s.tsc.created }

/-- Piece i of a plan (counted from 0) is marked created. -/
def markCreated (i : Nat) (r : Strip) : Strip :=
  { r with plan := r.plan.map (fun ps => ps.modify i (fun p => { p with created := true })) }

/-- The piece handed to the Sort Controller for planned piece i (counted from 0) of a strip (R99). -/
def plannedPiece (c : CutList) (r : Strip) (i : Nat) (p : PlannedPiece) : Piece :=
  { tag := r.tag, index := i + 1, start := p.start, stop := p.stop, net := p.net, grade := p.grade
    cls := p.cls, value := p.value, line := p.line, colour := (r.scan.map (·.colour)).getD 0
    profile := r.profile, force := c.slip == .slip, place := .expected 0#32 }

/-- The creation of planned piece i (counted from 0) of a strip (R99), once. -/
def createPlanned (c : CutList) (r : Strip) (i : Nat) (s : State) : State :=
  match (r.plan.getD [])[i]? with
  | none => s
  | some p =>
    if p.created then s
    else enterPiece (plannedPiece c r i p) (countCreated (s.modStrip r.tag (markCreated i)))

/-- The uncut piece of a strip (R100), from the last made cut to Lref. -/
def uncutPiece (c : CutList) (r : Strip) : Piece :=
  let lref := r.length.getD (c.length2.getD 0)
  { tag := r.tag, index := 0, start := c.lastMade, stop := lref, net := lref - c.lastMade, grade := 0
    cls := 0, value := 0, line := none, colour := (r.scan.map (·.colour)).getD 0
    profile := r.profile, force := c.slip == .slip, place := .expected 0#32 }

/-- The creation of the uncut piece (R100). -/
def createUncut (c : CutList) (r : Strip) (s : State) : State :=
  enterPiece (uncutPiece c r) (countCreated s)

/-- The place of the planned piece whose end is x, if there is one. -/
def pieceEndingAt (c : CutList) (x : Nat) : Option Nat := c.plan.findIdx? (fun p => p.stop == x)

/-- The planned piece whose end is the strip's length and that no missed cut bars, when its start is cut or
is the leading end (R99, R101 step 1). -/
def pieceAtEnd (c : CutList) (r : Strip) : Option Nat :=
  match r.length with
  | none => none
  | some l => c.plan.findIdx? (fun p =>
      p.stop == l && !c.anyMissed && (p.start == 0 || c.madeAt p.start))

/-- The creation of the planned piece at a place, if there is one. -/
def createAt (i : Option Nat) (c : CutList) (r : Strip) (s : State) : State :=
  match i with
  | none => s
  | some i => createPlanned c r i s

/-! ## The end of a strip at the saw (R102, R14) -/

/-- A strip is done at the saw when its trailing edge has been seen and no cut is PENDING: its record goes,
and the cut list with it. -/
def doneTest (tag : Nat) (s : State) : State :=
  match cutListOf s tag, stripOf s tag with
  | some c, some r => if c.trailSeen && !c.anyPending then removeStrip r s else s
  | _, _ => s

/-! ## Cuts falling due (R98) -/

/-- The list with its cut at x MADE. -/
def CutList.make (x : Nat) (c : CutList) : CutList :=
  { c with lastMade := x, cuts := c.cuts.map (fun k => if k.x == x then { k with state := .made } else k) }

/-- The list with its cut at x MISSED and every other PENDING cut CANCELLED. -/
def CutList.miss (x : Nat) (c : CutList) : CutList :=
  { c with cuts := c.cuts.map (fun k =>
      if k.x == x then { k with state := .missed }
      else if k.state == .pending then { k with state := .cancelled } else k) }

/-- A cut MADE (R98): the saw fires, and the pieces due at this cut are created (R99): the one ending here,
then, once the trailing edge has been seen, the one running from here to the strip's end. -/
def cutMade (c : CutList) (x : Nat) (r : Strip) (s : State) : State :=
  let c' := c.make x
  let t := s.setTsc { s.tsc with sawPulse := some s.tsc.trim.sawPulse, sawFires := bump s.tsc.sawFires }
  let u := createAt (pieceEndingAt c' x) c' r (t.modCuts c.tag (CutList.make x))
  if c.trailSeen then createAt (pieceAtEnd c' r) c' r u else u

/-- A cut MISSED (R98): the rest is cancelled, and the remainder is created at once if the trailing edge has
been seen (R100). -/
def cutMissed (c : CutList) (x : Nat) (r : Strip) (s : State) : State :=
  let t := s.setTsc { s.tsc with missedCuts := bump s.tsc.missedCuts }
  let u := t.modCuts c.tag (CutList.miss x)
  if c.trailSeen then createUncut (c.miss x) r u else u

/-- The next cut of a tag's list falls due (R98): when its fire position is reached, not in HALTED. -/
def cutDue (tag : Nat) (s : State) : State :=
  match cutListOf s tag, stripOf s tag with
  | some c, some r =>
    match c.nextCut with
    | none => s
    | some k =>
      if s.ltr.lineState != .halted && reached s.ltr.trimPos k.fireAt then
        doneTest tag (if s.tsc.cutter == .run then cutMade c k.x r s else cutMissed c k.x r s)
      else s
  | _, _ => s

/-! ## The trailing edge (R101) -/

/-- A length in mm of a distance in µm with a compensation, held within 1 to 65,535 (R24, R101). -/
def lengthOf (delta comp : Int) : Nat := (min 65535 (max 1 ((delta + comp + 500) / 1000))).toNat

/-- The piece due at the trailing edge (R101 step 1). -/
def trailCreation (c : CutList) (r : Strip) (s : State) : State :=
  if c.status != .ready || c.anyMissed then createUncut c r s else createAt (pieceAtEnd c r) c r s

/-- The lengths l and l2 disagree by more than the tolerance (R101 step 2). -/
def slipped (t : TrimSettings) (l l2 : Nat) : Bool :=
  decide (t.slipTol < (if l ≤ l2 then l2 - l else l - l2))

/-- The slip check (R101 step 2): not made while the length is absent. -/
def slipCheck (r : Strip) (l2 : Nat) (s : State) : State :=
  match r.length with
  | none => s
  | some l =>
    if slipped s.tsc.trim l l2 then
      let t := s.modCuts r.tag (fun c => { c with slip := .slip })
      let u := markForced r.tag (t.setTsc { t.tsc with slipped := bump t.tsc.slipped })
      u.raise (.stripSlip r.tag l l2 (expectedCount t r.tag) (assignedCount t r.tag))
    else s.modCuts r.tag (fun c => { c with slip := .pass })

/-- The trailing edge of a strip at the saw eye (R101). -/
def sawTrail (r : Strip) (s : State) : State :=
  match cutListOf s r.tag with
  | none => s
  | some c =>
    let l2 := lengthOf (signedDiff s.ltr.trimPos c.p0) s.tsc.trim.sawComp
    let seen : CutList → CutList := fun c => { c with trailSeen := true, length2 := some l2 }
    doneTest r.tag (slipCheck r l2 (trailCreation (seen c) r (s.modCuts r.tag seen)))

/-! ## Requests and events -/

/-- TRIM_SET by its owner (R96). -/
def trimSet (t : TrimSettings) (s : State) : Answer :=
  refuseHalted s <|
  refuseIf (!trimOk t) .badValue <|
  taken (s.setTsc { s.tsc with trim := t }) []

/-- A cut as TRIM_READ gives it (R111). -/
def cutBytes (k : Cut) : List Byte := be2 k.x ++ bePos k.fireAt ++ be1 k.state.code

/-- A cut list as TRIM_READ gives it (R111). -/
def cutListBytes (c : CutList) : List Byte :=
  be2 c.tag ++ bePos c.p0 ++ beList cutBytes c.cuts ++ be2 c.lastMade ++ beFlag c.trailSeen
    ++ beOpt 2 be2 c.length2 ++ be1 c.slip.code

/-- TRIM_READ's data (R111). -/
def trimReadData (s : State) : List Byte :=
  let t := s.tsc
  trimBytes t.trim ++ headsBytes t.heads ++ be4 t.travelMs ++ be1 t.cutter.code ++ beFlag t.wake
    ++ be2 (t.spinTimer.getD 0) ++ be4 (t.hystTimer.getD 0) ++ be4 (t.residTimer.getD 0)
    ++ beFlag t.sawPulse.isSome ++ beFlag t.runOutput ++ beList cutListBytes t.cutLists
    ++ be2 t.sawFires ++ be2 t.created ++ be2 t.missedCuts ++ be2 t.slipped ++ be2 t.standbys
    ++ be2 t.spinUps

/-- TRIM_SET (R96, R174). -/
def execTrimSet (tag : Byte) (t : TrimSettings) (s : State) : Outcome :=
  .next (request 0x50#8 tag (trimSet t) s)

/-- TRIM_READ (R111, R174). -/
def execTrimRead (tag : Byte) (s : State) : Outcome :=
  .next (request 0x52#8 tag (fun s => taken s (trimReadData s)) s)

/-- CUT_DUE (R98). -/
def execCutDue (tag : Nat) (s : State) : Outcome := .next (cutDue tag s)

/-- SAW_PULSE_END (R98): the saw fire output drops at the end of the pulse time. -/
def execSawPulseEnd (s : State) : Outcome := .next (s.setTsc { s.tsc with sawPulse := none })

end Sys2Proof.Machine
end

