-- ==== Sys2Proof/Machine/Measure.lean ====
section
/-! DEFINITION. The Measure Unit (chapter 2): the length of a strip, the gauge reference table and the gauge
verification. -/

namespace Sys2Proof.Machine

open Sys2Proof

/-! ## Length of a strip (R24, R25) -/

/-- A written length is in range (R25). -/
def lengthInRange (l : Nat) : Bool := within 150 3000 l

/-- The plan status after a length is written (R25). -/
def statusAfterLength (l : Nat) (p : PlanStatus) : PlanStatus :=
  if p == .pending && !lengthInRange l then .uncut .outOfRange else p

/-- The record with its length written: a scan already attached passes the second stage (R38), and the
plan status follows R25. -/
def withLength (l : Nat) (r : Strip) : Strip :=
  { r with length := some l
           scan := r.scan.map (fun c => { c with defects := secondStage l c.defects })
           status := statusAfterLength l r.status }

/-- The length computed at a trailing edge at the measure eye and its disposition (R24, R25), once for a
record; the strip may become eligible (R49). -/
def lengthWrite (r : Strip) (s : State) : State :=
  match r.length, r.leadPos with
  | none, some p =>
    takeUp (s.modStrip r.tag (withLength (lengthOf (signedDiff s.ltr.trimPos p) s.msu.comp)))
  | _, _ => s

/-! ## Verification (R27 to R31) -/

/-- The deviation of a mark (R29 step 2): none while it was not seen. -/
def deviationOf (m : Msu) (k : Nat) : Option Int := m.measured[k]?.map (fun v => v - (m.marks.getD k 0 : Nat))

/-- The flag of a mark (R29 step 1): not seen, or further than T from its reference. -/
def flagOfMark (m : Msu) (k : Nat) : Bool :=
  match deviationOf m k with
  | none => true
  | some d => decide ((m.tolerance : Int) < |d|)

/-- The latched result of a verification (R29). -/
def resultOf (m : Msu) (cause : GaugeCause) : GaugeResult :=
  { flags := (List.range 32).map (flagOfMark m), deviations := (List.range 32).map (deviationOf m)
    markCount := m.measured.length, cause := cause, tolerance := m.tolerance, origin := m.origin }

/-- How many flags of a result are set. -/
def GaugeResult.flagCount (r : GaugeResult) : Nat := r.flags.countP id

/-- The end of a verification (R29): the result is latched, the gauge status follows the flags, and
GAUGE_RESULT is queued. -/
def gaugeEnd (cause : GaugeCause) (s : State) : State :=
  let r := resultOf s.msu cause
  let pass := r.flagCount == 0
  (s.setMsu { s.msu with result := some r, status := if pass then .pass else .suspect
                         verification := .latched, barEndFrom := none }).raise
    (.gaugeResult (if pass then .pass else .suspect) cause r.markCount r.flagCount)

/-- A leading edge taken by the MSU (R28): the first tab, or the tab of the next mark, the last of which
ends the verification. -/
def gaugeMark (s : State) : State :=
  let m := s.msu
  if m.verification == .armed then
    s.setMsu { m with origin := s.ltr.trimPos, measured := [0], verification := .onBar, barEndFrom := none }
  else
    let t := s.setMsu { m with measured := m.measured ++ [signedDiff s.ltr.trimPos m.origin]
                               barEndFrom := none }
    if m.measured.length == 31 then gaugeEnd .mark32 t else t

/-- A trailing edge taken by the MSU (R28): in ON_BAR a bar-end distance starts. -/
def gaugeTrail (s : State) : State :=
  if s.msu.verification == .onBar then s.setMsu { s.msu with barEndFrom := some s.ltr.trimPos } else s

/-- The bar-end distance exceeded by 100 mm (R28): the verification ends with BAR_END. -/
def barEnd (s : State) : State :=
  match s.msu.verification, s.msu.barEndFrom with
  | .onBar, some p => if exceeded s.ltr.trimPos (p + umOfMm 100) then gaugeEnd .barEnd s else s
  | _, _ => s

/-! ## Requests -/

/-- MEASURE_SET by its owner (R23). DESIGN CHOICE (log 41): a new compensation holds from this event on, for edges taken
before its reply is sent too. -/
def measureSet (comp : Int) (s : State) : Answer :=
  refuseIf (!compOk comp) .badValue <|
  taken (s.setMsu { s.msu with comp := comp }) []

/-- GAUGE_TABLE by its owner (R26, R32). -/
def gaugeTable (marks : List Nat) (t : Nat) (s : State) : Answer :=
  refuseIf (marks.length != 32) .badLength <|
  refuseIf (!gaugeTableOk marks t) .badValue <|
  refuseIf (verifying s) .inUse <|
  taken (s.setMsu { s.msu with tableLoaded := true, marks := marks, tolerance := t
                               status := .unverified }) []

/-- GAUGE_VERIFY by its owner (R27). -/
def gaugeVerify (s : State) : Answer :=
  refuseHalted s <|
  refuseIf (!s.msu.tableLoaded) .notConfigured <|
  refuseIf (s.msu.verification == .latched) .resultPending <|
  refuseIf (verifying s || s.ltr.lineState != .running || !s.ltr.strips.isEmpty || s.ltr.level.measure)
    .wrongState <|
  taken (s.setMsu { s.msu with verification := .armed, measured := [], origin := 0#32
                               barEndFrom := none }) []

/-- GAUGE_CANCEL by its owner (R30). -/
def gaugeCancelRequest (s : State) : Answer := taken (gaugeCancel .request s) []

/-- GAUGE_RELEASE by its owner (R31). -/
def gaugeRelease (s : State) : Answer :=
  refuseIf (verifying s) .wrongState <|
  taken (s.setMsu { s.msu with verification := .idle, result := none }) []

/-- The latched result as GAUGE_READ gives it (R31): 200 bytes. -/
def gaugeResultBytes (r : GaugeResult) : List Byte :=
  r.flags.flatMap beFlag ++ r.deviations.flatMap (beOpt 4 sbe4) ++ be1 r.markCount ++ be1 r.cause.code
    ++ be2 r.tolerance ++ bePos r.origin

/-- GAUGE_READ's data (R31). -/
def gaugeReadData (s : State) : List Byte :=
  let m := s.msu
  be1 m.verification.code ++ be1 m.status.code ++ sbe2 m.comp ++ beFlag m.tableLoaded
    ++ m.marks.flatMap be4 ++ be2 m.tolerance
    ++ beOpt 1 be1 (if m.verification == .onBar then some m.measured.length else none)
    ++ beOpt 200 gaugeResultBytes m.result

/-- MEASURE_SET (R23, R174). -/
def execMeasureSet (tag : Byte) (comp : Int) (s : State) : Outcome :=
  .next (request 0x18#8 tag (measureSet comp) s)

/-- GAUGE_TABLE (R26, R174). -/
def execGaugeTable (tag : Byte) (marks : List Nat) (t : Nat) (s : State) : Outcome :=
  .next (request 0x19#8 tag (gaugeTable marks t) s)

/-- GAUGE_VERIFY (R27, R174). -/
def execGaugeVerify (tag : Byte) (s : State) : Outcome := .next (request 0x1A#8 tag gaugeVerify s)

/-- GAUGE_CANCEL (R30, R174). -/
def execGaugeCancel (tag : Byte) (s : State) : Outcome := .next (request 0x1B#8 tag gaugeCancelRequest s)

/-- GAUGE_RELEASE (R31, R174). -/
def execGaugeRelease (tag : Byte) (s : State) : Outcome := .next (request 0x1C#8 tag gaugeRelease s)

/-- GAUGE_READ (R31, R174). -/
def execGaugeRead (tag : Byte) (s : State) : Outcome :=
  .next (request 0x1D#8 tag (fun s => taken s (gaugeReadData s)) s)

/-- BAR_END (R28, R29). -/
def execBarEnd (s : State) : Outcome := .next (barEnd s)

end Sys2Proof.Machine
end

