-- ==== Sys2Proof/Machine/Tracking.lean ====
section
/-! DEFINITION. The Line Tracker (chapter 1): the edges of the three trim eyes, the encoder pulses, the
emergency stop, and the requests that move the line. -/

namespace Sys2Proof.Machine

open Sys2Proof

/-! ## Eye holders, levels and counts -/

/-- The holder of an eye replaced (R6). -/
def setHolder (e : TrimEye) (h : Option Nat) (s : State) : State :=
  s.setLtr { s.ltr with holder := s.ltr.holder.put e h }

/-- The level of an eye replaced (R6). -/
def setLevel (e : TrimEye) (blocked : Bool) (s : State) : State :=
  s.setLtr { s.ltr with level := s.ltr.level.put e blocked }

/-- A stray at an eye (R8, R10, R11): its count rises and the holder becomes none. -/
def countStray (e : TrimEye) (s : State) : State :=
  setHolder e none (s.setLtr { s.ltr with strays := s.ltr.strays.put e (bump (s.ltr.strays.get e)) })

/-! ## The measure eye (R8, R9) -/

/-- A leading edge at the measure eye matched to a record (R8). -/
def measureMatch (r : Strip) (s : State) : State :=
  setHolder .measure (some r.tag) (s.modStrip r.tag (measured s))

/-- A stray at the measure eye is given a record (R8): the queue has room and the changeover state is
RUNNING or DRAINING. -/
def strayRecorded (s : State) : Bool :=
  decide (0 < stripFree s) && (s.pfc.changeover == .running || s.pfc.changeover == .draining)

/-- A stray leading edge at the measure eye (R8); a record that joins the queue returns the cutter group
from IDLE_WAIT (R106). -/
def measureStray (s : State) : State :=
  let t := countStray .measure s
  if strayRecorded t then
    let tag := t.ltr.nextTag
    let u := setHolder .measure (some tag) (allocateStrip (strayStrip t) t)
    activity (u.raise (.stray .measure s.ltr.trimPos tag))
  else
    (t.setLtr { t.ltr with unrecorded := bump t.ltr.unrecorded }).raise (.stray .measure s.ltr.trimPos 0)

/-- A leading edge taken at the measure eye: by the MSU during a verification (R28), else matched or a
stray (R8). -/
def measureLead (s : State) : State :=
  if verifying s then gaugeMark s
  else match matchAt s .measure with
    | some r => measureMatch r s
    | none => measureStray s

/-- The phase after the trailing edge at the measure eye (R9). -/
def Phase.afterMeasure : Phase → Phase
  | .measuring => .travelling
  | p => p

/-- A trailing edge taken at the measure eye (R9): the MSU computes the length of the holder's record. -/
def measureTrail (s : State) : State :=
  if verifying s then gaugeTrail s
  else match s.ltr.holder.measure with
    | none => s
    | some tag =>
      let t := (setHolder .measure none s).modStrip tag (fun r => { r with phase := r.phase.afterMeasure })
      match stripOf t tag with
      | none => t
      | some r => lengthWrite r t

/-! ## The scan eye (R9, R10) -/

/-- An announcement handed to the scan link (R185): it joins the announce queue, or is discarded and
counted. -/
def announce (a : Announcement) (s : State) : State :=
  if s.lif.announceQueue.length < Config.announceCapacity then
    s.setLif { s.lif with announceQueue := s.lif.announceQueue ++ [a] }
  else s.setLif { s.lif with announceOverflow := bump s.lif.announceOverflow }

/-- A leading edge at the scan eye matched to a record (R10): announced unless it is a stray's. -/
def scanMatch (r : Strip) (s : State) : State :=
  let t := setHolder .scan (some r.tag)
    (s.modStrip r.tag (fun x => { x with scanWin := none, announced := x.announced || !x.stray }))
  if r.stray then t
  else announce { tag := r.tag, length := r.length.getD 0, profile := r.profile } t

/-- A leading edge taken at the scan eye (R10). -/
def scanLead (s : State) : State :=
  match matchAt s .scan with
  | some r => scanMatch r s
  | none => (countStray .scan s).raise (.stray .scan s.ltr.trimPos 0)

/-! ## The saw eye (R9, R11) -/

/-- A leading edge at the saw eye matched to a record (R11): the record is AT_SAW and its cut list is set
up (R97). -/
def sawMatch (r : Strip) (s : State) : State :=
  cutListSetup r (setHolder .saw (some r.tag)
    (s.modStrip r.tag (fun x => { x with sawWin := none, phase := .atSaw })))

/-- A leading edge taken at the saw eye (R11). -/
def sawLead (s : State) : State :=
  match matchAt s .saw with
  | some r => sawMatch r s
  | none => (countStray .saw s).raise (.stray .saw s.ltr.trimPos 0)

/-- A trailing edge taken at the saw eye (R9): handed to the TSC for the holder's record (R101). -/
def sawTrailEdge (s : State) : State :=
  match s.ltr.holder.saw with
  | none => s
  | some tag =>
    let t := setHolder .saw none s
    match stripOf t tag with
    | none => t
    | some r => sawTrail r t

/-! ## Edges (R6) -/

/-- An edge taken at a trim eye, the level already followed. -/
def takeEdge (e : TrimEye) (blocked : Bool) (s : State) : State :=
  match e, blocked with
  | .measure, true => measureLead s
  | .measure, false => measureTrail s
  | .scan, true => scanLead s
  | .scan, false => setHolder .scan none s
  | .saw, true => sawLead s
  | .saw, false => sawTrailEdge s

/-- A change of a trim eye's input (R6, section 1.5): taken as an edge in RUNNING and STOPPING; in STOPPED
the level follows, in HALTED it holds. -/
def trimEdge (e : TrimEye) (blocked : Bool) (s : State) : State :=
  if s.pins.eyes.get e == blocked then s
  else
    let t := s.setPins { s.pins with eyes := s.pins.eyes.put e blocked }
    match t.ltr.lineState with
    | .halted => t
    | .stopped => setLevel e blocked t
    | _ => takeEdge e blocked (setLevel e blocked t)

/-! ## Encoder pulses (R4, R78, R112) -/

/-- A pulse of the trim encoder (R4), with the window openings it reaches (R6). -/
def trimPulse (d : Direction) (s : State) : State :=
  let p := pulse s.ltr.trimPos s.ltr.geometry.scale d
  s.setLtr { s.ltr with trimPos := p, strips := s.ltr.strips.map (Strip.noteWindows p) }

/-- One pulse of an encoder; in HALTED it is not counted. -/
def encoderPulse (e : Encoder) (d : Direction) (s : State) : State :=
  if s.ltr.lineState == .halted then s
  else match e with
    | .trim => trimPulse d s
    | .infeed => s.setFdp { s.fdp with pos := pulse s.fdp.pos s.fdp.settings.scale d }
    | .sort => s.setSrt { s.srt with pos := pulse s.srt.pos s.srt.settings.scale d }

/-! ## The emergency stop (R19) -/

/-- Every actuator output but the cutter group's drops, and its pulse time is discarded (R19). -/
def dropOutputs (s : State) : State :=
  let t := s.setFdp { s.fdp with feedPulse := none }
  let u := t.setTsc { t.tsc with sawPulse := none }
  let v := u.setSrt { u.srt with diverters := u.srt.diverters.map (fun _ => none) }
  v.setBdb { v.bdb with bins := v.bdb.bins.map (fun b => { b with discharge := none }) }

/-- The entry to HALTED (R19), its notices in the order of R17. -/
def enterHalted (s : State) : State :=
  gaugeCancel .estop (cutterOff .estop (lineTo .halted .estop (dropOutputs s)))

/-- The assertion of the estop input (R19). -/
def estopAssert (s : State) : State :=
  let t := s.setPins { s.pins with estop := true }
  if s.pins.estop || s.ltr.lineState == .halted then t else enterHalted t

/-! ## Line requests -/

/-- Every eye level taken as its input's present level, with no edge (R17, R118; feed-ready R84). -/
def levelsFollow (s : State) : State :=
  let t := s.setLtr { s.ltr with level := s.pins.eyes }
  t.setSrt { t.srt with level := s.pins.drop }

/-- LINE_START by its owner (R17, R109). -/
def lineStart (s : State) : Answer :=
  refuseHalted s <|
  refuseIf (!configured s) .notConfigured <|
  match s.ltr.lineState with
  | .stopped => taken (enterSpinup .request (lineTo .running .request (levelsFollow s))) []
  | .stopping => taken (lineTo .running .request s) []
  | _ => taken s []

/-- LINE_STOP taken in RUNNING (R18, R30, R109). -/
def stopRunning (s : State) : State :=
  if bothEmpty s then gaugeCancel .line (cutterOff .line (lineTo .stopped .request s))
  else gaugeCancel .line (lineTo .stopping .request s)

/-- LINE_STOP by its owner (R18). -/
def lineStop (s : State) : Answer :=
  refuseHalted s <|
  taken (if s.ltr.lineState == .running then stopRunning s else s) []

/-- At LINE_RESUME a trim eye whose input differs from its held level is taken as one edge (R21). -/
def resumeEdge (e : TrimEye) (s : State) : State :=
  let b := s.pins.eyes.get e
  if s.ltr.level.get e == b then s else takeEdge e b (setLevel e b s)

/-- At LINE_RESUME the drop eye is taken again in the same way (R118). -/
def resumeDrop (s : State) : State :=
  let b := s.pins.drop
  if s.srt.level == b then s
  else
    let t := s.setSrt { s.srt with level := b }
    if b then dropLead t else t

/-- A change of the feed-ready eye level passed to the TSC (R84, R106). -/
def feedReadyChange (blocked : Bool) (s : State) : State :=
  let t := s.setFdp { s.fdp with feedReady := blocked }
  if blocked then activity t else idleTest t

/-- At LINE_RESUME the feed-ready level is taken again from the input (R84). -/
def resumeFeed (s : State) : State :=
  if s.fdp.feedReady == s.pins.feedReady then s else feedReadyChange s.pins.feedReady s

/-- LINE_RESUME taken (R21, R118, R84, R109, R143): the edges, judged as in RUNNING, then the entry into RUNNING. DESIGN
CHOICE (log 13): the order among the edges, and that the drop and feed-ready eyes' come before the entry's notices. -/
def resume (s : State) : State :=
  let u := s.setLtr { s.ltr with lineState := .running }
  let t := resumeFeed (resumeDrop (resumeEdge .saw (resumeEdge .scan (resumeEdge .measure u))))
  dischargeAll (enterSpinup .request (t.raise (.lineState .running s.ltr.lineState .request)))

/-- LINE_RESUME by its owner (R21). -/
def lineResume (s : State) : Answer :=
  refuseIf (s.ltr.lineState != .halted) .wrongState <|
  refuseIf s.pins.estop .estopActive <|
  refuseIf (!configured s) .notConfigured <|
  taken (resume s) []

/-- The Plan Engine, the Strip Tracking Queue and the cut lists abandoned by LINE_CLEAR (R22, R63, R102). DESIGN
CHOICE (log 38): R22 orders the removals of the pieces and not those of the strip records; their reservations are
released oldest record first, each record's in plan order. -/
def clearStrips (s : State) : State :=
  let t := s.setPle { s.ple with engine := none }
  let u := t.ltr.strips.foldl (fun s r => releasePlan r s) t
  let v := u.setLtr { u.ltr with strips := [] }
  v.setTsc { v.tsc with cutLists := [] }

/-- The Piece Sort Queue cleared by LINE_CLEAR, one piece at a time, oldest first (R22). -/
def clearPieces (s : State) : State := s.srt.pieces.foldl clearPiece s

/-- The Line Tracker's step of LINE_CLEAR (R22): holders none, STOPPED, where every level follows its
input. -/
def clearLine (s : State) : State :=
  let t := levelsFollow (s.setLtr { s.ltr with holder := ⟨none, none, none⟩ })
  lineTo .stopped .request (t.setFdp { t.fdp with feedReady := t.pins.feedReady })

/-- LINE_CLEAR taken (R22): then the discharges that waited begin (R143) and the drain test is made (R90). -/
def clearAll (s : State) : State :=
  drainTest (dischargeAll (clearLine (clearPieces (clearStrips s))))

/-- LINE_CLEAR by its owner (R22). -/
def lineClear (s : State) : Answer :=
  refuseIf (s.ltr.lineState != .halted) .wrongState <|
  refuseIf s.pins.estop .estopActive <|
  taken (clearAll s) (be1 s.ltr.strips.length ++ be1 s.srt.pieces.length)

/-- The gauge status after LINE_GEOMETRY (R32). -/
def statusAfterGeometry (s : State) (g : Geometry) : GaugeStatus :=
  if g.scale = s.ltr.geometry.scale then s.msu.status else .unverified

/-- LINE_GEOMETRY by its owner (R5, R32). -/
def lineGeometry (g : Geometry) (s : State) : Answer :=
  refuseHalted s <|
  refuseIf (!geometryOk g) .badValue <|
  refuseIf (watching s) .wrongState <|
  taken ((s.setLtr { s.ltr with geometry := g, geometryLoaded := true }).setMsu
    { s.msu with status := statusAfterGeometry s g }) []

/-! ## Reads -/

/-- A tag, 0 for none. -/
def beTag (t : Option Nat) : List Byte := be2 (t.getD 0)

/-- LINE_READ's data (R15). -/
def lineReadData (s : State) : List Byte :=
  let l := s.ltr
  be1 l.lineState.code ++ bePos l.trimPos ++ geometryBytes l.geometry ++ beFlag l.geometryLoaded
    ++ be2 l.nextTag ++ be1 (stripFree s) ++ beList (fun r => be2 r.tag) l.strips
    ++ beTag (nextExpected s .measure) ++ beTag (nextExpected s .scan) ++ beTag (nextExpected s .saw)
    ++ beTag l.holder.measure ++ beTag l.holder.scan ++ beTag l.holder.saw
    ++ beFlag l.level.measure ++ beFlag l.level.scan ++ beFlag l.level.saw ++ beFlag s.pins.estop
    ++ be2 l.strays.measure ++ be2 l.strays.scan ++ be2 l.strays.saw
    ++ be2 l.missing.measure ++ be2 l.missing.scan ++ be2 l.missing.saw ++ be2 l.unrecorded

/-- A normalised defect (R16). -/
def defectBytes (d : Defect) : List Byte :=
  be2 d.start ++ be2 d.extent ++ be1 d.kind ++ be1 d.severity ++ be1 d.face

/-- A scan (R16). -/
def scanBytes (c : Scan) : List Byte := be1 c.colour ++ beList defectBytes c.defects

/-- A planned piece (R2). -/
def plannedBytes (p : PlannedPiece) : List Byte :=
  be2 p.start ++ be2 p.stop ++ be2 p.net ++ be1 p.grade ++ be1 p.cls ++ be2 p.value
    ++ be1 (p.line.getD 0)

/-- STRIP_READ's data for a record (R2, R16) at a place in the queue. -/
def stripBytes (r : Strip) (place : Nat) : List Byte :=
  be2 r.tag ++ be1 r.profile ++ be1 r.phase.code ++ beOpt 4 bePos r.leadPos ++ beOpt 2 be2 r.length
    ++ beFlag r.announced ++ beOpt 2 scanBytes r.scan ++ be1 r.status.code
    ++ beOpt 1 (beList plannedBytes) r.plan ++ beFlag r.stray ++ be1 place

/-- The place of a tag in the queue, 1 for the oldest (R16). -/
def placeOf (s : State) (tag : Nat) : Nat := s.ltr.strips.findIdx (fun r => r.tag == tag) + 1

/-- STRIP_READ by its owner (R16). -/
def stripRead (tag : Nat) (s : State) : Answer :=
  match stripOf s tag with
  | none => .error .notFound
  | some r => taken s (stripBytes r (placeOf s tag))

/-! ## Commands -/

/-- LINE_START (R17, R174). -/
def execLineStart (tag : Byte) (s : State) : Outcome := .next (request 0x10#8 tag lineStart s)

/-- LINE_STOP (R18, R174). -/
def execLineStop (tag : Byte) (s : State) : Outcome := .next (request 0x11#8 tag lineStop s)

/-- LINE_RESUME (R21, R174). -/
def execLineResume (tag : Byte) (s : State) : Outcome := .next (request 0x12#8 tag lineResume s)

/-- LINE_CLEAR (R22, R174). -/
def execLineClear (tag : Byte) (s : State) : Outcome := .next (request 0x13#8 tag lineClear s)

/-- LINE_GEOMETRY (R5, R174). -/
def execLineGeometry (tag : Byte) (g : Geometry) (s : State) : Outcome :=
  .next (request 0x14#8 tag (lineGeometry g) s)

/-- LINE_READ (R15, R174). -/
def execLineRead (tag : Byte) (s : State) : Outcome :=
  .next (request 0x15#8 tag (fun s => taken s (lineReadData s)) s)

/-- STRIP_READ (R16, R174). -/
def execStripRead (tag : Byte) (strip : Nat) (s : State) : Outcome :=
  .next (request 0x16#8 tag (stripRead strip) s)

/-- ESTOP_ASSERT (R19). -/
def execEstopAssert (s : State) : Outcome := .next (estopAssert s)

/-- ESTOP_RELEASE (R19): the line state stays. -/
def execEstopRelease (s : State) : Outcome := .next (s.setPins { s.pins with estop := false })

/-- ENCODER_PULSE (R4, R78, R112). -/
def execEncoderPulse (e : Encoder) (d : Direction) (s : State) : Outcome := .next (encoderPulse e d s)

/-- MEASURE_LEADING_EDGE (R6, R8). -/
def execMeasureLeadingEdge (s : State) : Outcome := .next (trimEdge .measure true s)

/-- MEASURE_TRAILING_EDGE (R6, R9). -/
def execMeasureTrailingEdge (s : State) : Outcome := .next (trimEdge .measure false s)

/-- SCAN_LEADING_EDGE (R6, R10). -/
def execScanLeadingEdge (s : State) : Outcome := .next (trimEdge .scan true s)

/-- SCAN_TRAILING_EDGE (R6, R9). -/
def execScanTrailingEdge (s : State) : Outcome := .next (trimEdge .scan false s)

/-- SAW_LEADING_EDGE (R6, R11). -/
def execSawLeadingEdge (s : State) : Outcome := .next (trimEdge .saw true s)

/-- SAW_TRAILING_EDGE (R6, R9, R101). -/
def execSawTrailingEdge (s : State) : Outcome := .next (trimEdge .saw false s)

end Sys2Proof.Machine
end

