-- ==== Sys2Proof/Machine/Pacing.lean ====
section
/-! DEFINITION. The Feed Pacer (chapter 6): feed periods, the feed decision at each slot, the feed-ready eye
and the feed pulse. -/

namespace Sys2Proof.Machine

open Sys2Proof

/-! ## Feed periods (R80, R81) -/

/-- The tracking level of a free count (R80). -/
def trackLevelOf (p : PaceSettings) (free : Nat) : Nat :=
  levelOf (decide (free < p.t3)) (decide (free < p.t2)) (decide (free < p.t1))

/-- The sort level of a free count (R80). -/
def sortLevelOf (p : PaceSettings) (free : Nat) : Nat :=
  levelOf (decide (free < p.s3)) (decide (free < p.s2)) (decide (free < p.s1))

/-- The bin level of a blocked-bin count (R80). -/
def binLevelOf (p : PaceSettings) (blocked : Nat) : Nat :=
  levelOf (decide (p.b3 ≤ blocked)) (decide (p.b2 ≤ blocked)) (decide (p.b1 ≤ blocked))

/-- The gap count of a pace level (R81), as held by R79. -/
def gapsOf (p : PaceSettings) : Nat → Nat
  | 0 => 0
  | 1 => p.g1
  | 2 => p.g2
  | _ => p.g3

/-- The start of a feed period (R80, R81): the values read, the levels, the gap count, and PACE_LEVEL when
the pace level changes. -/
def periodStart (s : State) : State :=
  let p := s.fdp.settings
  let tf := stripFree s
  let sf := pieceFree s
  let bl := blockedBins s
  let t := trackLevelOf p tf
  let q := sortLevelOf p sf
  let b := binLevelOf p bl
  let new := max t (max q b)
  let u := s.setFdp { s.fdp with
    level := new, trackLevel := t, sortLevel := q, binLevel := b, trackFree := tf, sortFree := sf
    blockedBins := bl, gapCount := gapsOf p new }
  if new = s.fdp.level then u else u.raise (.paceLevel new s.fdp.level t q b tf sf bl)

/-! ## The feed decision (R82, R83) -/

/-- One or more holds apply (R82). -/
def anyHold (s : State) : Bool :=
  lineHold s || trackingHold s || profileHold s || gaugeHold s || cutterHold s

/-- CUTTER is the only hold that applies (R83). -/
def onlyCutter (s : State) : Bool :=
  cutterHold s && !lineHold s && !trackingHold s && !profileHold s && !gaugeHold s

/-- A counter that rises when a condition holds. -/
def bumpIf (c : Bool) (n : Nat) : Nat := if c then bump n else n

/-- A HELD slot (R83, R85): counted with every hold that applies; a waiting strip is reported when CUTTER is
the only one and the feed-ready eye is blocked. -/
def heldSlot (s : State) : State :=
  let f := s.fdp
  let t := s.setFdp { f with
    held := bump f.held
    heldLine := bumpIf (lineHold s) f.heldLine, heldTracking := bumpIf (trackingHold s) f.heldTracking
    heldProfile := bumpIf (profileHold s) f.heldProfile, heldGauge := bumpIf (gaugeHold s) f.heldGauge
    heldCutter := bumpIf (cutterHold s) f.heldCutter }
  if f.feedReady && onlyCutter s then wakeReport t else t

/-- A FED slot (R83, R7, R84, R110): a strip record is allocated and the feed pulse starts. -/
def fedSlot (s : State) : State :=
  let t := allocateStrip (fedStrip s) s
  t.setFdp { t.fdp with fed := bump t.fdp.fed, feedPulse := some t.fdp.settings.feedPulse }

/-- The decision of the slot that begins (R83). -/
def decideSlot (s : State) : State :=
  if isGap s.fdp.gapCount s.fdp.slotIndex then s.setFdp { s.fdp with skipped := bump s.fdp.skipped }
  else if anyHold s then heldSlot s
  else if s.fdp.feedReady then fedSlot s
  else s.setFdp { s.fdp with empty := bump s.fdp.empty }

/-- The slot index and the next boundary advance (R78). -/
def nextSlot (s : State) : State :=
  s.setFdp { s.fdp with slotIndex := if s.fdp.slotIndex < 15 then s.fdp.slotIndex + 1 else 0
                        nextBoundary := s.fdp.nextBoundary + umOfMm s.fdp.settings.slotPitch }

/-- A slot event (R78): when the infeed position has reached the next boundary, not in HALTED. -/
def slotEvent (s : State) : State :=
  if s.ltr.lineState != .halted && reached s.fdp.pos s.fdp.nextBoundary then
    let t := nextSlot s
    decideSlot (if t.fdp.slotIndex = 0 then periodStart t else t)
  else s

/-! ## The feed-ready eye (R84) -/

/-- A change of the feed-ready input (R84): in HALTED the level holds. -/
def feedReadyEdge (blocked : Bool) (s : State) : State :=
  if s.pins.feedReady == blocked then s
  else
    let t := s.setPins { s.pins with feedReady := blocked }
    if t.ltr.lineState == .halted then t else feedReadyChange blocked t

/-! ## Requests -/

/-- The settings as held: a gap count above 14 is held as 14 (R79). -/
def heldGaps (p : PaceSettings) : PaceSettings :=
  { p with g1 := min 14 p.g1, g2 := min 14 p.g2, g3 := min 14 p.g3 }

/-- The pacer with new settings (R79): a change of slot_pitch starts a new period at the next slot. -/
def withPace (p : PaceSettings) (f : Fdp) : Fdp :=
  { f with
    settings := heldGaps p
    slotIndex := if p.slotPitch = f.settings.slotPitch then f.slotIndex else 15
    nextBoundary := if p.slotPitch = f.settings.slotPitch then f.nextBoundary
                    else f.pos + umOfMm p.slotPitch }

/-- PACE_SET by its owner (R79). -/
def paceSet (p : PaceSettings) (s : State) : Answer :=
  refuseHalted s <|
  refuseIf (!paceOk p) .badValue <|
  refuseIf (watching s && (p.scale != s.fdp.settings.scale || p.slotPitch != s.fdp.settings.slotPitch))
    .wrongState <|
  taken (s.setFdp (withPace p s.fdp))
    (be1 (heldGaps p).g1 ++ be1 (heldGaps p).g2 ++ be1 (heldGaps p).g3)

/-- PACE_READ's data (R85). DESIGN CHOICE (log 36): the holds that apply are five flags in R82's order, where section
12.6 would allow a counted list of named values too; and the gap slots carry their own count after the gap count. -/
def paceReadData (s : State) : List Byte :=
  let f := s.fdp
  bePos f.pos ++ be1 f.slotIndex ++ bePos f.nextBoundary
    ++ be1 f.level ++ be1 f.trackLevel ++ be1 f.sortLevel ++ be1 f.binLevel
    ++ be1 f.trackFree ++ be1 f.sortFree ++ be1 f.blockedBins
    ++ be1 f.gapCount ++ beList be1 (gapSlots f.gapCount) ++ paceBytes f.settings
    ++ beFlag f.feedReady ++ beFlag f.feedPulse.isSome
    ++ beFlag (lineHold s) ++ beFlag (trackingHold s) ++ beFlag (profileHold s)
    ++ beFlag (gaugeHold s) ++ beFlag (cutterHold s)
    ++ be2 f.fed ++ be2 f.skipped ++ be2 f.held ++ be2 f.empty ++ be2 f.heldLine ++ be2 f.heldTracking
    ++ be2 f.heldProfile ++ be2 f.heldGauge ++ be2 f.heldCutter

/-- PACE_SET (R79, R174). -/
def execPaceSet (tag : Byte) (p : PaceSettings) (s : State) : Outcome :=
  .next (request 0x40#8 tag (paceSet p) s)

/-- PACE_READ (R85, R174). -/
def execPaceRead (tag : Byte) (s : State) : Outcome :=
  .next (request 0x41#8 tag (fun s => taken s (paceReadData s)) s)

/-- SLOT_EVENT (R78, R83). -/
def execSlotEvent (s : State) : Outcome := .next (slotEvent s)

/-- FEED_READY_EDGE (R84). -/
def execFeedReadyEdge (blocked : Bool) (s : State) : Outcome := .next (feedReadyEdge blocked s)

/-- FEED_PULSE_END (R84): the feed gate output drops at the end of the pulse time. -/
def execFeedPulseEnd (s : State) : Outcome := .next (s.setFdp { s.fdp with feedPulse := none })

end Sys2Proof.Machine
end

