-- ==== Sys2Proof/Machine/Profiles.lean ====
section
/-! DEFINITION. The Profile Controller (chapter 6): the Profile Set Table and the changeover. -/

namespace Sys2Proof.Machine

open Sys2Proof

/-- A profile set number (R87, R88). -/
def setOk (n : Nat) : Bool := within 1 8 n

/-- Set n is defined (R86). -/
def setDefined (s : State) (n : Nat) : Bool := ((tabGet s.pfc.sets n).getD none).isSome

/-- PROFILE_SET finds the set in use (R87 check 3). -/
def setInUse (s : State) (n : Nat) : Bool :=
  (s.pfc.active == some n && watching s) || (s.pfc.target == some n && s.pfc.changeover != .running)

/-- PROFILE_SET by its owner (R87). DESIGN CHOICE (log 41): the figures and texts hold from this event on, for what
begins before the reply is sent too. -/
def profileSet (n : Nat) (p : ProfileSet) (s : State) : Answer :=
  refuseIf (p.species.length != 4 || p.profileId.length != 8) .badLength <|
  refuseHalted s <|
  refuseIf (!setOk n || !profileOk p) .badValue <|
  refuseIf (setInUse s n) .inUse <|
  taken (s.setPfc { s.pfc with sets := tabMod s.pfc.sets n (fun _ =>
    some { p with species := textOf p.species, profileId := textOf p.profileId }) }) []

/-- A return to RUNNING with the target dropped (R89, R93). -/
def backToRunning (s : State) : State :=
  profileTo .running .request (s.setPfc { s.pfc with target := none, toolingRequest := false, timer := none })

/-- PROFILE_CHANGE taken (R88, R89, R93). -/
def changeTaken (n : Nat) (s : State) : State :=
  match s.pfc.changeover with
  | .running =>
    if s.pfc.active = some n then s
    else drainTest (profileTo .draining .request (s.setPfc { s.pfc with target := some n }))
  | .draining =>
    if s.pfc.target = some n then s
    else if s.pfc.active = some n then backToRunning s
    else s.setPfc { s.pfc with target := some n }
  | .tooling => s
  | .toolFault =>
    profileTo .tooling .request
      (s.setPfc { s.pfc with target := some n, timer := some (toolingMs s (some n)) })

/-- PROFILE_CHANGE by its owner (R88): the reply carries the changeover state reached. -/
def profileChange (n : Nat) (s : State) : Answer :=
  refuseHalted s <|
  refuseIf (!setOk n) .badValue <|
  refuseIf (!setDefined s n) .notFound <|
  refuseIf (s.pfc.changeover == .tooling) .busy <|
  taken (changeTaken n s) (be1 (changeTaken n s).pfc.changeover.code)

/-- PROFILE_ABORT taken (R89, R93): counted in DRAINING and TOOL_FAULT. -/
def abortTaken (s : State) : State :=
  if s.pfc.changeover == .running then s
  else backToRunning (s.setPfc { s.pfc with aborts := bump s.pfc.aborts })

/-- PROFILE_ABORT by its owner (R89, R91, R93). -/
def profileAbort (s : State) : Answer :=
  refuseHalted s <|
  refuseIf (s.pfc.changeover == .tooling) .busy <|
  taken (abortTaken s) []

/-- The completion of a changeover (R91). -/
def changeComplete (s : State) : State :=
  profileTo .running .ready (s.setPfc { s.pfc with
    active := s.pfc.target, target := none, toolingRequest := false, timer := none
    completed := bump s.pfc.completed })

/-- A rising edge of tooling-ready (R91), in every line state. -/
def toolingReadyRise (s : State) : State :=
  if s.pins.toolingReady then s
  else
    let t := s.setPins { s.pins with toolingReady := true }
    if t.pfc.changeover == .tooling then changeComplete t
    else t.setPfc { t.pfc with unsolicited := bump t.pfc.unsolicited }

/-- Expiry of the tooling timer in TOOLING (R92), in every line state. -/
def toolingTimerExpiry (s : State) : State :=
  if s.pfc.changeover == .tooling && s.pfc.timer.isSome then
    profileTo .toolFault .timeout
      (s.setPfc { s.pfc with timer := none, toolFaults := bump s.pfc.toolFaults })
  else s

/-- PROFILE_READ's data (R95). -/
def profileReadData (s : State) : List Byte :=
  let p := s.pfc
  p.sets.toList.flatMap (beOpt 23 profileBytes) ++ be1 (p.active.getD 0) ++ be1 (p.target.getD 0)
    ++ be1 p.changeover.code ++ be4 (p.timer.getD 0) ++ beFlag p.toolingRequest
    ++ beFlag s.pins.toolingReady
    ++ be2 p.completed ++ be2 p.toolFaults ++ be2 p.aborts ++ be2 p.unsolicited

/-- PROFILE_SET (R87, R174). -/
def execProfileSet (tag : Byte) (n : Nat) (p : ProfileSet) (s : State) : Outcome :=
  .next (request 0x48#8 tag (profileSet n p) s)

/-- PROFILE_CHANGE (R88, R89, R93, R174). -/
def execProfileChange (tag : Byte) (n : Nat) (s : State) : Outcome :=
  .next (request 0x49#8 tag (profileChange n) s)

/-- PROFILE_ABORT (R89, R93, R174). -/
def execProfileAbort (tag : Byte) (s : State) : Outcome := .next (request 0x4A#8 tag profileAbort s)

/-- PROFILE_READ (R95, R174). -/
def execProfileRead (tag : Byte) (s : State) : Outcome :=
  .next (request 0x4B#8 tag (fun s => taken s (profileReadData s)) s)

/-- TOOLING_READY_RISE (R91). -/
def execToolingReadyRise (s : State) : Outcome := .next (toolingReadyRise s)

/-- TOOLING_READY_FALL (R91): no effect beyond the level. -/
def execToolingReadyFall (s : State) : Outcome :=
  .next (s.setPins { s.pins with toolingReady := false })

/-- TOOLING_TIMER_EXPIRY (R92). -/
def execToolingTimerExpiry (s : State) : Outcome := .next (toolingTimerExpiry s)

end Sys2Proof.Machine
end

