-- ==== Sys2Proof/Machine/Bins.lean ====
section
/-! DEFINITION. The Bundle Builder's requests and events (chapter 9): setting, closing and reading bins, the
Manifest Table, carts and the end of a discharge. -/

namespace Sys2Proof.Machine

open Sys2Proof

/-! ## Setting and closing bins (R129, R132) -/

/-- The bundle settings as held: a shorts share above 100 is held as 100 (R129). -/
def heldShare (b : BundleSettings) : BundleSettings := { b with shortsShare := min 100 b.shortsShare }

/-- The bin opened by BIN_SET (R129). -/
def openBin (b : BundleSettings) (x : Bin) : Bin :=
  { x with state := .opened, settings := heldShare b, bundle := .emptied, reason := none
           toDisabled := false, refusedSpace := 0, refusedShorts := 0, refusedTally := 0 }

/-- BIN_SET by its owner (R121, R129). -/
def binSet (n : Nat) (e : SortEntry) (b : BundleSettings) (s : State) : Answer :=
  refuseHalted s <|
  refuseIf (!binOk n) .badValue <|
  refuseIf (!tablesLoaded s) .notConfigured <|
  refuseIf (!binSetOk s e b) .badValue <|
  refuseIf ((binAt s n).state != .disabled) .wrongState <|
  taken ((s.setSrt { s.srt with entries := tabMod s.srt.entries n (fun _ => e) }).modBin n (openBin b))
    (be1 (heldShare b).shortsShare)

/-- The state of bin n as a reply carries it (R132). -/
def binStateByte (s : State) (n : Nat) : List Byte := be1 (binAt s n).state.code

/-- BIN_CLOSE by its owner (R132). -/
def binClose (n : Nat) (s : State) : Answer :=
  refuseHalted s <|
  refuseIf (!binOk n) .badValue <|
  refuseIf ((binAt s n).state == .disabled) .wrongState <|
  refuseIf ((binAt s n).state == .opened && !(binAt s n).bundle.allocated) .empty <|
  taken (closeRequest n .requested s) (binStateByte (closeRequest n .requested s) n)

/-- BIN_DISABLE taken (R132). -/
def disableTaken (n : Nat) (s : State) : State :=
  match (binAt s n).state with
  | .disabled => s
  | .opened =>
    if (binAt s n).bundle.allocated then closeRequest n .disable s
    else s.modBin n (fun x => { x with state := .disabled })
  | _ => s.modBin n (fun x => { x with toDisabled := true })

/-- BIN_DISABLE by its owner (R132). -/
def binDisable (n : Nat) (s : State) : Answer :=
  refuseHalted s <|
  refuseIf (!binOk n) .badValue <|
  taken (disableTaken n s) (binStateByte (disableTaken n s) n)

/-! ## Reading a bin (R144) -/

/-- A close reason as BIN_READ gives it: none, FULL, REQUESTED, PROFILE, DISABLE (R128, log 9). -/
def reasonByte (r : Option CloseReason) : List Byte :=
  match r with
  | none => be1 0
  | some r => be1 (r.code + 1)

/-- The open bundle as BIN_READ gives it (R133). DESIGN CHOICE (log 36): rows used, a field of R133 of its own, is
sent before the row fills, which carry their own count as a list; one count for both would fit section 12.6 too.
Each tally takes the 19 bytes that section 12.6 lays out for the tallies of the manifest record alone. The pieces in the
current row, "0 or more" in R133, take 2 bytes; R41's and R46's 150 mm under R129's 3,000 mm would let 1 byte hold
them. -/
def bundleBytes (u : Bundle) : List Byte :=
  be1 u.rowsUsed ++ beList be2 u.rowFills ++ be2 u.inRow ++ be4 u.shorts ++ be1 u.profile
    ++ beList Tally.bytes u.tallies ++ be2 u.landed ++ u.perClass.toList.flatMap be2 ++ be4 u.lineal
    ++ be4 u.shortsLanded ++ be1 u.worst
    ++ be1 (match u.colour with | some c => c.code | none => 0)

/-- The place of a bin in the closing order, 0 when it is not in CLOSING (R144). -/
def closingPlace (s : State) (n : Nat) : Nat :=
  match s.bdb.closingOrder.findIdx? (· == n) with
  | some i => i + 1
  | none => 0

/-- BIN_READ's data (R144). DESIGN CHOICE (log 36): the cart state is a flag, present 01h and absent 00h; as a named
value of R128's list ("present or absent") section 12.6 would number present 0. -/
def binReadData (s : State) (n : Nat) : List Byte :=
  let x := binAt s n
  be1 x.state.code ++ reasonByte x.reason ++ beFlag x.toDisabled ++ bundleSettingBytes x.settings
    ++ sortEntryBytes (entryAt s n) ++ be1 x.incoming ++ bundleBytes x.bundle
    ++ be1 (closingPlace s n) ++ beFlag (cartPresent s n) ++ beFlag x.arrivalMask ++ beFlag x.departureMask
    ++ beFlag x.discharge.isSome ++ be2 (x.discharge.getD 0)
    ++ be2 x.refusedSpace ++ be2 x.refusedShorts ++ be2 x.refusedTally
    ++ be4 s.bdb.nextBundle ++ be1 s.bdb.manifests.length ++ be1 s.bdb.closingOrder.length

/-- BIN_READ by its owner (R144). -/
def binRead (n : Nat) (s : State) : Answer :=
  refuseIf (!binOk n) .badValue <|
  taken s (binReadData s n)

/-! ## The Manifest Table (R141) -/

/-- A manifest in the list MANIFEST_READ gives for bundle number 0 (R141). -/
def manifestSummary (m : Manifest) : List Byte :=
  be4 m.number ++ be1 m.bin ++ be1 m.label.code ++ beFlag m.discharged

/-- MANIFEST_READ by its owner (R141). -/
def manifestRead (number : Nat) (s : State) : Answer :=
  if number = 0 then taken s (beList manifestSummary s.bdb.manifests)
  else match manifestOf s number with
    | none => .error .notFound
    | some m => taken s m.record

/-- A manifest is ready to be taken (R141). -/
def Manifest.takeable (m : Manifest) : Bool := m.label != .pending && m.discharged

/-- MANIFEST_TAKE by its owner (R141): the manifest leaves the table and an attempt at completion
follows. -/
def manifestTake (number : Nat) (s : State) : Answer :=
  match manifestOf s number with
  | none => .error .notFound
  | some m =>
    refuseIf (!m.takeable) .notReady <|
    taken (attempt (s.setBdb { s.bdb with
      manifests := s.bdb.manifests.filter (fun x => x.number != number) })) m.record

/-! ## Carts and discharge (R142, R143) -/

/-- CART_MASK by its owner (R142): bit b − 1 of each mask stands for bin b. -/
def cartMask (arrival departure : BitVec 16) (s : State) : Answer :=
  taken (s.setBdb { s.bdb with bins := s.bdb.bins.mapFinIdx (fun i x _ =>
    { x with arrivalMask := arrival.getLsbD i, departureMask := departure.getLsbD i }) }) []

/-- The CART notice of a change is masked at its bin (R142). -/
def cartMasked (x : Bin) (arrival : Bool) : Bool := if arrival then x.arrivalMask else x.departureMask

/-- A change of a bin's cart-present input (R142): the cart state follows, the notice is raised unless
masked, and an arrival in WAIT_CART begins the discharge (R143). -/
def cartChange (n : Nat) (arrival : Bool) (s : State) : State :=
  if !binOk n || cartPresent s n == arrival then s
  else
    let t := s.setPins { s.pins with carts := tabMod s.pins.carts n (fun _ => arrival) }
    let u := if cartMasked (binAt s n) arrival then t else t.raise (.cart n arrival)
    if arrival then dischargeStart n u else u

/-- The manifest of the bundle a bin discharges: that of the bin not yet discharged (R140; log 31). -/
def dischargedManifest (n : Nat) (ms : List Manifest) : List Manifest :=
  ms.map (fun m => if m.bin == n && !m.discharged then { m with discharged := true } else m)

/-- The bin after its discharge (R143). -/
def afterDischarge (x : Bin) : Bin :=
  { x with state := if x.toDisabled then .disabled else .opened, toDisabled := false, reason := none
           bundle := .emptied, discharge := none }

/-- The end of a bin's discharge pulse (R143). -/
def dischargeEnd (n : Nat) (s : State) : State :=
  if (binAt s n).state == .waitCart && (binAt s n).discharge.isSome then
    (s.setBdb { s.bdb with manifests := dischargedManifest n s.bdb.manifests }).modBin n afterDischarge
  else s

/-! ## Commands -/

/-- BIN_SET (R129, R174). -/
def execBinSet (tag : Byte) (n : Nat) (e : SortEntry) (b : BundleSettings) (s : State) : Outcome :=
  .next (request 0x58#8 tag (binSet n e b) s)

/-- BIN_CLOSE (R132, R174). -/
def execBinClose (tag : Byte) (n : Nat) (s : State) : Outcome := .next (request 0x59#8 tag (binClose n) s)

/-- BIN_DISABLE (R132, R174). -/
def execBinDisable (tag : Byte) (n : Nat) (s : State) : Outcome :=
  .next (request 0x5A#8 tag (binDisable n) s)

/-- BIN_READ (R144, R174). -/
def execBinRead (tag : Byte) (n : Nat) (s : State) : Outcome := .next (request 0x5B#8 tag (binRead n) s)

/-- CART_MASK (R142, R174). -/
def execCartMask (tag : Byte) (a d : BitVec 16) (s : State) : Outcome :=
  .next (request 0x5C#8 tag (cartMask a d) s)

/-- MANIFEST_READ (R141, R174). -/
def execManifestRead (tag : Byte) (number : Nat) (s : State) : Outcome :=
  .next (request 0x5D#8 tag (manifestRead number) s)

/-- MANIFEST_TAKE (R141, R174). -/
def execManifestTake (tag : Byte) (number : Nat) (s : State) : Outcome :=
  .next (request 0x5E#8 tag (manifestTake number) s)

/-- CART (R142, R143). -/
def execCart (n : Nat) (arrival : Bool) (s : State) : Outcome := .next (cartChange n arrival s)

/-- DISCHARGE_PULSE_END (R143). -/
def execDischargePulseEnd (n : Nat) (s : State) : Outcome := .next (dischargeEnd n s)

end Sys2Proof.Machine
end

