-- ==== Sys2Proof/Machine/Printing.lean ====
section
/-! DEFINITION. The Print Queue (chapter 11): the start test, the print port, row transfers, the end of a
label, faults, and the requests that set, retry, drop and read. -/

namespace Sys2Proof.Machine

open Sys2Proof

/-! ## Starting a print (R163, R165) -/

/-- The start of a print of the first slot of the print order (R165). -/
def printStart (k : Nat) (rest : List Nat) (s : State) : State :=
  let t := s.modSlot k (fun x => { x with state := .printing, attempts := min 255 (x.attempts + 1) })
  t.setPrq { t.prq with
    order := rest, port := .busy, sending := k, rowsSent := 0, transfer := none
    strobe := some t.prq.settings.strobe, timer := some (t.prq.settings.timer * 1000)
    inForce := t.prq.settings }

/-- The conditions of the start test beside the print order's (R163). -/
def startAllowed (s : State) : Bool :=
  s.prq.port == .idle && (faultSlot s).isNone && s.pins.printReady && !s.pins.printFault

/-- The start test (R163). -/
def startTest (s : State) : State :=
  match s.prq.order with
  | [] => s
  | k :: rest => if startAllowed s then printStart k rest s else s

/-! ## Rows (R166) -/

/-- A row request taken (R166): a row transfer begins, or the request is counted as stray. -/
def rowRequest (s : State) : State :=
  if s.pins.rowRequest then s
  else
    let t := s.setPins { s.pins with rowRequest := true }
    if t.prq.port == .busy && t.prq.transfer.isNone then
      t.setPrq { t.prq with transfer := some (Image.rowBytes (slotAt t t.prq.sending).image t.prq.rowsSent) }
    else t.setPrq { t.prq with strayRows := bump t.prq.strayRows }

/-- A slot passes to FREE (R162). -/
def slotFreed (x : Slot) : Slot := { x with state := .free, bundle := none, attempts := 0 }

/-- A manifest takes a label state (R167, R170), when the slot names one. -/
def labelState (bundle : Option Nat) (l : LabelState) (s : State) : State :=
  match bundle with
  | none => s
  | some n => s.modManifest n (fun m => { m with label := l })

/-- The end of a label after row 255 (R167). -/
def labelEnd (s : State) : State :=
  let k := s.prq.sending
  let x := slotAt s k
  let t := s.setPrq { s.prq with timer := none, port := .done, strobe := none
                                 donePulse := some s.prq.inForce.done }
  let u := (labelState x.bundle .printed t).raise (.labelPrinted (x.bundle.getD 0) k x.attempts)
  let v := u.setPrq { u.prq with printed := bump u.prq.printed }
  attempt (v.modSlot k slotFreed)

/-- The end of a row transfer (R166). -/
def rowTransferEnd (s : State) : State :=
  if s.prq.transfer.isSome then
    let t := s.setPrq { s.prq with transfer := none, rowsSent := s.prq.rowsSent + 1 }
    if t.prq.rowsSent = 256 then labelEnd t else t
  else s

/-! ## Faults (R168) -/

/-- The counter of a fault's cause rises (R168). -/
def countFault (c : PrintCause) (p : Prq) : Prq :=
  match c with
  | .faultInput => { p with faults := bump p.faults }
  | .timeout => { p with timeouts := bump p.timeouts }

/-- A print ends in fault (R168). -/
def printFail (c : PrintCause) (s : State) : State :=
  let k := s.prq.sending
  let x := slotAt s k
  let t := s.setPrq { s.prq with transfer := none, strobe := none, timer := none, port := .idle }
  let u := (t.modSlot k (fun x => { x with state := .fault })).raise
    (.printFault (x.bundle.getD 0) k c s.prq.rowsSent x.attempts)
  u.setPrq (countFault c u.prq)

/-- The change of the fault input from released to asserted (R168). -/
def printFaultAssert (s : State) : State :=
  if s.pins.printFault then s
  else
    let t := s.setPins { s.pins with printFault := true }
    if t.prq.port == .busy then printFail .faultInput t
    else t.setPrq { t.prq with strayFaults := bump t.prq.strayFaults }

/-- The change of the fault input from asserted to released (R163). -/
def printFaultRelease (s : State) : State :=
  if s.pins.printFault then startTest (s.setPins { s.pins with printFault := false }) else s

/-- The expiry of the print timer (R168). -/
def printTimerExpiry (s : State) : State :=
  if s.prq.port == .busy && s.prq.timer.isSome then printFail .timeout s else s

/-- The change of the ready input from false to true (R163). -/
def printReadyRise (s : State) : State :=
  if s.pins.printReady then s else startTest (s.setPins { s.pins with printReady := true })

/-- The end of the done pulse (R167). -/
def donePulseEnd (s : State) : State :=
  if s.prq.port == .done && s.prq.donePulse.isSome then
    startTest (s.setPrq { s.prq with donePulse := none, port := .idle })
  else s

/-! ## Requests -/

/-- PRINT_SET by its owner (R164). -/
def printSet (p : PrintSettings) (s : State) : Answer :=
  refuseIf (!printOk p) .badValue <|
  taken (s.setPrq { s.prq with settings := p }) []

/-- PRINT_RETRY taken for the slot in FAULT (R169). -/
def retrySlot (k : Nat) (s : State) : State :=
  let t := s.modSlot k (fun x => { x with state := .queued })
  startTest (t.setPrq { t.prq with order := k :: t.prq.order, retries := bump t.prq.retries })

/-- PRINT_RETRY by its owner (R169). -/
def printRetry (s : State) : Answer :=
  match faultSlot s with
  | none => .error .wrongState
  | some k => taken (retrySlot k s) []

/-- PRINT_DROP taken for the slot in FAULT (R170). -/
def dropSlot (k : Nat) (s : State) : State :=
  let t := labelState (slotAt s k).bundle .lost s
  let u := t.setPrq { t.prq with drops := bump t.prq.drops }
  startTest (attempt (u.modSlot k slotFreed))

/-- PRINT_DROP by its owner (R170). -/
def printDrop (s : State) : Answer :=
  match faultSlot s with
  | none => .error .wrongState
  | some k => taken (dropSlot k s) []

/-- A slot as PRINT_STATUS gives it (R171). -/
def slotBytes (s : State) (k : Nat) : List Byte :=
  let x := slotAt s k
  be1 k ++ be1 x.state.code ++ be4 (x.bundle.getD 0) ++ be1 x.attempts

/-- PRINT_STATUS's data (R171). -/
def printStatusData (s : State) : List Byte :=
  let p := s.prq
  slotNumbers.flatMap (slotBytes s) ++ beList be1 p.order
    ++ be1 p.port.code ++ be1 (if p.port == .busy then p.sending else 0) ++ be2 p.rowsSent
    ++ beFlag p.transfer.isSome ++ be2 (p.timer.getD 0)
    ++ beFlag s.pins.printReady ++ beFlag s.pins.rowRequest ++ beFlag s.pins.printFault
    ++ beFlag p.strobe.isSome ++ beFlag p.donePulse.isSome ++ printBytes p.settings
    ++ be2 p.printed ++ be2 p.faults ++ be2 p.timeouts ++ be2 p.retries ++ be2 p.drops
    ++ be2 p.strayRows ++ be2 p.strayFaults

/-! ## Commands -/

/-- PRINT_SET (R164, R174). -/
def execPrintSet (tag : Byte) (p : PrintSettings) (s : State) : Outcome :=
  .next (request 0x70#8 tag (printSet p) s)

/-- PRINT_RETRY (R169, R174). -/
def execPrintRetry (tag : Byte) (s : State) : Outcome := .next (request 0x71#8 tag printRetry s)

/-- PRINT_DROP (R170, R174). -/
def execPrintDrop (tag : Byte) (s : State) : Outcome := .next (request 0x72#8 tag printDrop s)

/-- PRINT_STATUS (R171, R174). -/
def execPrintStatus (tag : Byte) (s : State) : Outcome :=
  .next (request 0x73#8 tag (fun s => taken s (printStatusData s)) s)

/-- PRINT_READY_RISE (R163). -/
def execPrintReadyRise (s : State) : Outcome := .next (printReadyRise s)

/-- PRINT_READY_FALL (R163): read only by the start test. -/
def execPrintReadyFall (s : State) : Outcome := .next (s.setPins { s.pins with printReady := false })

/-- PRINT_FAULT_ASSERT (R168). -/
def execPrintFaultAssert (s : State) : Outcome := .next (printFaultAssert s)

/-- PRINT_FAULT_RELEASE (R163). -/
def execPrintFaultRelease (s : State) : Outcome := .next (printFaultRelease s)

/-- PRINT_TIMER_EXPIRY (R168). -/
def execPrintTimerExpiry (s : State) : Outcome := .next (printTimerExpiry s)

/-- ROW_REQUEST (R166). -/
def execRowRequest (s : State) : Outcome := .next (rowRequest s)

/-- ROW_REQUEST_FALL (R166): no effect beyond the level. -/
def execRowRequestFall (s : State) : Outcome := .next (s.setPins { s.pins with rowRequest := false })

/-- ROW_TRANSFER_END (R166, R167). -/
def execRowTransferEnd (s : State) : Outcome := .next (rowTransferEnd s)

/-- STROBE_END (R165): the start strobe drops at the end of the strobe time. -/
def execStrobeEnd (s : State) : Outcome := .next (s.setPrq { s.prq with strobe := none })

/-- DONE_PULSE_END (R167). -/
def execDonePulseEnd (s : State) : Outcome := .next (donePulseEnd s)

end Sys2Proof.Machine
end

