-- ==== Sys2Proof/Machine/Labels.lean ====
section
/-! DEFINITION. The Label Composer's requests and the completion of a rendering (chapter 10). -/

namespace Sys2Proof.Machine

open Sys2Proof

/-! ## Drawing the template (R146 to R151) -/

/-- While the hold is set, a request that would change what rendering reads is refused with PROTECTED before
every check of its own fields (R146). -/
def refuseHeld (s : State) (rest : Answer) : Answer := refuseIf s.lcp.hold .isProtected rest

/-- TPL_WINDOW by its owner (R147). -/
def tplWindow (w : Rect) (s : State) : Answer :=
  refuseHeld s <|
  refuseIf (!rectOk w) .badValue <|
  taken (s.setLcp { s.lcp with window := w, addrX := w.x0, addrY := w.y0 }) []

/-- TPL_ADDR by its owner (R147). -/
def tplAddr (x y : Nat) (s : State) : Answer :=
  refuseHeld s <|
  refuseIf (!inRect s.lcp.window x y) .badValue <|
  taken (s.setLcp { s.lcp with addrX := x, addrY := y }) []

/-- TPL_OP by its owner (R148). -/
def tplOp (op : Nat) (mask pattern : Byte) (s : State) : Answer :=
  refuseHeld s <|
  match rasterOf op with
  | none => .error .badValue
  | some o => taken (s.setLcp { s.lcp with op := o, mask := mask, pattern := pattern }) []

/-- The counter's position as a reply carries it (R150). -/
def addrBytes (l : Lcp) : List Byte := be2 l.addrX ++ be1 l.addrY

/-- TPL_WRITE by its owner (R150). -/
def tplWrite (data : List Byte) (s : State) : Answer :=
  refuseIf (!within 1 1024 data.length) .badLength <|
  refuseHeld s <|
  taken (s.setLcp (s.lcp.applyBytes data)) (addrBytes (s.lcp.applyBytes data))

/-- TPL_FILL by its owner (R150). -/
def tplFill (count : Nat) (value : Byte) (s : State) : Answer :=
  refuseHeld s <|
  refuseIf (!within 1 65535 count) .badValue <|
  taken (s.setLcp (s.lcp.fill value count)) (addrBytes (s.lcp.fill value count))

/-- The composer with its counter advanced by n pixels (R151). -/
def Lcp.moved (l : Lcp) (n : Nat) : Lcp :=
  { l with addrX := (advances l.window n l.addrX l.addrY).1
           addrY := (advances l.window n l.addrX l.addrY).2 }

/-- TPL_READ by its owner (R151), taken while the hold is set too. -/
def tplRead (count : Nat) (s : State) : Answer :=
  refuseIf (!within 1 1024 count) .badValue <|
  taken (s.setLcp (s.lcp.moved (8 * count))) (s.lcp.readBytes count s.lcp.addrX s.lcp.addrY)

/-- TPL_CLEAR by its owner (R151). -/
def tplClear (s : State) : Answer :=
  refuseHeld s <|
  taken (s.setLcp { s.lcp with template := 0#114688 }) []

/-! ## The hold (R152) -/

/-- TPL_HOLD by its owner (R152): at the passage from clear to set an attempt at completion follows. -/
def tplHold (s : State) : Answer :=
  if s.lcp.hold then taken s [] else taken (attempt (s.setLcp { s.lcp with hold := true })) []

/-- A label slot is RENDERING (R152). -/
def anyRendering (s : State) : Bool := slotNumbers.any (fun k => (slotAt s k).state == .rendering)

/-- TPL_RELEASE by its owner (R152). -/
def tplRelease (s : State) : Answer :=
  refuseIf (anyRendering s) .inUse <|
  taken (s.setLcp { s.lcp with hold := false }) []

/-! ## Glyphs, protect areas and fields (R153 to R156) -/

/-- The number that bytes spell, first byte most significant. -/
def numberOf (bytes : List Byte) : Nat := bytes.foldl (fun n b => n * 256 + b.toNat) 0

/-- Glyph i of the data of a GLYPH_WRITE whose glyphs have `size` bytes (R153). -/
def glyphBits (size : Nat) (data : List Byte) (i : Nat) : Nat := numberOf ((data.drop (size * i)).take size)

/-- The glyphs of codes first to first + count − 1 of a set replaced (R154). -/
def writeGlyphs (set first count : Nat) (data : List Byte) (l : Lcp) : Lcp :=
  let written (j : Nat) : Bool := decide (first - 0x20 ≤ j) && decide (j < first - 0x20 + count)
  if set = 0 then
    { l with small := l.small.mapFinIdx (fun j g _ =>
        if written j then BitVec.ofNat 96 (glyphBits 12 data (j - (first - 0x20))) else g) }
  else
    { l with large := l.large.mapFinIdx (fun j g _ =>
        if written j then BitVec.ofNat 384 (glyphBits 48 data (j - (first - 0x20))) else g) }

/-- The data of a GLYPH_WRITE has the length its set and count give (section 12.6). -/
def glyphLengthOk (set count : Nat) (data : List Byte) : Bool :=
  match glyphSize set with
  | none => false
  | some n => data.length == n * count

/-- GLYPH_WRITE by its owner (R154). -/
def glyphWrite (set first count : Nat) (data : List Byte) (s : State) : Answer :=
  refuseIf (!glyphLengthOk set count data) .badLength <|
  refuseHeld s <|
  refuseIf (!glyphRangeOk set first count) .badValue <|
  taken (s.setLcp (writeGlyphs set first count data s.lcp)) []

/-- PROTECT_SET by its owner (R155). -/
def protectSet (area : Nat) (used : Byte) (r : Rect) (s : State) : Answer :=
  refuseHeld s <|
  refuseIf (!within 1 4 area || (flagOf used && !rectOk r)) .badValue <|
  taken (s.setLcp { s.lcp with
    protect := tabMod s.lcp.protect area (fun _ => if flagOf used then some r else none) }) []

/-- FIELD_SET by its owner (R156). -/
def fieldSet (entry : Nat) (used : Byte) (f : Field) (s : State) : Answer :=
  refuseHeld s <|
  refuseIf (!within 1 16 entry || (flagOf used && !fieldOk f)) .badValue <|
  taken (s.setLcp { s.lcp with
    fields := tabMod s.lcp.fields entry (fun _ => if flagOf used then some f else none) }) []

/-- LCP_READ's data (R161). DESIGN CHOICE (log 36): the render engine is one byte, the slot it has taken up or 0 for
idle ("none is 0"); section 12.6 would allow a flag and then the slot too. -/
def lcpReadData (s : State) : List Byte :=
  let l := s.lcp
  rectBytes l.window ++ addrBytes l ++ be1 l.op.code ++ [l.mask] ++ [l.pattern] ++ beFlag l.hold
    ++ l.protect.toList.flatMap (beOpt 6 rectBytes) ++ l.fields.toList.flatMap (beOpt 11 fieldBytes)
    ++ be1 (l.engine.getD 0) ++ beList (fun r => be1 r.slot) l.renderOrder
    ++ be2 l.rendered ++ be2 l.clippedFields

/-! ## Completion of a rendering (R158) -/

/-- The composer after a rendering of a slot with a clipped-field list: the slot leaves the render order,
the counters rise, and the engine takes up the next slot. -/
def Lcp.finish (k : Nat) (clipped : List Nat) (l : Lcp) : Lcp :=
  Lcp.takeUp { l with engine := none, renderOrder := l.renderOrder.filter (fun r => r.slot != k)
                      rendered := bump l.rendered
                      clippedFields := min (l.clippedFields + clipped.length) 65535 }

/-- The slot takes its rendered label and joins the print order (R158); the start test follows (R163). -/
def finishRender (k number : Nat) (label : Image × List Nat) (s : State) : State :=
  let t := s.modManifest number (fun m => { m with clipped := label.2 })
  let u := t.modSlot k (fun x => { x with state := .queued, image := label.1 })
  let v := u.setPrq { u.prq with order := u.prq.order ++ [k] }
  startTest (v.setLcp (Lcp.finish k label.2 v.lcp))

/-- The completion of the rendering in progress (R158). -/
def renderCompletion (s : State) : State :=
  match s.lcp.engine with
  | none => s
  | some k =>
    match s.lcp.renderOrder.find? (fun r => r.slot == k) with
    | none => s
    | some r =>
      match manifestOf s r.bundle with
      | none => s
      | some m => finishRender k r.bundle (renderLabel s.lcp m r) s

/-! ## Commands -/

/-- TPL_WINDOW (R147, R174). -/
def execTplWindow (tag : Byte) (w : Rect) (s : State) : Outcome :=
  .next (request 0x60#8 tag (tplWindow w) s)

/-- TPL_ADDR (R147, R174). -/
def execTplAddr (tag : Byte) (x y : Nat) (s : State) : Outcome :=
  .next (request 0x61#8 tag (tplAddr x y) s)

/-- TPL_OP (R148, R174). -/
def execTplOp (tag : Byte) (op : Nat) (mask pattern : Byte) (s : State) : Outcome :=
  .next (request 0x62#8 tag (tplOp op mask pattern) s)

/-- TPL_WRITE (R150, R174). -/
def execTplWrite (tag : Byte) (data : List Byte) (s : State) : Outcome :=
  .next (request 0x63#8 tag (tplWrite data) s)

/-- TPL_FILL (R150, R174). -/
def execTplFill (tag : Byte) (count : Nat) (value : Byte) (s : State) : Outcome :=
  .next (request 0x64#8 tag (tplFill count value) s)

/-- TPL_READ (R151, R174). -/
def execTplRead (tag : Byte) (count : Nat) (s : State) : Outcome :=
  .next (request 0x65#8 tag (tplRead count) s)

/-- TPL_CLEAR (R151, R174). -/
def execTplClear (tag : Byte) (s : State) : Outcome := .next (request 0x66#8 tag tplClear s)

/-- TPL_HOLD (R152, R174). -/
def execTplHold (tag : Byte) (s : State) : Outcome := .next (request 0x67#8 tag tplHold s)

/-- TPL_RELEASE (R152, R174). -/
def execTplRelease (tag : Byte) (s : State) : Outcome := .next (request 0x68#8 tag tplRelease s)

/-- GLYPH_WRITE (R154, R174). -/
def execGlyphWrite (tag : Byte) (set first count : Nat) (data : List Byte) (s : State) : Outcome :=
  .next (request 0x69#8 tag (glyphWrite set first count data) s)

/-- PROTECT_SET (R155, R174). -/
def execProtectSet (tag : Byte) (area : Nat) (used : Byte) (r : Rect) (s : State) : Outcome :=
  .next (request 0x6A#8 tag (protectSet area used r) s)

/-- FIELD_SET (R156, R174). -/
def execFieldSet (tag : Byte) (entry : Nat) (used : Byte) (f : Field) (s : State) : Outcome :=
  .next (request 0x6B#8 tag (fieldSet entry used f) s)

/-- LCP_READ (R161, R174). -/
def execLcpRead (tag : Byte) (s : State) : Outcome :=
  .next (request 0x6C#8 tag (fun s => taken s (lcpReadData s)) s)

/-- RENDER_COMPLETION (R158). -/
def execRenderCompletion (s : State) : Outcome := .next (renderCompletion s)

end Sys2Proof.Machine
end

