-- ==== Sys2Proof/Machine/Links.lean ====
section
/-! DEFINITION. The Link Interface (chapter 12): the owners of the requests, reset, status, date, the notice
queue's requests, the two framers, replies and announcements. -/

namespace Sys2Proof.Machine

open Sys2Proof

/-! ## Reset (R177) -/

/-- Every record of every block at its value after reset, with the inputs, the waiting commands and the count
of free values kept, the levels following their inputs and the straps read (R6, R84, R118, R177). -/
def freshState (s : State) : State :=
  let r := State.reset
  { r with
    pins := s.pins, free := s.free, pending := s.pending
    ltr := { r.ltr with level := s.pins.eyes }
    fdp := { r.fdp with feedReady := s.pins.feedReady }
    srt := { r.srt with level := s.pins.drop }
    lif := { r.lif with stn := s.pins.stn, rate := s.pins.rate } }

/-- A reset performed (R177): an asserted estop input puts the line into HALTED at once (R17). -/
def resetAll (s : State) : State := if s.pins.estop then enterHalted (freshState s) else freshState s

/-- A power-on reset with the straps at given values (R177). -/
def powerOn (stn : BitVec 4) (rate : BitVec 2) (s : State) : State :=
  resetAll (s.setPins { s.pins with stn := stn, rate := rate })

/-- RESET as an addressed request (R177): replied OK first, performed at the end of the reply's last byte. -/
def resetRequest (tag : Byte) (s : State) : State :=
  match s.lif.reply with
  | some r => s.frameWhilePending r
  | none => s.setReply 0x78#8 tag .ok [] true

/-! ## Status and date (R178, R179) -/

/-- STATUS_READ's data (R178). -/
def statusData (s : State) : List Byte :=
  let l := s.lif
  ascii ['P', 'L', '3'] ++ be1 1 ++ be1 l.stn.toNat ++ be1 l.rate.toNat
    ++ be1 s.ltr.lineState.code ++ beFlag s.pins.estop
    ++ be1 s.pfc.changeover.code ++ be1 (s.pfc.active.getD 0) ++ be1 (s.pfc.target.getD 0)
    ++ be1 s.tsc.cutter.code ++ be1 s.msu.verification.code ++ be1 s.msu.status.code ++ be1 s.fdp.level
    ++ be1 (stripFree s) ++ be1 (pieceFree s) ++ be1 (blockedBins s) ++ be1 s.bdb.closingOrder.length
    ++ be1 (slotNumbers.countP (fun k => (slotAt s k).state == .free)) ++ be1 s.bdb.manifests.length
    ++ beFlag s.lcp.hold ++ be1 s.prq.port.code ++ be1 ((faultSlot s).getD 0) ++ beText 8 l.date
    ++ be1 l.notices.length ++ be2 l.nextSeq ++ beFlag l.attention
    ++ rxBytes l.controlRx ++ be2 l.pendingDiscards ++ be2 l.broadcastIgnored ++ be2 l.repliesSent
    ++ be2 l.noticeOverflow
    ++ rxBytes l.scanRx ++ be2 l.scanBadKind ++ be2 l.scanRecords ++ be2 l.announcementsSent
    ++ be2 l.announceOverflow

/-- SET_DATE by its owner (R179). -/
def setDate (date : List Byte) (s : State) : Answer :=
  refuseIf (date.length != 8) .badLength <|
  refuseIf (!dateOk date) .badValue <|
  taken (s.setLif { s.lif with date := textOf date }) []

/-! ## The notice queue's requests (R182, R183) -/

/-- The link interface with its first n notices removed (R181, R182). -/
def Lif.polled (l : Lif) (n : Nat) : Lif :=
  { l with notices := l.notices.drop n, attention := !(l.notices.drop n).isEmpty }

/-- NOTICE_POLL by its owner (R182). -/
def noticePoll (count : Nat) (s : State) : Answer :=
  refuseIf (!within 1 8 count) .badValue <|
  taken (s.setLif (s.lif.polled count))
    (beList Queued.record (s.lif.notices.take count) ++ be1 (s.lif.notices.drop count).length
      ++ be2 s.lif.noticeOverflow)

/-- NOTICE_MASK by its owner (R183). -/
def noticeMask (mask : BitVec 32) (s : State) : Answer :=
  refuseIf (decide (131072 ≤ mask.toNat)) .badValue <|
  taken (s.setLif { s.lif with masks := mask.setWidth 17 }) []

/-! ## The owners of the requests (R174) -/

/-- The owner's answer to a request handed over by the LIF (R174 step 3). RESET's is the LIF's own OK. A
command that is no request has no owner. -/
def ownerAnswer (i : Instr) (s : State) : Answer :=
  match i with
  | .lineStart _ => lineStart s
  | .lineStop _ => lineStop s
  | .lineResume _ => lineResume s
  | .lineClear _ => lineClear s
  | .lineGeometry _ g => lineGeometry g s
  | .lineRead _ => taken s (lineReadData s)
  | .stripRead _ n => stripRead n s
  | .measureSet _ c => measureSet c s
  | .gaugeTable _ ms t => gaugeTable ms t s
  | .gaugeVerify _ => gaugeVerify s
  | .gaugeCancel _ => gaugeCancelRequest s
  | .gaugeRelease _ => gaugeRelease s
  | .gaugeRead _ => taken s (gaugeReadData s)
  | .gradeSet _ n rows => gradeSet n rows s
  | .weightSet _ ws => weightSet ws s
  | .classSet _ n bs => classSet n bs s
  | .gradeRead _ => taken s (gradeReadData s)
  | .valueSet _ vs => valueSet vs s
  | .planOptions _ o => planOptions o s
  | .planRead _ => taken s (planReadData s)
  | .orderLoad _ k o => orderLoad k o s
  | .orderAmend _ k d => orderAmend k d s
  | .orderClose _ k => orderClose k s
  | .orderRead _ f n => orderRead f n s
  | .paceSet _ p => paceSet p s
  | .paceRead _ => taken s (paceReadData s)
  | .profileSet _ n p => profileSet n p s
  | .profileChange _ n => profileChange n s
  | .profileAbort _ => profileAbort s
  | .profileRead _ => taken s (profileReadData s)
  | .trimSet _ t => trimSet t s
  | .headsSet _ h => headsSet h s
  | .trimRead _ => taken s (trimReadData s)
  | .sortSet _ t => sortSet t s
  | .sortRead _ => taken s (sortReadData s)
  | .binSet _ n e b => binSet n e b s
  | .binClose _ n => binClose n s
  | .binDisable _ n => binDisable n s
  | .binRead _ n => binRead n s
  | .cartMask _ a d => cartMask a d s
  | .manifestRead _ n => manifestRead n s
  | .manifestTake _ n => manifestTake n s
  | .tplWindow _ w => tplWindow w s
  | .tplAddr _ x y => tplAddr x y s
  | .tplOp _ o m p => tplOp o m p s
  | .tplWrite _ d => tplWrite d s
  | .tplFill _ n v => tplFill n v s
  | .tplRead _ n => tplRead n s
  | .tplClear _ => tplClear s
  | .tplHold _ => tplHold s
  | .tplRelease _ => tplRelease s
  | .glyphWrite _ st f n d => glyphWrite st f n d s
  | .protectSet _ a u r => protectSet a u r s
  | .fieldSet _ e u f => fieldSet e u f s
  | .lcpRead _ => taken s (lcpReadData s)
  | .printSet _ p => printSet p s
  | .printRetry _ => printRetry s
  | .printDrop _ => printDrop s
  | .printStatus _ => taken s (printStatusData s)
  | .reset _ => taken s []
  | .statusRead _ => taken s (statusData s)
  | .setDate _ d => setDate d s
  | .noticePoll _ n => noticePoll n s
  | .noticeMask _ m => noticeMask m s
  | .powerOnReset .. | .framerByte .. | .gapTimerExpiry .. | .broadcastFrame .. | .replySent
  | .scanRecord .. | .announceSent | .estopAssert | .estopRelease | .encoderPulse ..
  | .measureLeadingEdge | .measureTrailingEdge | .scanLeadingEdge | .scanTrailingEdge
  | .sawLeadingEdge | .sawTrailingEdge | .windowExpiry .. | .deadline .. | .planCompletion | .barEnd
  | .slotEvent | .feedReadyEdge .. | .feedPulseEnd | .toolingReadyRise | .toolingReadyFall
  | .toolingTimerExpiry | .cutDue .. | .sawPulseEnd | .spinupExpiry | .hysteresisExpiry
  | .residencyExpiry | .dropLeadingEdge | .dropTrailingEdge | .dropWindowExpiry .. | .diverterFire ..
  | .diverterPulseEnd .. | .cart .. | .dischargePulseEnd .. | .renderCompletion | .printReadyRise
  | .printFaultAssert | .printFaultRelease | .printTimerExpiry | .rowRequest | .rowTransferEnd
  | .strobeEnd | .donePulseEnd | .printReadyFall | .rowRequestFall | .replyBegins => .error .badKind

/-! ## Frames (R173, R174, R176, R184) -/

/-- An addressed frame of a kind, tag and payload (R173 check 3, R174): discarded while a reply is pending;
otherwise a request, refused with BAD_KIND or BAD_LENGTH or handed to its owner. -/
def addressedFrame (kind tag : Byte) (p : List Byte) (s : State) : State :=
  match Wire.parseRequest kind tag p with
  | .ok (.reset t) => resetRequest t s
  | .ok i => request kind tag (ownerAnswer i) s
  | .error code => request kind tag (fun _ => .error code) s

/-- A broadcast frame (R173 check 3, R176): RESET, SET_DATE and LINE_STOP of the right length are acted on
with no reply, every other is ignored and counted. -/
def broadcastFrame (kind : Byte) (p : List Byte) (s : State) : State :=
  match s.lif.reply with
  | some r => s.frameWhilePending r
  | none =>
    if kind = 0x78#8 && p.length == 0 then resetAll s
    else if kind = 0x7A#8 && p.length == 8 then unanswered (setDate p) s
    else if kind = 0x11#8 && p.length == 0 then unanswered lineStop s
    else s.setLif { s.lif with broadcastIgnored := bump s.lif.broadcastIgnored }

/-- A sound frame on the scan link, by its kind (R184). -/
def scanFrame (kind : Byte) (p : List Byte) (s : State) : State :=
  if kind = 0x02#8 then scanRecordReceived p s
  else s.setLif { s.lif with scanBadKind := bump s.lif.scanBadKind }

/-! ## The framers (R172, R173) -/

/-- The framer of a link. -/
def Lif.framer (l : Lif) : Link → Framer
  | .control => l.control
  | .scan => l.scan

/-- The framer of a link replaced. -/
def Lif.setFramer (l : Lif) (f : Framer) : Link → Lif
  | .control => { l with control := f }
  | .scan => { l with scan := f }

/-- The receive counters of a link changed. -/
def Lif.modRx (l : Lif) (f : RxCounters → RxCounters) : Link → Lif
  | .control => { l with controlRx := f l.controlRx }
  | .scan => { l with scanRx := f l.scanRx }

/-- A framer in HUNT. -/
def hunting : Framer := { state := .hunt, bytes := [] }

/-- A link's framer returns to HUNT with one of its counters raised. -/
def discard (k : Link) (f : RxCounters → RxCounters) (s : State) : State :=
  s.setLif ((s.lif.setFramer hunting k).modRx f k)

/-- The payload length in the five header bytes (section 12.6). -/
def headerLength (bytes : List Byte) : Nat := Wire.u2 bytes 3

/-- The station of the PL3 (R173): 40h plus the STN value as read at the last reset. -/
def station (s : State) : Byte := 0x40#8 + s.lif.stn.setWidth 8

/-- A complete frame whose CRC is good, on the control link, by its station (R173 check 2). -/
def controlFrame (bytes p : List Byte) (s : State) : State :=
  if Wire.byteAt bytes 0 = station s then addressedFrame (Wire.byteAt bytes 1) (Wire.byteAt bytes 2) p s
  else if Wire.byteAt bytes 0 = 0xFF#8 then broadcastFrame (Wire.byteAt bytes 1) p s
  else s.setLif (s.lif.modRx (fun c => { c with wrongStation := bump c.wrongStation }) .control)

/-- A complete frame whose CRC is good, on the scan link, by its station (R173 check 2). -/
def scanLinkFrame (bytes p : List Byte) (s : State) : State :=
  if Wire.byteAt bytes 0 = 0x01#8 then scanFrame (Wire.byteAt bytes 1) p s
  else s.setLif (s.lif.modRx (fun c => { c with wrongStation := bump c.wrongStation }) .scan)

/-- The checks of a complete frame, its bytes from the station to the CRC (R173). -/
def frameCheck (k : Link) (bytes : List Byte) (s : State) : State :=
  let n := headerLength bytes
  let body := bytes.take (5 + n)
  let p := body.drop 5
  if (crc16 body).toNat = Wire.u2 bytes (5 + n) then
    match k with
    | .control => controlFrame body p s
    | .scan => scanLinkFrame body p s
  else s.setLif (s.lif.modRx (fun c => { c with crcErrors := bump c.crcErrors }) k)

/-- A byte taken in HUNT (R172). -/
def huntByte (k : Link) (b : Byte) (s : State) : State :=
  if b = 0xA7#8 then s.setLif (s.lif.setFramer { state := .header, bytes := [] } k)
  else s.setLif (s.lif.modRx (fun c => { c with noise := bump c.noise }) k)

/-- A byte taken in HEADER (R172): at the second length byte the length decides. -/
def headerByte (k : Link) (bytes : List Byte) (s : State) : State :=
  if bytes.length < 5 then s.setLif (s.lif.setFramer { state := .header, bytes := bytes } k)
  else if Config.maxPayload < headerLength bytes then
    discard k (fun c => { c with overlength := bump c.overlength }) s
  else if headerLength bytes = 0 then s.setLif (s.lif.setFramer { state := .crc, bytes := bytes } k)
  else s.setLif (s.lif.setFramer { state := .payload, bytes := bytes } k)

/-- A byte taken in PAYLOAD (R172). -/
def payloadByte (k : Link) (bytes : List Byte) (s : State) : State :=
  s.setLif (s.lif.setFramer
    { state := if bytes.length < 5 + headerLength bytes then .payload else .crc, bytes := bytes } k)

/-- A byte taken in CRC (R172): at the second CRC byte the frame is complete and the framer hunts again. -/
def crcByteTaken (k : Link) (bytes : List Byte) (s : State) : State :=
  if bytes.length < 7 + headerLength bytes then
    s.setLif (s.lif.setFramer { state := .crc, bytes := bytes } k)
  else frameCheck k bytes (s.setLif (s.lif.setFramer hunting k))

/-- The receiver of a link takes no bytes: the control link while a reply is being sent (R175). -/
def receiverOff (s : State) (k : Link) : Bool :=
  match k, s.lif.reply with
  | .control, some r => r.begun
  | _, _ => false

/-- A byte arrives on a link (R172). -/
def framerByte (k : Link) (b : Byte) (s : State) : State :=
  if receiverOff s k then s
  else
    let f := s.lif.framer k
    match f.state with
    | .hunt => huntByte k b s
    | .header => headerByte k (f.bytes ++ [b]) s
    | .payload => payloadByte k (f.bytes ++ [b]) s
    | .crc => crcByteTaken k (f.bytes ++ [b]) s

/-- The expiry of a link's gap timer, which runs outside HUNT (R172; log 32). -/
def gapExpiry (k : Link) (s : State) : State :=
  if (s.lif.framer k).state == .hunt then s
  else discard k (fun c => { c with gapErrors := bump c.gapErrors }) s

/-! ## Replies (R175) and announcements (R185) -/

/-- The bytes of a frame, from the start byte to the CRC (section 12.6). -/
def frameBytes (stationByte kind tag : Byte) (p : List Byte) : List Byte :=
  let body := [stationByte, kind, tag] ++ be2 p.length ++ p
  0xA7#8 :: body ++ be2 (crc16 body).toNat

/-- The frame of a reply (R174): the PL3's own station, the kind plus 80h, the tag, the result code and, for
OK, the data. DESIGN CHOICE (log 35): the reply to a refused kind of 80h or above carries the kind plus 80h modulo
256, since R174 does not say what one byte carries then. -/
def replyFrame (s : State) (r : Reply) : List Byte :=
  frameBytes (station s) (r.kind + 0x80#8) r.tag (be1 r.code.code ++ r.data)

/-- The frame of an announcement (R185, section 12.6). -/
def announceFrame (s : State) (a : Announcement) : List Byte :=
  frameBytes 0x01#8 0x01#8 (BitVec.ofNat 8 s.lif.announceSeq) (be2 a.tag ++ be2 a.length ++ be1 a.profile)

/-- The pending reply begins (R175): the framer returns to HUNT, a frame in progress is discarded and
counted. -/
def replyBegins (s : State) : State :=
  match s.lif.reply with
  | none => s
  | some r =>
    if r.begun then s
    else
      let l := s.lif
      s.setLif { l with
        reply := some { r with begun := true }, control := hunting
        pendingDiscards := if l.control.state == .hunt then l.pendingDiscards else bump l.pendingDiscards }

/-- The last byte of the reply has been sent (R175); the reply to a RESET is followed by the reset (R177). -/
def replySent (s : State) : State :=
  match s.lif.reply with
  | none => s
  | some r =>
    if r.begun then
      let t := s.setLif { s.lif with reply := none, control := hunting, repliesSent := bump s.lif.repliesSent }
      if r.resetAfter then resetAll t else t
    else s

/-- The last byte of an announcement has been sent (R185). -/
def announceSent (s : State) : State :=
  match s.lif.announceQueue with
  | [] => s
  | _ :: rest => s.setLif { s.lif with
      announceQueue := rest, announceSeq := (s.lif.announceSeq + 1) % 256
      announcementsSent := bump s.lif.announcementsSent }

/-! ## Commands -/

/-- RESET (R177, R174). -/
def execReset (tag : Byte) (s : State) : Outcome := .next (resetRequest tag s)

/-- STATUS_READ (R178, R174). -/
def execStatusRead (tag : Byte) (s : State) : Outcome :=
  .next (request 0x79#8 tag (fun s => taken s (statusData s)) s)

/-- SET_DATE (R179, R174). -/
def execSetDate (tag : Byte) (date : List Byte) (s : State) : Outcome :=
  .next (request 0x7A#8 tag (setDate date) s)

/-- NOTICE_POLL (R182, R174). -/
def execNoticePoll (tag : Byte) (count : Nat) (s : State) : Outcome :=
  .next (request 0x7B#8 tag (noticePoll count) s)

/-- NOTICE_MASK (R183, R174). -/
def execNoticeMask (tag : Byte) (mask : BitVec 32) (s : State) : Outcome :=
  .next (request 0x7C#8 tag (noticeMask mask) s)

/-- POWER_ON_RESET (R177). -/
def execPowerOnReset (stn : BitVec 4) (rate : BitVec 2) (s : State) : Outcome := .next (powerOn stn rate s)

/-- FRAMER_BYTE (R172). -/
def execFramerByte (k : Link) (b : Byte) (s : State) : Outcome := .next (framerByte k b s)

/-- GAP_TIMER_EXPIRY (R172). -/
def execGapTimerExpiry (k : Link) (s : State) : Outcome := .next (gapExpiry k s)

/-- BROADCAST_FRAME (R173, R176). -/
def execBroadcastFrame (kind : Byte) (p : List Byte) (s : State) : Outcome := .next (broadcastFrame kind p s)

/-- REPLY_BEGINS (R175). -/
def execReplyBegins (s : State) : Outcome := .next (replyBegins s)

/-- REPLY_SENT (R175, R177). -/
def execReplySent (s : State) : Outcome := .next (replySent s)

/-- ANNOUNCE_SENT (R185). -/
def execAnnounceSent (s : State) : Outcome := .next (announceSent s)

end Sys2Proof.Machine
end

