-- ==== Sys2Proof/Machine/Time.lean ====
section
/-! DEFINITION. The passage of 1 ms, which is what a step on an empty queue is (log 1): every running time
counts down and stops at 0. The end of a time is a command. -/

namespace Sys2Proof.Machine

open Sys2Proof

/-- A running time after 1 ms: it counts down to 0 and waits there for its end to be taken. -/
def countDown (t : Option Nat) : Option Nat := t.map (· - 1)

/-- The times that stop in HALTED (R19): the feed pulse, the saw pulse, the cutter group's timers, the
diverter and discharge pulses. -/
def tickHeld (s : State) : State :=
  let t := s.setFdp { s.fdp with feedPulse := countDown s.fdp.feedPulse }
  let u := t.setTsc { t.tsc with
    sawPulse := countDown t.tsc.sawPulse, spinTimer := countDown t.tsc.spinTimer
    hystTimer := countDown t.tsc.hystTimer, residTimer := countDown t.tsc.residTimer }
  let v := u.setSrt { u.srt with diverters := u.srt.diverters.map countDown }
  v.setBdb { v.bdb with bins := v.bdb.bins.map (fun b => { b with discharge := countDown b.discharge }) }

/-- The times that run in every line state: the tooling timer (R92) and the print times (R19, R162). -/
def tickAlways (s : State) : State :=
  let t := s.setPfc { s.pfc with timer := countDown s.pfc.timer }
  t.setPrq { t.prq with
    strobe := countDown t.prq.strobe, donePulse := countDown t.prq.donePulse
    timer := countDown t.prq.timer }

/-- 1 ms passes. -/
def tick (s : State) : State :=
  tickAlways (if s.ltr.lineState == .halted then s else tickHeld s)

end Sys2Proof.Machine
end

