-- ==== Sys2Proof/Machine/Dispatch.lean ====
section
/-! DEFINITION. The meaning of each command: one arm per constructor of Instr, each one call. -/

namespace Sys2Proof.Machine

open Sys2Proof

/-- The effect of a command on everything but the queue of waiting commands. -/
def exec (i : Instr) (s : State) : Host.Outcome State Fault Refusal :=
  match i with
  | .lineStart tag => Sys2Proof.Machine.execLineStart tag s
  | .lineStop tag => Sys2Proof.Machine.execLineStop tag s
  | .lineResume tag => Sys2Proof.Machine.execLineResume tag s
  | .lineClear tag => Sys2Proof.Machine.execLineClear tag s
  | .lineGeometry tag g => Sys2Proof.Machine.execLineGeometry tag g s
  | .lineRead tag => Sys2Proof.Machine.execLineRead tag s
  | .stripRead tag strip => Sys2Proof.Machine.execStripRead tag strip s
  | .measureSet tag comp => Sys2Proof.Machine.execMeasureSet tag comp s
  | .gaugeTable tag marks tolerance => Sys2Proof.Machine.execGaugeTable tag marks tolerance s
  | .gaugeVerify tag => Sys2Proof.Machine.execGaugeVerify tag s
  | .gaugeCancel tag => Sys2Proof.Machine.execGaugeCancel tag s
  | .gaugeRelease tag => Sys2Proof.Machine.execGaugeRelease tag s
  | .gaugeRead tag => Sys2Proof.Machine.execGaugeRead tag s
  | .gradeSet tag count rows => Sys2Proof.Machine.execGradeSet tag count rows s
  | .weightSet tag weights => Sys2Proof.Machine.execWeightSet tag weights s
  | .classSet tag count bounds => Sys2Proof.Machine.execClassSet tag count bounds s
  | .gradeRead tag => Sys2Proof.Machine.execGradeRead tag s
  | .valueSet tag values => Sys2Proof.Machine.execValueSet tag values s
  | .planOptions tag o => Sys2Proof.Machine.execPlanOptions tag o s
  | .planRead tag => Sys2Proof.Machine.execPlanRead tag s
  | .orderLoad tag line o => Sys2Proof.Machine.execOrderLoad tag line o s
  | .orderAmend tag line demand => Sys2Proof.Machine.execOrderAmend tag line demand s
  | .orderClose tag line => Sys2Proof.Machine.execOrderClose tag line s
  | .orderRead tag first count => Sys2Proof.Machine.execOrderRead tag first count s
  | .paceSet tag p => Sys2Proof.Machine.execPaceSet tag p s
  | .paceRead tag => Sys2Proof.Machine.execPaceRead tag s
  | .profileSet tag number p => Sys2Proof.Machine.execProfileSet tag number p s
  | .profileChange tag number => Sys2Proof.Machine.execProfileChange tag number s
  | .profileAbort tag => Sys2Proof.Machine.execProfileAbort tag s
  | .profileRead tag => Sys2Proof.Machine.execProfileRead tag s
  | .trimSet tag t => Sys2Proof.Machine.execTrimSet tag t s
  | .headsSet tag h => Sys2Proof.Machine.execHeadsSet tag h s
  | .trimRead tag => Sys2Proof.Machine.execTrimRead tag s
  | .sortSet tag t => Sys2Proof.Machine.execSortSet tag t s
  | .sortRead tag => Sys2Proof.Machine.execSortRead tag s
  | .binSet tag bin e b => Sys2Proof.Machine.execBinSet tag bin e b s
  | .binClose tag bin => Sys2Proof.Machine.execBinClose tag bin s
  | .binDisable tag bin => Sys2Proof.Machine.execBinDisable tag bin s
  | .binRead tag bin => Sys2Proof.Machine.execBinRead tag bin s
  | .cartMask tag arrival departure => Sys2Proof.Machine.execCartMask tag arrival departure s
  | .manifestRead tag bundle => Sys2Proof.Machine.execManifestRead tag bundle s
  | .manifestTake tag bundle => Sys2Proof.Machine.execManifestTake tag bundle s
  | .tplWindow tag w => Sys2Proof.Machine.execTplWindow tag w s
  | .tplAddr tag x y => Sys2Proof.Machine.execTplAddr tag x y s
  | .tplOp tag op mask pattern => Sys2Proof.Machine.execTplOp tag op mask pattern s
  | .tplWrite tag data => Sys2Proof.Machine.execTplWrite tag data s
  | .tplFill tag count value => Sys2Proof.Machine.execTplFill tag count value s
  | .tplRead tag count => Sys2Proof.Machine.execTplRead tag count s
  | .tplClear tag => Sys2Proof.Machine.execTplClear tag s
  | .tplHold tag => Sys2Proof.Machine.execTplHold tag s
  | .tplRelease tag => Sys2Proof.Machine.execTplRelease tag s
  | .glyphWrite tag set first count data => Sys2Proof.Machine.execGlyphWrite tag set first count data s
  | .protectSet tag area used r => Sys2Proof.Machine.execProtectSet tag area used r s
  | .fieldSet tag entry used f => Sys2Proof.Machine.execFieldSet tag entry used f s
  | .lcpRead tag => Sys2Proof.Machine.execLcpRead tag s
  | .printSet tag p => Sys2Proof.Machine.execPrintSet tag p s
  | .printRetry tag => Sys2Proof.Machine.execPrintRetry tag s
  | .printDrop tag => Sys2Proof.Machine.execPrintDrop tag s
  | .printStatus tag => Sys2Proof.Machine.execPrintStatus tag s
  | .reset tag => Sys2Proof.Machine.execReset tag s
  | .statusRead tag => Sys2Proof.Machine.execStatusRead tag s
  | .setDate tag date => Sys2Proof.Machine.execSetDate tag date s
  | .noticePoll tag count => Sys2Proof.Machine.execNoticePoll tag count s
  | .noticeMask tag mask => Sys2Proof.Machine.execNoticeMask tag mask s
  | .powerOnReset stn rate => Sys2Proof.Machine.execPowerOnReset stn rate s
  | .framerByte link b => Sys2Proof.Machine.execFramerByte link b s
  | .gapTimerExpiry link => Sys2Proof.Machine.execGapTimerExpiry link s
  | .broadcastFrame kind payload => Sys2Proof.Machine.execBroadcastFrame kind payload s
  | .replySent => Sys2Proof.Machine.execReplySent s
  | .scanRecord payload => Sys2Proof.Machine.execScanRecord payload s
  | .announceSent => Sys2Proof.Machine.execAnnounceSent s
  | .estopAssert => Sys2Proof.Machine.execEstopAssert s
  | .estopRelease => Sys2Proof.Machine.execEstopRelease s
  | .encoderPulse encoder direction => Sys2Proof.Machine.execEncoderPulse encoder direction s
  | .measureLeadingEdge => Sys2Proof.Machine.execMeasureLeadingEdge s
  | .measureTrailingEdge => Sys2Proof.Machine.execMeasureTrailingEdge s
  | .scanLeadingEdge => Sys2Proof.Machine.execScanLeadingEdge s
  | .scanTrailingEdge => Sys2Proof.Machine.execScanTrailingEdge s
  | .sawLeadingEdge => Sys2Proof.Machine.execSawLeadingEdge s
  | .sawTrailingEdge => Sys2Proof.Machine.execSawTrailingEdge s
  | .windowExpiry eye strip => Sys2Proof.Machine.execWindowExpiry eye strip s
  | .deadline strip => Sys2Proof.Machine.execDeadline strip s
  | .planCompletion => Sys2Proof.Machine.execPlanCompletion s
  | .barEnd => Sys2Proof.Machine.execBarEnd s
  | .slotEvent => Sys2Proof.Machine.execSlotEvent s
  | .feedReadyEdge blocked => Sys2Proof.Machine.execFeedReadyEdge blocked s
  | .feedPulseEnd => Sys2Proof.Machine.execFeedPulseEnd s
  | .toolingReadyRise => Sys2Proof.Machine.execToolingReadyRise s
  | .toolingReadyFall => Sys2Proof.Machine.execToolingReadyFall s
  | .toolingTimerExpiry => Sys2Proof.Machine.execToolingTimerExpiry s
  | .cutDue strip => Sys2Proof.Machine.execCutDue strip s
  | .sawPulseEnd => Sys2Proof.Machine.execSawPulseEnd s
  | .spinupExpiry => Sys2Proof.Machine.execSpinupExpiry s
  | .hysteresisExpiry => Sys2Proof.Machine.execHysteresisExpiry s
  | .residencyExpiry => Sys2Proof.Machine.execResidencyExpiry s
  | .dropLeadingEdge => Sys2Proof.Machine.execDropLeadingEdge s
  | .dropTrailingEdge => Sys2Proof.Machine.execDropTrailingEdge s
  | .dropWindowExpiry strip index => Sys2Proof.Machine.execDropWindowExpiry strip index s
  | .diverterFire strip index => Sys2Proof.Machine.execDiverterFire strip index s
  | .diverterPulseEnd bin => Sys2Proof.Machine.execDiverterPulseEnd bin s
  | .cart bin arrival => Sys2Proof.Machine.execCart bin arrival s
  | .dischargePulseEnd bin => Sys2Proof.Machine.execDischargePulseEnd bin s
  | .renderCompletion => Sys2Proof.Machine.execRenderCompletion s
  | .printReadyRise => Sys2Proof.Machine.execPrintReadyRise s
  | .printFaultAssert => Sys2Proof.Machine.execPrintFaultAssert s
  | .printFaultRelease => Sys2Proof.Machine.execPrintFaultRelease s
  | .printTimerExpiry => Sys2Proof.Machine.execPrintTimerExpiry s
  | .rowRequest => Sys2Proof.Machine.execRowRequest s
  | .rowTransferEnd => Sys2Proof.Machine.execRowTransferEnd s
  | .strobeEnd => Sys2Proof.Machine.execStrobeEnd s
  | .donePulseEnd => Sys2Proof.Machine.execDonePulseEnd s
  | .printReadyFall => Sys2Proof.Machine.execPrintReadyFall s
  | .rowRequestFall => Sys2Proof.Machine.execRowRequestFall s
  | .replyBegins => Sys2Proof.Machine.execReplyBegins s

end Sys2Proof.Machine
end

