-- ==== Sys2Proof/Machine/Step.lean ====
section
/-! DEFINITION. One step: the command at the front of the queue is executed with the queue's rest; on an
empty queue 1 ms passes (log 1). -/

namespace Sys2Proof.Machine

open Sys2Proof

/-- The state with its queue of waiting commands replaced. -/
def State.setPending (s : State) (q : List Instr) : State := { s with pending := q }

/-- One step of the machine. -/
def step (s : State) : Host.Outcome State Fault Refusal :=
  match s.pending with
  | [] => .next (tick s)
  | c :: rest => exec c (s.setPending rest)

/-- The state with the command that a word of the opcode table spells at the front of the queue; unchanged
where the word spells none (log 30). -/
def State.withFetchWord (s : State) (nbits w : Nat) : State :=
  match decodeTableWord nbits w with
  | some c => s.setPending (c :: s.pending)
  | none => s

end Sys2Proof.Machine
end

