-- ==== Sys2Proof/Safety.lean ====
section
/-! DEFINITION. What counts as a sound state of the PL3: the conditions the rules say always hold, each in the
words of the rule it cites, over the state alone. -/

namespace Sys2Proof.Machine

open Sys2Proof

/-- No queue or table holds more than its rule allows (R1, R114, R140, R180, R185). -/
def State.queuesBounded (s : State) : Prop :=
  s.ltr.strips.length ≤ 32 ∧ s.srt.pieces.length ≤ 64 ∧ s.bdb.manifests.length ≤ 32
    ∧ s.lif.notices.length ≤ 64 ∧ s.lif.announceQueue.length ≤ 32

/-- The attention output is asserted exactly while the notice queue holds a notice (R181). -/
def State.attentionSound (s : State) : Prop := s.lif.attention = !s.lif.notices.isEmpty

/-- The cutter group (R103): the run output is driven exactly in SPINUP, RUN and IDLE_WAIT; the spin-up timer
runs exactly in SPINUP, the hysteresis timer exactly in IDLE_WAIT, the residency timer only in STANDBY; the
wake latch stands only while the residency timer runs (R108). -/
def State.cutterSound (s : State) : Prop :=
  (s.tsc.runOutput = true ↔ s.tsc.cutter = .spinup ∨ s.tsc.cutter = .run ∨ s.tsc.cutter = .idleWait)
    ∧ s.tsc.spinTimer.isSome = (s.tsc.cutter == .spinup)
    ∧ s.tsc.hystTimer.isSome = (s.tsc.cutter == .idleWait)
    ∧ (s.tsc.residTimer.isSome = true → s.tsc.cutter = .standby)
    ∧ (s.tsc.wake = true → s.tsc.residTimer.isSome = true)

/-- The changeover (the table of section 6.5): the tooling request is asserted exactly in TOOLING and
TOOL_FAULT, the tooling timer runs exactly in TOOLING, a target stands exactly outside RUNNING. -/
def State.changeoverSound (s : State) : Prop :=
  s.pfc.toolingRequest = (s.pfc.changeover == .tooling || s.pfc.changeover == .toolFault)
    ∧ s.pfc.timer.isSome = (s.pfc.changeover == .tooling)
    ∧ s.pfc.target.isSome = (s.pfc.changeover != .running)

/-- No actuator output is driven (R19): feed gate, saw fire, cutter group run,
diverters, discharges. -/
def State.outputsDropped (s : State) : Prop :=
  s.fdp.feedPulse = none ∧ s.tsc.sawPulse = none ∧ s.tsc.runOutput = false
    ∧ (∀ d ∈ s.srt.diverters.toList, d = none) ∧ (∀ b ∈ s.bdb.bins.toList, b.discharge = none)

/-- In HALTED every actuator output is dropped and the cutter group is OFF (R19). -/
def State.haltedQuiet (s : State) : Prop :=
  s.ltr.lineState = .halted → s.outputsDropped ∧ s.tsc.cutter = .off

/-- In STOPPED both queues are empty (R1, R18). -/
def State.stoppedEmpty (s : State) : Prop :=
  s.ltr.lineState = .stopped → s.ltr.strips = [] ∧ s.srt.pieces = []

/-- A verification is in flight only while the line is RUNNING (R27, R30); a result is held exactly in
LATCHED (R29, R31); in ON_BAR at least one mark and at most 31 have been seen (R28). -/
def State.gaugeSound (s : State) : Prop :=
  (verifying s = true → s.ltr.lineState = .running)
    ∧ s.msu.result.isSome = (s.msu.verification == .latched)
    ∧ (s.msu.verification = .armed → s.msu.measured = [])
    ∧ (s.msu.verification = .onBar → 1 ≤ s.msu.measured.length ∧ s.msu.measured.length ≤ 31)

/-- The print port (the table of section 11.2, R165 to R168): the print timer runs exactly in BUSY, the done
output is driven exactly in DONE, the strobe and a row transfer occur only in BUSY, where at most 255 rows
have been sent. -/
def State.portSound (s : State) : Prop :=
  s.prq.timer.isSome = (s.prq.port == .busy)
    ∧ s.prq.donePulse.isSome = (s.prq.port == .done)
    ∧ (s.prq.strobe.isSome = true → s.prq.port = .busy)
    ∧ (s.prq.transfer.isSome = true → s.prq.port = .busy)
    ∧ (s.prq.port = .busy → s.prq.rowsSent ≤ 255)

/-- The window lies in the image and the address counter in the window (R146, R147). -/
def State.counterInside (s : State) : Prop :=
  s.lcp.window.x0 ≤ s.lcp.addrX ∧ s.lcp.addrX ≤ s.lcp.window.x1 ∧ s.lcp.window.x1 ≤ 447
    ∧ s.lcp.window.y0 ≤ s.lcp.addrY ∧ s.lcp.addrY ≤ s.lcp.window.y1 ∧ s.lcp.window.y1 ≤ 255

/-- Labels are rendered only while the hold is set (R152). -/
def State.renderHeld (s : State) : Prop :=
  (∃ x ∈ s.prq.slots.toList, x.state = .rendering) → s.lcp.hold = true

/-- A bin's open bundle keeps its limits (R133, R134): each row's fill, the rows used, the allocated shorts
and the number of tallies. -/
def Bin.bundleSound (x : Bin) : Prop :=
  (∀ f ∈ x.bundle.rowFills, f ≤ x.settings.length) ∧ x.bundle.rowFills.length ≤ x.settings.rows
    ∧ x.bundle.shorts ≤ shortsLimit x.settings ∧ x.bundle.tallies.length ≤ 6

/-- Every bin's open bundle keeps its limits (R134). -/
def State.bundlesSound (s : State) : Prop := ∀ x ∈ s.bdb.bins.toList, x.bundleSound

/-! ## What statements say of replies and of groups of requests -/

/-- The link interface with a reply of a code and data pending (R174). -/
def Lif.answering (l : Lif) (kind tag : Byte) (code : ResultCode) (data : List Byte) : Lif :=
  { l with reply := some { kind := kind, tag := tag, code := code, data := data, begun := false
                           resetAfter := false } }

/-- The state with nothing changed but a refusal pending (R174). -/
def State.refusedWith (s : State) (kind tag : Byte) (code : ResultCode) : State :=
  { s with lif := s.lif.answering kind tag code [] }

/-- The state in which a trim eye's input has changed and the eye's level has followed it (R6). -/
def State.sees (s : State) (e : TrimEye) (blocked : Bool) : State :=
  { s with pins := { s.pins with eyes := s.pins.eyes.put e blocked }
           ltr := { s.ltr with level := s.ltr.level.put e blocked } }

/-- A window at a trim position (R6): its opening is reached where it was, or where the position, as a signed
distance (DEDUCED, log 15), is at or past it; once reached it stays so (DEDUCED, log 16). -/
def Window.noted (w : Window) (now : Pos) : Window :=
  { w with reached := w.reached || decide (0 ≤ (now - w.opensAt).toInt) }

/-- The cutter group newly in SPINUP (R105, R108). -/
def Tsc.spinningUp (c : Tsc) : Tsc :=
  { c with cutter := .spinup, runOutput := true, spinTimer := some c.heads.spinUp, hystTimer := none
           residTimer := none, wake := false }

/-- The cutter group newly OFF (R109). -/
def Tsc.switchedOff (c : Tsc) : Tsc :=
  { c with cutter := .off, runOutput := false, spinTimer := none, hystTimer := none, residTimer := none
           wake := false }

/-- The measure unit with its verification cancelled (R30). -/
def Msu.cancelled (m : Msu) : Msu :=
  { m with verification := .idle, measured := [], origin := 0#32, barEndFrom := none }

/-- The configuration LINE_START asks for: geometry, a grade, classes, an active set (R17). -/
def State.hasConfiguration (s : State) : Prop :=
  s.ltr.geometryLoaded = true ∧ s.ple.gradesLoaded = true ∧ 1 ≤ s.ple.grades.length
    ∧ s.ple.classesLoaded = true ∧ s.pfc.active.isSome = true

/-- What a verification that has measured the values `seen` latches (R29): flag k is set for a mark not seen or
further than T from its reference; no flag set is PASS, any is SUSPECT. -/
def Msu.latches (m : Msu) (seen : List Int) (cause : GaugeCause) (m' : Msu) (n : Notice) : Prop :=
  ∃ r, m' = { m with measured := seen, barEndFrom := none, verification := .latched, result := some r
                     status := if true ∈ r.flags then .suspect else .pass }
    ∧ r.flags.length = 32 ∧ r.deviations.length = 32
    ∧ (∀ (k : Nat) (v : Int), k < 32 → seen[k]? = some v → r.deviations[k]? = some (some (v - ((m.marks.getD k 0 : Nat) : Int)))
        ∧ r.flags[k]? = some (decide ((m.tolerance : Int) < |v - ((m.marks.getD k 0 : Nat) : Int)|)))
    ∧ (∀ k : Nat, k < 32 → seen[k]? = none → r.deviations[k]? = some none ∧ r.flags[k]? = some true)
    ∧ r.markCount = seen.length ∧ r.cause = cause ∧ r.tolerance = m.tolerance ∧ r.origin = m.origin
    ∧ n = .gaugeResult (if true ∈ r.flags then .suspect else .pass) cause seen.length (r.flags.count true)

/-- A text as R179 and 00_scope give it: characters, then 00h to the end. -/
def isText (bytes : List Byte) : Prop := ∀ b ∈ textOf bytes, 0x20 ≤ b.toNat ∧ b.toNat ≤ 0x7E

/-- The fields of GRADE_SET are in range: the count, every maxsev, every name (R39 check 3). -/
def gradeFieldsOk (count : Nat) (rows : List GradeRow) : Prop :=
  1 ≤ count ∧ count ≤ 5 ∧ ∀ r ∈ rows, (∀ m ∈ r.maxsev, m ≤ 7) ∧ isText r.name

/-- A grade above a count is named by an order line not FREE or by a bin not DISABLED (R39 check 4). -/
def State.namesGradeAbove (s : State) (count : Nat) : Prop :=
  (∃ k, (lineAt s k).state ≠ .free ∧ count < (lineAt s k).grade)
    ∨ ∃ b g, (binAt s b).state ≠ .disabled ∧ (entryAt s b).grade = .only g ∧ count < g

/-- A class above a count is named by an order line not FREE or is in the class set of a bin not DISABLED
(R41 check 4). -/
def State.namesClassAbove (s : State) (count : Nat) : Prop :=
  (∃ k, (lineAt s k).state ≠ .free ∧ count < (lineAt s k).cls)
    ∨ ∃ b c, (binAt s b).state ≠ .disabled ∧ (entryAt s b).classSet.getLsbD c = true ∧ count ≤ c

/-- An order line matches a key (R71). -/
def OrderLine.matching (l : OrderLine) (grade cls colour : Nat) : Prop :=
  l.state = .opened ∧ l.grade = grade ∧ l.cls = cls ∧ (l.colour = .any ∨ l.colour = .only colour)

/-- A row of the Grade Table admits a piece (R45): the two tests, on the counting defects (R43). -/
def rowPasses (row : GradeRow) (p q dens : Nat) (ds : List Defect) : Prop :=
  (∀ d ∈ ds, 0 < overlap p q d → d.severity ≤ row.maxsev.getD d.kind 0) ∧ dens ≤ row.dlim

/-- A bin sort entry takes a piece (R121): its grade, its colour and its length class match. -/
def entryTakes (e : SortEntry) (p : Piece) : Prop :=
  (e.grade = .any ∨ e.grade = .only p.grade) ∧ (e.colour = .any ∨ e.colour = .only p.colour)
    ∧ 1 ≤ p.cls ∧ e.classSet.getLsbD (p.cls - 1) = true

/-- A defect as a scan record carries it (section 12.6). -/
def Defect.sent (d : Defect) : List Byte :=
  be2 d.start ++ be2 d.extent ++ be1 d.kind ++ be1 d.severity ++ be1 d.face

/-- A defect whose fields a sound scan record can carry (R33, R34). -/
def Defect.sendable (d : Defect) : Prop :=
  d.start < 65536 ∧ d.extent < 65536 ∧ d.kind ≤ 7 ∧ d.severity < 256 ∧ d.face ≤ 3

/-- No hold of R82 applies. -/
def State.feedFree (s : State) : Prop :=
  s.ltr.lineState = .running ∧ s.ltr.strips.length < 32 ∧ s.pfc.changeover = .running ∧ verifying s = false
    ∧ (s.tsc.cutter = .run ∨ (s.tsc.cutter = .spinup ∧ s.tsc.spinTimer.getD 0 ≤ s.tsc.travelMs))

/-- The pacer after a HELD slot: HELD and the held-by counter of every hold that applies rise (R83, R85). -/
def Fdp.afterHold (f : Fdp) (s : State) : Fdp :=
  { f with
    held := min (f.held + 1) 65535
    heldLine := if s.ltr.lineState ≠ .running then min (f.heldLine + 1) 65535 else f.heldLine
    heldTracking := if 32 ≤ s.ltr.strips.length then min (f.heldTracking + 1) 65535 else f.heldTracking
    heldProfile := if s.pfc.changeover ≠ .running then min (f.heldProfile + 1) 65535 else f.heldProfile
    heldGauge := if verifying s then min (f.heldGauge + 1) 65535 else f.heldGauge
    heldCutter := if s.tsc.cutter = .run ∨ (s.tsc.cutter = .spinup ∧ s.tsc.spinTimer.getD 0 ≤ s.tsc.travelMs)
                  then f.heldCutter else min (f.heldCutter + 1) 65535 }

/-- What a slot event does with the slot that begins, its index, boundary and, at slot 0, period already advanced
(R83): SKIPPED, HELD, EMPTY or FED by the first condition that holds. A HELD slot with the feed-ready eye blocked and
CUTTER the only hold reports a waiting strip, which in STANDBY sets the wake latch or starts the cutters (R108); with
another hold none is reported. -/
def State.slotDecided (s t : State) : Prop :=
  ∀ gap other : Prop, (gap ↔ s.fdp.slotIndex * s.fdp.gapCount / 16 < (s.fdp.slotIndex + 1) * s.fdp.gapCount / 16) →
    (other ↔ s.ltr.lineState ≠ .running ∨ 32 ≤ s.ltr.strips.length ∨ s.pfc.changeover ≠ .running
      ∨ verifying s = true) →
    (gap → t = { s with fdp := { s.fdp with skipped := min (s.fdp.skipped + 1) 65535 } })
    ∧ (¬ gap → ¬ s.feedFree → (s.fdp.feedReady = false ∨ other ∨ s.tsc.cutter ≠ .standby) →
        t = { s with fdp := s.fdp.afterHold s })
    ∧ (¬ gap → s.fdp.feedReady = true → ¬ other → s.tsc.cutter = .standby →
        (∀ m, s.tsc.residTimer = some m →
          t = { s with fdp := s.fdp.afterHold s, tsc := { s.tsc with wake := true } })
        ∧ (s.tsc.residTimer = none →
          t = { s with fdp := s.fdp.afterHold s, tsc := s.tsc.spinningUp
                       lif := s.lif.raise (.cutterState .spinup .standby .wake) }))
    ∧ (¬ gap → s.feedFree → s.fdp.feedReady = false →
        t = { s with fdp := { s.fdp with empty := min (s.fdp.empty + 1) 65535 } })
    ∧ (¬ gap → s.feedFree → s.fdp.feedReady = true →
        ∃ r, t = { s with
            ltr := { s.ltr with strips := s.ltr.strips ++ [r], nextTag := tagAfter s.ltr.nextTag }
            fdp := { s.fdp with fed := min (s.fdp.fed + 1) 65535, feedPulse := some s.fdp.settings.feedPulse } }
          ∧ r.tag = s.ltr.nextTag ∧ r.profile = s.pfc.active.getD 0 ∧ r.phase = .fed ∧ r.announced = false
          ∧ r.status = .pending ∧ r.stray = false ∧ r.leadPos = none ∧ r.length = none ∧ r.scan = none
          ∧ r.plan = none ∧ r.scanWin = none ∧ r.sawWin = none ∧ r.deadline = none ∧ r.deadlineDone = false
          ∧ ∃ w, r.measureWin = some w ∧ w.opensAt = s.ltr.trimPos
            ∧ w.closesAt = s.ltr.trimPos + umOfMm s.ltr.geometry.feedWindow ∧ w.reached = true)

/-! ## What statements say of close completions and close requests (R131, R137 to R140) -/

/-- The manifest written at the close completion of bin b (R140). -/
def State.manifestWritten (s : State) (b : Nat) (m : Manifest) : Prop :=
  m.number = s.bdb.nextBundle ∧ m.bin = b ∧ m.worst = (binAt s b).bundle.worst
    ∧ m.colour = (binAt s b).bundle.colour.getD .mixed ∧ m.perClass = (binAt s b).bundle.perClass
    ∧ m.pieces = (binAt s b).bundle.landed ∧ m.lineal = (binAt s b).bundle.lineal
    ∧ m.shorts = (binAt s b).bundle.shortsLanded ∧ m.rows = (binAt s b).bundle.rowFills.length
    ∧ m.tallies = (binAt s b).bundle.tallies ∧ m.profile = (binAt s b).bundle.profile
    ∧ m.gauge = s.msu.status ∧ m.date = s.lif.date ∧ (∀ r, (binAt s b).reason = some r → m.reason = r)
    ∧ m.label = .pending ∧ m.discharged = false ∧ m.clipped = [] ∧ m.check = crc16 m.checkFields

/-- The close completion of bin b, the first of the closing order, into label slot k (R139, R140, R143, R158): its
manifest joins the table under the next number, the slot begins rendering with its render record, BUNDLE_CLOSED is
queued, and the bin leaves the order for WAIT_CART, discharging at once into a cart that is present. -/
def State.completesClose (s : State) (b k : Nat) (t : State) : Prop :=
  ∃ (m : Manifest) (r : RenderRecord), s.manifestWritten b m
    ∧ t = { s with
        bdb := { s.bdb with
          bins := t.bdb.bins, manifests := s.bdb.manifests ++ [m], closingOrder := s.bdb.closingOrder.tail
          nextBundle := if s.bdb.nextBundle < 4294967295 then s.bdb.nextBundle + 1 else 1 }
        lcp := { s.lcp with renderOrder := s.lcp.renderOrder ++ [r], engine := t.lcp.engine }
        prq := { s.prq with slots := t.prq.slots }
        lif := s.lif.raise (.bundleClosed m.number b m.reason m.pieces m.lineal m.worst) }
    ∧ (∀ j, j ≠ b → binAt t j = binAt s j)
    ∧ (1 ≤ b → b ≤ 14 → ∃ d, binAt t b = { binAt s b with state := .waitCart, discharge := d }
        ∧ ((binAt s b).discharge = none →
          d = if tabGet s.pins.carts b = some true ∧ s.ltr.lineState ≠ .halted then
                some (binAt s b).settings.dischargePulse else none))
    ∧ (∀ j, j ≠ k → slotAt t j = slotAt s j)
    ∧ slotAt t k = { slotAt s k with state := .rendering, bundle := some m.number, attempts := 0 }
    ∧ r.slot = k ∧ r.bundle = m.number ∧ r.classCount = s.ple.bounds.length
    ∧ (∀ row, 1 ≤ m.worst → s.ple.grades[m.worst - 1]? = some row → r.gradeName = row.name)
    ∧ (∀ p, tabGet s.pfc.sets m.profile = some (some p) → r.profileId = p.profileId ∧ r.species = p.species)
    ∧ ((∀ p, tabGet s.pfc.sets m.profile ≠ some (some p)) → r.profileId = [] ∧ r.species = [])
    ∧ (s.lcp.engine.isSome = true → t.lcp.engine = s.lcp.engine)
    ∧ (s.lcp.engine = none → t.lcp.engine = ((s.lcp.renderOrder ++ [r]).head?).map (·.slot))

/-- At most n close completions (R138): each time the first bin of the closing order into the lowest FREE label slot,
until the order is empty, the manifest table full, the hold clear or no slot FREE. -/
def State.attempted : Nat → State → State → Prop
  | 0, s, t => t = s
  | n + 1, s, t =>
    ((s.bdb.closingOrder = [] ∨ 32 ≤ s.bdb.manifests.length ∨ s.lcp.hold = false
        ∨ ∀ k, 1 ≤ k → k ≤ 4 → (slotAt s k).state ≠ .free) → t = s)
    ∧ ∀ b rest k, s.bdb.closingOrder = b :: rest → s.bdb.manifests.length < 32 → s.lcp.hold = true →
        1 ≤ k → k ≤ 4 → (slotAt s k).state = .free → (∀ j, 1 ≤ j → j < k → (slotAt s j).state ≠ .free) →
        ∃ u, s.completesClose b k u ∧ u.attempted n t

/-- An attempt at completion (R138): the bins in CLOSING complete one after another while the three resources last; a
completion takes one bin from the closing order, so as many completions as it holds are all there can be. -/
def State.closesWaiting (s t : State) : Prop := s.attempted s.bdb.closingOrder.length t

/-- A bin in CLOSE_PENDING with no piece incoming passes to CLOSING, joins the closing order, and an attempt is made
(R130, R137, R138); any other bin stays as it is. -/
def State.settles (s : State) (b : Nat) (t : State) : Prop :=
  ((binAt s b).state = .closePending → (binAt s b).incoming = 0 →
    ∃ u, u = { s with bdb := { s.bdb with bins := u.bdb.bins, closingOrder := s.bdb.closingOrder ++ [b] } }
      ∧ (∀ j, j ≠ b → binAt u j = binAt s j) ∧ binAt u b = { binAt s b with state := .closing }
      ∧ u.closesWaiting t)
  ∧ ((binAt s b).state ≠ .closePending ∨ (binAt s b).incoming ≠ 0 → t = s)

/-- A close request (R131): taken by an OPEN bin, which is CLOSE_PENDING with its reason and, with no piece incoming,
goes on to CLOSING at once. -/
def State.requestsClose (s : State) (b : Nat) (reason : CloseReason) (t : State) : Prop :=
  ((binAt s b).state = .opened →
    ∃ u, u = { s with bdb := { s.bdb with bins := u.bdb.bins } }
      ∧ (∀ j, j ≠ b → binAt u j = binAt s j)
      ∧ binAt u b = { binAt s b with
          state := .closePending, reason := some reason
          toDisabled := (binAt s b).toDisabled || decide (reason = .disable) }
      ∧ u.settles b t)
  ∧ ((binAt s b).state ≠ .opened → t = s)

/-- The bundles of the bins listed closed for a changeover, in the order listed (R90 step 1): each OPEN bin with
something allocated gets a PROFILE close request. -/
def State.profileCloses : List Nat → State → State → Prop
  | [], s, t => t = s
  | b :: bs, s, t => ∃ u : State,
      ((binAt s b).state = .opened → (binAt s b).bundle.rowFills ≠ [] → s.requestsClose b .profile u)
      ∧ ((binAt s b).state ≠ .opened ∨ (binAt s b).bundle.rowFills = [] → u = s)
      ∧ u.profileCloses bs t

/-! ## What statements say of planning (R51, R54 to R58) -/

/-- The points of R54 before they are held within the usable region: its two ends; for each defect the multiple of 5
at or before its start, and the multiple of 5 at or after its end and at least K past the first; with the region
longer than Lmax', the two ends of the longest piece from either end. -/
def Snapshot.pointed (n : Snapshot) (l : Nat) (ds : List Defect) (p : Nat) : Prop :=
  p = n.endTrim ∨ p = l - n.endTrim
    ∨ (∃ d ∈ ds, 5 ∣ p ∧ ((p ≤ d.start ∧ d.start < p + 5)
        ∨ ∃ m, m = max (d.start + d.extent) (5 * (d.start / 5) + n.allowance) ∧ m ≤ p ∧ p < m + 5))
    ∨ (n.lmaxUsed < l - 2 * n.endTrim ∧ (p = n.endTrim + n.lmaxUsed ∨ p = l - n.endTrim - n.lmaxUsed))

/-- Record a is better than record b (R58). -/
def Best.over (a b : Best) : Prop :=
  b.value < a.value ∨ a.value = b.value ∧ (a.count < b.count ∨ a.count = b.count ∧ b.length < a.length)

/-- Record g is the predecessor G(i) of a boundary b_i (R57), F holding the best records of the boundaries bs. -/
def precedes (k : Nat) (bs : List Nat) (F : List Best) (bi : Nat) (g : Best) : Prop :=
  (∀ (h bh : Nat), bs[h]? = some bh → bh + k ≤ bi →
      (∀ (h' bh' : Nat), h < h' → bs[h']? = some bh' → bi < bh' + k) → F[h]? = some g)
    ∧ ((∀ bh ∈ bs, bi < bh + k) → g = { value := 0, count := 0, length := 0, pieces := [] })

/-- Record c is what candidate [b_i, b_j) is worth (R57): it is admissible, and c is G(i) with its piece added. -/
def worth (e : Ple) (n : Snapshot) (ds : List Defect) (bs : List Nat) (F : List Best) (i j : Nat) (c : Best) :
    Prop :=
  ∃ (bi bj : Nat) (p : PlannedPiece) (g : Best), bs[i]? = some bi ∧ bs[j]? = some bj
    ∧ candidate e n ds bi bj = some p ∧ precedes n.allowance bs F bi g
    ∧ c = { value := g.value + p.value, count := g.count + 1, length := g.length + p.net, pieces := p :: g.pieces }

/-- Record f is the best record of boundary j > 0 (R57): of SKIP, F(j − 1), and the admissible candidates [b_i, b_j)
for i ascending, the first that no other is better than. -/
def bestRecord (e : Ple) (n : Snapshot) (ds : List Defect) (bs : List Nat) (F : List Best) (j : Nat) (f : Best) :
    Prop :=
  (F[j - 1]? = some f ∧ ∀ i c, i < j → worth e n ds bs F i j c → ¬ c.over f)
    ∨ ∃ (i : Nat) (skip : Best), i < j ∧ F[j - 1]? = some skip ∧ worth e n ds bs F i j f ∧ f.over skip
      ∧ (∀ i' c, i' < i → worth e n ds bs F i' j c → f.over c)
      ∧ ∀ i' c, i < i' → i' < j → worth e n ds bs F i' j c → ¬ c.over f

/-! ## What statements say of releases (R74), of the engine (R48 to R50) and of what follows a removal -/

/-- What a list of releases, each of an amount from a number, takes from number k. -/
def takenFrom (k : Nat) (rs : List (Nat × Nat)) : Nat := ((rs.filter (fun r => r.1 = k)).map (·.2)).sum

/-- The numbers that a list of releases empties, in the order of the releases that empty them: of those that
wait for it, each the first time that what it held is all taken (R77 for order lines, R22 for bins). -/
def emptied (waits : Nat → Bool) (held : Nat → Nat) (rs : List (Nat × Nat)) : List Nat :=
  (List.range rs.length).filterMap (fun i => (rs[i]?).bind (fun r =>
    if waits r.1 = true ∧ held r.1 ≤ takenFrom r.1 (rs.take (i + 1))
        ∧ (r.1 ∈ (rs.take i).map (·.1) → takenFrom r.1 (rs.take i) < held r.1) then some r.1 else none))

/-- The reservations a strip record holds: in a READY plan, the length of each piece not yet created that has an
order line, in plan order (R72, R73). -/
def Strip.reservations (r : Strip) : List (Nat × Nat) :=
  if r.status = .ready then (r.plan.getD []).filterMap (fun p =>
    if p.created = true then none else p.line.map (fun k => (k, p.net)))
  else []

/-- The reservation a Piece Sort Queue entry holds (R73). -/
def Piece.reservations (p : Piece) : List (Nat × Nat) := (p.line.map (fun k => (k, p.net))).toList

/-- Order line k after releases (R74, R77). -/
def OrderLine.released (l : OrderLine) (k : Nat) (rs : List (Nat × Nat)) : OrderLine :=
  { l with
    reserved := l.reserved - takenFrom k rs
    state := if l.state = .draining ∧ k ∈ rs.map (·.1) ∧ l.reserved ≤ takenFrom k rs then .free else l.state }

/-- The ORDER_DONE notices of releases: one for each DRAINING line they empty (R77). -/
def State.ordersDone (s : State) (rs : List (Nat × Nat)) : List Notice :=
  (emptied (fun k => (lineAt s k).state == .draining) (fun k => (lineAt s k).reserved) rs).map (fun k =>
    .orderDone k (lineAt s k).reference (lineAt s k).demand (lineAt s k).fulfilled (lineAt s k).landed
      (lineAt s k).filled)

/-- What LINE_CLEAR releases: the reservations of the strip records, then those of the pieces, oldest first (R22);
that the records too go oldest first is the model's choice (DESIGN CHOICE, log 38). -/
def State.allReservations (s : State) : List (Nat × Nat) :=
  s.ltr.strips.flatMap Strip.reservations ++ s.srt.pieces.flatMap Piece.reservations

/-- The bins of the ASSIGNED pieces, oldest first, each counting 1 in its bin's incoming count (R22, R130). -/
def State.arrivals (s : State) : List (Nat × Nat) :=
  s.srt.pieces.filterMap (fun p => match p.place with | .assigned b _ _ => some (b, 1) | .expected _ => none)

/-- What the engine copies when it takes up a strip (R50), with the order factor of each grade and class by the
lookup of R71 (R56). -/
def State.copies (s : State) (r : Strip) (n : Snapshot) : Prop :=
  n.gauge = s.msu.status ∧ n.margin = s.ple.options.margin ∧ n.values = s.ple.values
    ∧ n.stockPct = s.ple.options.stockPct ∧ n.overrunPct = s.ple.options.overrunPct
    ∧ (∀ p, tabGet s.pfc.sets r.profile = some (some p) →
        n.endTrim = p.endTrim ∧ n.allowance = p.allowance ∧ n.lmin = p.lmin ∧ n.lmax = p.lmax)
    ∧ ∀ g c, 1 ≤ g → g ≤ s.ple.grades.length → 1 ≤ c → c ≤ s.ple.bounds.length →
        (lookup s g c ((r.scan.map (·.colour)).getD 0) = none → n.factor g c = s.ple.options.stockPct)
        ∧ ∀ k, lookup s g c ((r.scan.map (·.colour)).getD 0) = some k →
          ((0 : Int) < (lineAt s k).demand - (lineAt s k).fulfilled - (lineAt s k).reserved → n.factor g c = 100)
          ∧ (((lineAt s k).demand : Int) - (lineAt s k).fulfilled - (lineAt s k).reserved ≤ 0 →
              n.factor g c = s.ple.options.overrunPct)

/-- The IDLE engine of s takes up the oldest eligible record, or none where no record is eligible (R48, R49). -/
def State.takesUp (s t : State) : Prop :=
  ((∀ x ∈ s.ltr.strips, x.eligible = false) → t = s)
    ∧ ∀ (older younger : List Strip) (r : Strip), s.ltr.strips = older ++ r :: younger →
        (∀ x ∈ older, x.eligible = false) → r.eligible = true →
        ∃ n, s.copies r n ∧ t = { s with
          ple := { s.ple with engine := some { tag := r.tag, snapshot := n } }
          ltr := { s.ltr with strips := s.ltr.strips.map (fun x => if x.tag = r.tag then
            { x with status := .computing } else x) } }

/-- Both queues are empty (R18, R90). -/
def State.queuesEmpty (s : State) : Prop := s.ltr.strips = [] ∧ s.srt.pieces = []

/-- STOPPING ends at an event that leaves both queues empty (R18): STOPPED, and the cutter group OFF. -/
def State.stopsWhenEmpty (s t : State) : Prop :=
  (s.ltr.lineState = .stopping → s.queuesEmpty → t = { s with
    ltr := { s.ltr with lineState := .stopped }, tsc := s.tsc.switchedOff
    lif := if s.tsc.cutter = .off then s.lif.raise (.lineState .stopped .stopping .drained)
           else (s.lif.raise (.lineState .stopped .stopping .drained)).raise
             (.cutterState .off s.tsc.cutter .line) })
  ∧ ((s.ltr.lineState ≠ .stopping ∨ ¬ s.queuesEmpty) → t = s)

/-- The test of the idle condition (R106): from RUN, with no strip record, the feed-ready eye clear and H above
0, the cutter group passes to IDLE_WAIT with the hysteresis timer started. -/
def State.idlesWhenEmpty (s t : State) : Prop :=
  (s.tsc.cutter = .run → s.ltr.strips = [] → s.fdp.feedReady = false → 0 < s.tsc.heads.hysteresis → t = { s with
    tsc := { s.tsc with cutter := .idleWait, runOutput := true, hystTimer := some s.tsc.heads.hysteresis }
    lif := s.lif.raise (.cutterState .idleWait .run .idle) })
  ∧ ((s.tsc.cutter ≠ .run ∨ s.ltr.strips ≠ [] ∨ s.fdp.feedReady = true ∨ s.tsc.heads.hysteresis = 0) → t = s)

/-- No bin that is OPEN has anything allocated (R90 step 1 closes none). -/
def State.nothingOpen (s : State) : Prop := ∀ b, (binAt s b).state = .opened → (binAt s b).bundle.rowFills = []

/-- The changeover after a drain that ends (R90): TOOLING with the request asserted and the tooling timer running
for the target's tooling limit. -/
def State.toolingBegun (s : State) (p : Pfc) : Prop :=
  p = { s.pfc with changeover := .tooling, toolingRequest := true, timer := p.timer }
    ∧ ∀ n x, s.pfc.target = some n → tabGet s.pfc.sets n = some (some x) →
        p.timer = some (x.toolingLimit * 1000)

/-- The drain test (R90): in DRAINING with both queues empty the bundles are closed in ascending bin number, and the
changeover passes to TOOLING, told after them; with nothing to close nothing else changes. -/
def State.toolsWhenEmpty (s t : State) : Prop :=
  (s.pfc.changeover = .draining → s.queuesEmpty →
    s.toolingBegun t.pfc
    ∧ t = { s with pfc := t.pfc, bdb := t.bdb, lcp := t.lcp, prq := t.prq, lif := t.lif }
    ∧ (∃ u, s.profileCloses [1, 2, 3, 4, 5, 6, 7, 8, 9, 10, 11, 12, 13, 14] u ∧ t = { u with
        pfc := t.pfc
        lif := u.lif.raise (.profileState .tooling .draining s.pfc.target s.pfc.active .drained) })
    ∧ (s.nothingOpen → t = { s with
        pfc := t.pfc
        lif := s.lif.raise (.profileState .tooling .draining s.pfc.target s.pfc.active .drained) }))
  ∧ ((s.pfc.changeover ≠ .draining ∨ ¬ s.queuesEmpty) → t = s)

/-- What follows the removal of a strip record, in this order: the end of STOPPING (R18), the idle condition (R106), the
drain test (R90). R18 puts the first before the last; the place of the idle condition is the model's (log 12). -/
def State.afterRemoval (s t : State) : Prop :=
  ∃ u v, s.stopsWhenEmpty u ∧ u.idlesWhenEmpty v ∧ v.toolsWhenEmpty t

/-- What follows the landing or removal of a piece, in this order (R114): the end of STOPPING (R18), the drain test
(R90). -/
def State.afterPieceRemoval (s t : State) : Prop := ∃ u, s.stopsWhenEmpty u ∧ u.toolsWhenEmpty t

/-- A strip record is removed, missing or done at the saw (R12, R14, R102): it goes with its cut list and holders, its
reservations are released (R74, R77; before the notices that follow, the model's choice, log 37), a computation of it
is abandoned (R62), and what follows a removal follows. -/
def State.removesStrip (s : State) (r : Strip) (t : State) : Prop :=
  ∃ u v : State, u = { s with
      ltr := { s.ltr with strips := s.ltr.strips.filter (fun x => x.tag ≠ r.tag), holder := u.ltr.holder }
      tsc := { s.tsc with cutLists := s.tsc.cutLists.filter (fun c => c.tag ≠ r.tag) }
      otu := u.otu
      lif := (s.ordersDone r.reservations).foldl Lif.raise s.lif }
    ∧ (∀ e, u.ltr.holder.get e = if s.ltr.holder.get e = some r.tag then none else s.ltr.holder.get e)
    ∧ (∀ k, lineAt u k = (lineAt s k).released k r.reservations)
    ∧ ((∀ c, s.ple.engine = some c → c.tag ≠ r.tag) → v = u)
    ∧ (∀ c, s.ple.engine = some c → c.tag = r.tag → { u with ple := { u.ple with engine := none } }.takesUp v)
    ∧ v.afterRemoval t

/-! ## What statements say of pieces and of the saw (R99 to R102, R116) and of landings (R75) -/

/-- A piece created is handed to the Sort Controller (R116): it joins the queue as EXPECTED until the drop window's
end, a new drop_window counting from its taking (DESIGN CHOICE, log 41), or, with 64 entries held, its reservation is released and it is counted as SORT_FULL, in the bin 0 total too. -/
def State.entersPiece (s : State) (p : Piece) (t : State) : Prop :=
  (s.srt.pieces.length < 64 → t = { s with srt := { s.srt with
    pieces := s.srt.pieces ++ [{ p with place := .expected (s.srt.pos + umOfMm s.srt.settings.dropWindow) }] } })
  ∧ (64 ≤ s.srt.pieces.length → t = { s with
      srt := { s.srt with sortFull := min (s.srt.sortFull + 1) 65535
                          bin0Total := min (s.srt.bin0Total + p.net) 4294967295 }
      otu := t.otu
      lif := (s.ordersDone p.reservations).foldl Lif.raise s.lif }
    ∧ ∀ k, lineAt t k = (lineAt s k).released k p.reservations)

/-- Planned piece i, counted from 0, of the strip of record r is created, unless it has been (R99): its record marks
it, it is counted, and it is handed over with FORCE_BIN0 after a slip. -/
def State.createsPlanned (s : State) (c : CutList) (r : Strip) (i : Nat) (t : State) : Prop :=
  ((r.plan.getD [])[i]? = none → t = s) ∧ ∀ p, (r.plan.getD [])[i]? = some p →
    (p.created = true → t = s)
    ∧ (p.created = false → State.entersPiece { s with
        ltr := { s.ltr with strips := s.ltr.strips.map (fun x => if x.tag = r.tag then
          { x with plan := x.plan.map (fun ps => ps.modify i (fun p => { p with created := true })) } else x) }
        tsc := { s.tsc with created := min (s.tsc.created + 1) 65535 } }
        { tag := r.tag, index := i + 1, start := p.start, stop := p.stop, net := p.net, grade := p.grade
          cls := p.cls, value := p.value, line := p.line, colour := (r.scan.map (·.colour)).getD 0
          profile := r.profile, force := decide (c.slip = .slip), place := .expected 0#32 } t)

/-- The uncut piece of the strip of record r is created (R100): index and grade 0, from the last cut made to the
strip's length, or to the length measured at the saw where the first is absent. -/
def State.createsUncut (s : State) (c : CutList) (r : Strip) (t : State) : Prop :=
  ∃ n, (∀ l, r.length = some l → n = l) ∧ (∀ l, r.length = none → c.length2 = some l → n = l)
    ∧ State.entersPiece { s with tsc := { s.tsc with created := min (s.tsc.created + 1) 65535 } }
      { tag := r.tag, index := 0, start := c.lastMade, stop := n, net := n - c.lastMade, grade := 0, cls := 0
        value := 0, line := none, colour := (r.scan.map (·.colour)).getD 0, profile := r.profile
        force := decide (c.slip = .slip), place := .expected 0#32 } t

/-- Planned piece j, counted from 0, of a cut list runs to the strip's end and is cut at its start, or begins at the
leading end, with no cut missed (R99, R101 step 1). -/
def CutList.endPiece (c : CutList) (r : Strip) (j : Nat) : Prop :=
  ∃ (l : Nat) (p : PlannedPiece), r.length = some l ∧ c.plan[j]? = some p ∧ p.stop = l
    ∧ (∀ k ∈ c.cuts, k.state ≠ .missed) ∧ (p.start = 0 ∨ ∃ k ∈ c.cuts, k.x = p.start ∧ k.state = .made)
    ∧ ∀ i q, i < j → c.plan[i]? = some q → q.stop = l → q.start ≠ 0 ∧ ∀ k ∈ c.cuts, k.x = q.start → k.state ≠ .made

/-- The test of a strip's end at the saw (R102): with its trailing edge seen and no cut PENDING its record and cut list
go; otherwise both stay. -/
def State.doneAtSaw (s : State) (tag : Nat) (t : State) : Prop :=
  ∃ c r, s.tsc.cutLists.find? (fun x => x.tag == tag) = some c ∧ stripOf s tag = some r
    ∧ (c.trailSeen = true → (∀ k ∈ c.cuts, k.state ≠ .pending) → s.removesStrip r t)
    ∧ ((c.trailSeen = false ∨ ∃ k ∈ c.cuts, k.state = .pending) → t = s)

/-- An order line after a piece of length n has landed on it (R75 to R77). -/
def OrderLine.credited (l : OrderLine) (n : Nat) : OrderLine :=
  { l with
    reserved := l.reserved - n, fulfilled := min (l.fulfilled + n) 4294967295, landed := min (l.landed + 1) 65535
    filled := l.filled || decide (l.demand ≤ min (l.fulfilled + n) 4294967295)
    state := if l.state = .draining ∧ l.reserved ≤ n then .free else l.state }

/-- The notices of that landing on line k, in the order of R75. -/
def OrderLine.creditNotices (l : OrderLine) (k n : Nat) : List Notice :=
  (if l.filled = false ∧ (l.credited n).filled = true then
    [.orderFilled k l.reference l.demand (l.credited n).fulfilled (l.credited n).reserved .landing] else [])
  ++ (if l.state = .draining ∧ l.reserved ≤ n then
    [.orderDone k l.reference l.demand (l.credited n).fulfilled (l.credited n).landed (l.credited n).filled] else [])

/-- The start test of the print engine (R163, R165): with the port IDLE, no slot in FAULT, ready true and the
fault input released, the first slot of the print order begins to print; otherwise none does. -/
def State.startsPrint (s t : State) : Prop :=
  ((s.prq.port ≠ .idle ∨ (∃ x ∈ s.prq.slots.toList, x.state = .fault) ∨ s.prq.order = []
      ∨ s.pins.printReady = false ∨ s.pins.printFault = true) → t = s)
  ∧ ∀ k rest x, s.prq.port = .idle → (∀ x ∈ s.prq.slots.toList, x.state ≠ .fault) →
      s.prq.order = k :: rest → s.pins.printReady = true → s.pins.printFault = false →
      tabGet s.prq.slots k = some x →
      ∃ v, t = { s with prq := { s.prq with
          slots := v, order := rest, port := .busy, sending := k, rowsSent := 0, transfer := none
          strobe := some s.prq.settings.strobe, timer := some (s.prq.settings.timer * 1000)
          inForce := s.prq.settings } }
        ∧ tabGet v k = some { x with state := .printing, attempts := min 255 (x.attempts + 1) }
        ∧ ∀ j, j ≠ k → tabGet v j = tabGet s.prq.slots j

/-! ## What statements say of the drawing of fields (R153, R156, R159) -/

/-- Pixel (column, row) of the glyph drawn for a character is ink (R153): a code outside 20h to 7Fh is drawn with
glyph 3Fh. -/
def Lcp.inked (l : Lcp) (set : Nat) (c : Byte) (column row : Nat) : Prop :=
  ∃ code, (0x20 ≤ c.toNat ∧ c.toNat ≤ 0x7F → code = c.toNat)
    ∧ (¬ (0x20 ≤ c.toNat ∧ c.toNat ≤ 0x7F) → code = 0x3F)
    ∧ (set = 0 → ∃ g, l.small[code - 0x20]? = some g ∧ g.getMsbD (8 * row + column) = true)
    ∧ (set ≠ 0 → ∃ g, l.large[code - 0x20]? = some g ∧ g.getMsbD (16 * row + column) = true)

/-- The leftmost column of a field w pixels wide: x under LEFT, x − w + 1 under RIGHT (R156, R159). -/
def leftColumn (f : Field) (w : Nat) : Int := if f.align = 0 then f.x else (f.x : Int) - w + 1

/-- (x, y) is a target of a text field (R156), of a glyph pixel of 1 (ink) or of 0: of the block that the glyph
pixel of one of the first max characters covers, the cells side by side from the field's left column. -/
def textCovers (f : Field) (l : Lcp) (t : Text) (ink : Bool) (x : Int) (y : Nat) : Prop :=
  ∃ wide high cell : Nat, (f.glyphSet = 0 → wide = 8 ∧ high = 12) ∧ (f.glyphSet ≠ 0 → wide = 16 ∧ high = 24)
    ∧ cell = wide * f.scale
    ∧ ∃ (i column row dx dy : Nat) (c : Byte), (t.take f.maxChars)[i]? = some c ∧ column < wide ∧ row < high
      ∧ dx < f.scale ∧ dy < f.scale ∧ (ink = true ↔ l.inked f.glyphSet c column row)
      ∧ x = leftColumn f ((t.take f.maxChars).length * cell) + i * cell + f.scale * column + dx
      ∧ y = f.y + f.scale * row + dy

/-- (x, y) is a target of a code strip (R159): of the columns of one of its bars, each bar followed by a space of
2 modules, over the strip's height. -/
def stripCovers (f : Field) (number : Nat) (check : BitVec 16) (x : Int) (y : Nat) : Prop :=
  ∃ k b dx dy : Nat, (stripBars number check)[k]? = some b ∧ dx < b * f.moduleWidth ∧ dy < f.height
    ∧ x = leftColumn f (stripWidth number check * f.moduleWidth)
        + (((stripBars number check).take k).sum + 2 * k) * f.moduleWidth + dx
    ∧ y = f.y + dy

/-- (x, y) is a target of a field of a label, inked or not (R156, R159): of its code strip, whose targets are all
inked, or of its text (R157). -/
def fieldCovers (f : Field) (l : Lcp) (m : Manifest) (r : RenderRecord) (ink : Bool) (x : Int) (y : Nat) : Prop :=
  (f.kind = 12 → ink = true ∧ stripCovers f m.number m.check x y)
    ∧ (f.kind ≠ 12 → textCovers f l (fieldText m r f.kind) ink x y)

/-- (x, y) lies past the label edge (R156 step 5). -/
def pastEdge (x : Int) (y : Nat) : Prop := x < 0 ∨ 447 < x ∨ 255 < y

/-! ## What statements say of a resume (R21, R84, R118, R143) -/

/-- The command that tells of a trim eye's edge. -/
def edgeOf : TrimEye → Bool → Instr
  | .measure, true => .measureLeadingEdge
  | .measure, false => .measureTrailingEdge
  | .scan, true => .scanLeadingEdge
  | .scan, false => .scanTrailingEdge
  | .saw, true => .sawLeadingEdge
  | .saw, false => .sawTrailingEdge

/-- A trim eye's level catches up with its input (R21): where they differ the change is taken as one edge, by the
command of that edge on the state whose input still stands at the held level. -/
def State.eyeCatchesUp (s : State) (e : TrimEye) (t : State) : Prop :=
  (s.ltr.level.get e = s.pins.eyes.get e → t = s)
    ∧ (s.ltr.level.get e ≠ s.pins.eyes.get e → exec (edgeOf e (s.pins.eyes.get e))
        { s with pins := { s.pins with eyes := s.pins.eyes.put e (s.ltr.level.get e) } } = .next t)

/-- The drop eye's level catches up with its input (R118), in the same way. -/
def State.dropCatchesUp (s t : State) : Prop :=
  (s.srt.level = s.pins.drop → t = s)
    ∧ (s.srt.level = false → s.pins.drop = true →
        exec .dropLeadingEdge { s with pins := { s.pins with drop := false } } = .next t)
    ∧ (s.srt.level = true → s.pins.drop = false →
        exec .dropTrailingEdge { s with pins := { s.pins with drop := true } } = .next t)

/-- The feed-ready eye's level catches up with its input (R84), in the same way. -/
def State.feedCatchesUp (s t : State) : Prop :=
  (s.fdp.feedReady = s.pins.feedReady → t = s)
    ∧ (s.fdp.feedReady ≠ s.pins.feedReady →
        exec (.feedReadyEdge s.pins.feedReady)
          { s with pins := { s.pins with feedReady := s.fdp.feedReady } } = .next t)

/-! ## What statements say of records of bytes (section 12.6) -/

/-- The k bytes at an offset hold the number n, most significant byte first. -/
def holdsNumber (bs : List Byte) (offset k n : Nat) : Prop :=
  ∀ i, i < k → bs[offset + i]? = some (BitVec.ofNat 8 (n / 256 ^ (k - 1 - i)))

/-- Each of a list of fields, an offset, a number of bytes and a number, is held. -/
def holdsNumbers (bs : List Byte) (fields : List (Nat × Nat × Nat)) : Prop :=
  ∀ f ∈ fields, holdsNumber bs f.1 f.2.1 f.2.2

/-- The k bytes at an offset hold a text, left-aligned, with 00h beyond its last character. -/
def holdsText (bs : List Byte) (offset k : Nat) (t : Text) : Prop :=
  ∀ i, i < k → bs[offset + i]? = some (t.getD i 0#8)

/-- The bytes are the 160 check fields of a manifest, each at its offset in the manifest record. -/
def Manifest.checkLaid (m : Manifest) (bs : List Byte) : Prop :=
  bs.length = 160
    ∧ holdsNumbers bs [(0, 4, m.number), (4, 1, m.bin), (5, 1, m.worst),
        (6, 1, match m.colour with | .one c => c | .mixed => 0xFE),
        (23, 2, m.pieces), (25, 4, m.lineal), (29, 4, m.shorts), (33, 1, m.rows), (34, 1, m.tallies.length),
        (149, 1, m.profile), (150, 1, [GaugeStatus.unverified, .pass, .suspect].idxOf m.gauge),
        (159, 1, [CloseReason.full, .requested, .profile, .disable].idxOf m.reason)]
    ∧ (∀ c n, 1 ≤ c → c ≤ 8 → tabGet m.perClass c = some n → holdsNumber bs (7 + 2 * (c - 1)) 2 n)
    ∧ (∀ i t, i < 6 → m.tallies[i]? = some t →
        holdsNumbers bs [(35 + 19 * i + 13, 2, t.pieces), (35 + 19 * i + 15, 4, t.mm)]
        ∧ (∀ r, t.key = .order r → holdsNumber bs (35 + 19 * i) 1 0 ∧ holdsText bs (35 + 19 * i + 1) 12 r)
        ∧ (t.key = .stock → holdsNumber bs (35 + 19 * i) 1 1 ∧ holdsText bs (35 + 19 * i + 1) 12 []))
    ∧ (∀ i, i < 6 → m.tallies.length ≤ i → holdsText bs (35 + 19 * i) 19 [])
    ∧ holdsText bs 151 8 m.date

/-- The bytes are the manifest record of 181 bytes: the check fields, the check value, and what changes after the
writing. -/
def Manifest.laid (m : Manifest) (bs : List Byte) : Prop :=
  bs.length = 181 ∧ m.checkLaid (bs.take 160)
    ∧ holdsNumbers bs [(160, 2, m.check.toNat), (162, 1, [LabelState.pending, .printed, .lost].idxOf m.label),
        (163, 1, m.discharged.toNat), (164, 1, m.clipped.length)]
    ∧ holdsText bs 165 16 (m.clipped.map (BitVec.ofNat 8))

/-- A plan status in a notice: an UNCUT status is 4 plus its reason's place. -/
def PlanStatus.sent : PlanStatus → Nat
  | .pending => 0
  | .computing => 1
  | .ready => 2
  | .uncut r => 4 + [UncutReason.noScan, .noLength, .late, .outOfRange, .stray, .noYield].idxOf r

/-- A record of 32 bytes holds a notice from offset 2 on: the kind code, the length of its detail, and from offset 4
the detail of the table of section 12.6. -/
def Notice.laid (bs : List Byte) : Notice → Prop
  | .stripLost tag eye status => holdsNumbers bs [(2, 1, 0), (3, 1, 4), (4, 2, tag),
      (6, 1, [Eye.measure, .scan, .saw, .drop].idxOf eye), (7, 1, status.sent)]
  | .stray eye pos tag => holdsNumbers bs [(2, 1, 1), (3, 1, 7),
      (4, 1, [Eye.measure, .scan, .saw, .drop].idxOf eye), (5, 4, pos.toNat), (9, 2, tag)]
  | .stripSlip tag l l2 marked assigned => holdsNumbers bs [(2, 1, 2), (3, 1, 8), (4, 2, tag), (6, 2, l),
      (8, 2, l2), (10, 1, marked), (11, 1, assigned)]
  | .scanDiscard reason tag count => holdsNumbers bs [(2, 1, 3), (3, 1, 4),
      (4, 1, [DiscardReason.malformed, .unknownTag, .duplicate, .late].idxOf reason), (5, 2, tag), (7, 1, count)]
  | .planLate tag reason abandoned => holdsNumbers bs [(2, 1, 4), (3, 1, 4), (4, 2, tag),
      (6, 1, [UncutReason.noScan, .noLength, .late, .outOfRange, .stray, .noYield].idxOf reason),
      (7, 1, abandoned.toNat)]
  | .pieceLost tag index net grade line force => holdsNumbers bs [(2, 1, 5), (3, 1, 8), (4, 2, tag),
      (6, 1, index), (7, 2, net), (9, 1, grade), (10, 1, line), (11, 1, force.toNat)]
  | .orderFilled line reference demand fulfilled reserved cause => holdsNumbers bs [(2, 1, 6), (3, 1, 26),
      (4, 1, line), (17, 4, demand), (21, 4, fulfilled), (25, 4, reserved),
      (29, 1, [FillCause.landing, .amend].idxOf cause)] ∧ holdsText bs 5 12 reference
  | .orderDone line reference demand fulfilled landed filled => holdsNumbers bs [(2, 1, 7), (3, 1, 24),
      (4, 1, line), (17, 4, demand), (21, 4, fulfilled), (25, 2, landed), (27, 1, filled.toNat)]
      ∧ holdsText bs 5 12 reference
  | .paceLevel new old track sort bins trackFree sortFree blocked => holdsNumbers bs [(2, 1, 8), (3, 1, 8),
      (4, 1, new), (5, 1, old), (6, 1, track), (7, 1, sort), (8, 1, bins), (9, 1, trackFree), (10, 1, sortFree),
      (11, 1, blocked)]
  | .profileState new left target active cause => holdsNumbers bs [(2, 1, 9), (3, 1, 5),
      (4, 1, [Changeover.running, .draining, .tooling, .toolFault].idxOf new),
      (5, 1, [Changeover.running, .draining, .tooling, .toolFault].idxOf left),
      (6, 1, target.getD 0), (7, 1, active.getD 0),
      (8, 1, [ProfileCause.request, .drained, .ready, .timeout].idxOf cause)]
  | .cutterState new left cause => holdsNumbers bs [(2, 1, 10), (3, 1, 3),
      (4, 1, [Cutter.off, .spinup, .run, .idleWait, .standby].idxOf new),
      (5, 1, [Cutter.off, .spinup, .run, .idleWait, .standby].idxOf left),
      (6, 1, [CutterCause.request, .line, .estop, .spunUp, .idle, .activity, .hysteresis, .wake].idxOf cause)]
  | .gaugeResult outcome cause marks flags => holdsNumbers bs [(2, 1, 11), (3, 1, 4),
      (4, 1, [GaugeOutcome.pass, .suspect, .cancelled].idxOf outcome),
      (5, 1, [GaugeCause.mark32, .barEnd, .request, .line, .estop].idxOf cause), (6, 1, marks), (7, 1, flags)]
  | .bundleClosed number bin reason pieces lineal worst => holdsNumbers bs [(2, 1, 12), (3, 1, 13),
      (4, 4, number), (8, 1, bin), (9, 1, [CloseReason.full, .requested, .profile, .disable].idxOf reason),
      (10, 2, pieces), (12, 4, lineal), (16, 1, worst)]
  | .labelPrinted number slot attempts => holdsNumbers bs [(2, 1, 13), (3, 1, 6), (4, 4, number), (8, 1, slot),
      (9, 1, attempts)]
  | .printFault number slot cause rows attempts => holdsNumbers bs [(2, 1, 14), (3, 1, 9), (4, 4, number),
      (8, 1, slot), (9, 1, [PrintCause.faultInput, .timeout].idxOf cause), (10, 2, rows), (12, 1, attempts)]
  | .cart bin arrival => holdsNumbers bs [(2, 1, 15), (3, 1, 2), (4, 1, bin), (5, 1, if arrival then 0 else 1)]
  | .lineState new left cause => holdsNumbers bs [(2, 1, 16), (3, 1, 3),
      (4, 1, [LineState.stopped, .running, .stopping, .halted].idxOf new),
      (5, 1, [LineState.stopped, .running, .stopping, .halted].idxOf left),
      (6, 1, [LineCause.request, .drained, .estop].idxOf cause)]

/-- The bytes are the notice record of 32 bytes: the sequence number, the notice, and 00h beyond its detail. -/
def Queued.laid (q : Queued) (bs : List Byte) : Prop :=
  bs.length = 32 ∧ holdsNumber bs 0 2 q.seq ∧ q.notice.laid bs
    ∧ ∀ n i, bs[3]? = some n → 4 + n.toNat ≤ i → i < 32 → bs[i]? = some 0#8

/-! ## Groups of requests -/

/-- The requests refused with HALTED in HALTED (the table of R20). -/
def refusedInHalted : Instr → Bool
  | .lineStart _ | .lineStop _ | .lineGeometry _ _ | .gaugeVerify _ | .gradeSet _ _ _ | .weightSet _ _
  | .classSet _ _ _ | .valueSet _ _ | .planOptions _ _ | .orderLoad _ _ _ | .orderAmend _ _ _
  | .orderClose _ _ | .paceSet _ _ | .profileSet _ _ _ | .profileChange _ _ | .profileAbort _
  | .headsSet _ _ | .trimSet _ _ | .sortSet _ _ | .binSet _ _ _ _ | .binClose _ _ | .binDisable _ _ => true
  | _ => false

/-- The requests refused with PROTECTED while the hold is set (R146). -/
def refusedWhileHeld : Instr → Bool
  | .tplWindow _ _ | .tplAddr _ _ _ | .tplOp _ _ _ _ | .tplWrite _ _ | .tplFill _ _ _ | .tplClear _
  | .glyphWrite _ _ _ _ _ | .protectSet _ _ _ _ | .fieldSet _ _ _ _ => true
  | _ => false

end Sys2Proof.Machine
end

