-- ==== Sys2Proof/WellFormed.lean ====
section
/-! DEFINITION. Which commands can be sent: every operand fits the bytes that carry it (section 12.6), and an
event names a tag, an index or a bin that can exist. Whether a request is then taken is its rule's matter. -/

namespace Sys2Proof

/-- A value that 1 byte holds. -/
def fits1 (n : Nat) : Bool := decide (n < 256)

/-- A value that 2 bytes hold. -/
def fits2 (n : Nat) : Bool := decide (n < 65536)

/-- A value that 4 bytes hold. -/
def fits4 (n : Nat) : Bool := decide (n < 4294967296)

/-- A signed value that 2 bytes hold. -/
def fitsI2 (n : Int) : Bool := decide (-32768 ≤ n) && decide (n ≤ 32767)

/-- A match field: ANY has FFh to itself. -/
def fitsWanted : Wanted → Bool
  | .any => true
  | .only n => decide (n < 255)

/-- LINE_GEOMETRY's fields (R5). -/
def fitsGeometry (g : Geometry) : Bool :=
  fits2 g.scale && fits2 g.dScan && fits2 g.dSaw && fits1 g.eyeTol && fits2 g.planLead && fits2 g.feedWindow

/-- A Grade Table row (R39). -/
def fitsGradeRow (r : GradeRow) : Bool :=
  r.name.length == 8 && r.maxsev.length == 8 && r.maxsev.all fits1 && fits2 r.dlim

/-- PLAN_OPTIONS' fields (R53). -/
def fitsOptions (o : PlanOptions) : Bool := fits1 o.margin && fits1 o.stockPct && fits1 o.overrunPct

/-- ORDER_LOAD's fields (R67). -/
def fitsOrder (o : OrderFields) : Bool :=
  o.reference.length == 12 && fits1 o.grade && fits1 o.cls && fitsWanted o.colour && fits4 o.demand

/-- PACE_SET's fields (R79). -/
def fitsPace (p : PaceSettings) : Bool :=
  fits2 p.scale && fits2 p.slotPitch && fits2 p.feedPulse
    && fits1 p.t1 && fits1 p.t2 && fits1 p.t3 && fits1 p.s1 && fits1 p.s2 && fits1 p.s3
    && fits1 p.b1 && fits1 p.b2 && fits1 p.b3 && fits1 p.g1 && fits1 p.g2 && fits1 p.g3

/-- PROFILE_SET's fields (R86). -/
def fitsProfile (p : ProfileSet) : Bool :=
  p.species.length == 4 && p.profileId.length == 8 && fits2 p.width && fits1 p.thickness
    && fits1 p.endTrim && fits1 p.allowance && fits2 p.lmin && fits2 p.lmax && fits2 p.toolingLimit

/-- TRIM_SET's fields (R96). -/
def fitsTrim (t : TrimSettings) : Bool :=
  fits2 t.sawDistance && fits2 t.sawLead && fits2 t.sawPulse && fits1 t.slipTol && fitsI2 t.sawComp

/-- HEADS_SET's fields (R104). -/
def fitsHeads (h : HeadsSettings) : Bool :=
  fits4 h.hysteresis && fits4 h.residency && fits2 h.spinUp && fits4 h.path && fits2 h.speed

/-- A bin sort entry (R121). -/
def fitsSortEntry (e : SortEntry) : Bool :=
  fitsWanted e.grade && fitsWanted e.colour && fits2 e.offset && fits2 e.lead && fits2 e.pulse

/-- The bundle settings (R129). -/
def fitsBundle (b : BundleSettings) : Bool :=
  fits2 b.length && fits1 b.rows && fits1 b.gap && fits2 b.closeSlack && fits2 b.shortsThreshold
    && fits1 b.shortsShare && fits2 b.dischargePulse

/-- A rectangle (R146). -/
def fitsRect (r : Rect) : Bool := fits2 r.x0 && fits2 r.x1 && fits1 r.y0 && fits1 r.y1

/-- The items of a Field Table entry (R156). -/
def fitsField (f : Field) : Bool :=
  fits1 f.kind && fits2 f.x && fits1 f.y && fits1 f.glyphSet && fits1 f.scale && fits1 f.maxChars
    && fits1 f.align && fits1 f.ink && fits1 f.moduleWidth && fits1 f.height

/-- The print settings (R164). -/
def fitsPrint (p : PrintSettings) : Bool :=
  fits1 p.timer && fits1 p.strobe && fits1 p.done && fits1 p.byteTime

/-- GLYPH_WRITE's operands (section 12.6): a set that exists, a payload within 1,040 bytes. -/
def fitsGlyphs (set first count : Nat) (data : List Byte) : Bool :=
  decide (set ≤ 1) && fits1 first && fits1 count
    && data.length == (if set = 0 then 12 else 48) * count && decide (3 + data.length ≤ Config.maxPayload)

/-- A strip tag (R3). -/
def isTag (n : Nat) : Bool := decide (1 ≤ n) && decide (n ≤ 65535)

/-- A piece index (R99, R100). -/
def isIndex (n : Nat) : Bool := decide (n ≤ 8)

/-- A bin with outputs of its own. -/
def isBin (n : Nat) : Bool := decide (1 ≤ n) && decide (n ≤ 14)

/-- A payload a frame can carry (R172). -/
def isPayload (p : List Byte) : Bool := decide (p.length ≤ Config.maxPayload)

/-- A command that can be sent. -/
def Instr.wellFormed : Instr → Bool
  | .lineGeometry _ g => fitsGeometry g
  | .stripRead _ n => fits2 n
  | .measureSet _ c => fitsI2 c
  | .gaugeTable _ ms t => ms.length == 32 && ms.all fits4 && fits2 t
  | .gradeSet _ n rows =>
    rows.length == n && decide (1 + 18 * n ≤ Config.maxPayload) && rows.all fitsGradeRow
  | .weightSet _ ws => ws.length == 8 && ws.all fits1
  | .classSet _ n bs => fits1 n && bs.length == n && bs.all fits2
  | .valueSet _ vs => vs.length == 40 && vs.all fits2
  | .planOptions _ o => fitsOptions o
  | .orderLoad _ k o => fits1 k && fitsOrder o
  | .orderAmend _ k d => fits1 k && fits4 d
  | .orderClose _ k => fits1 k
  | .orderRead _ f n => fits1 f && fits1 n
  | .paceSet _ p => fitsPace p
  | .profileSet _ n p => fits1 n && fitsProfile p
  | .profileChange _ n => fits1 n
  | .trimSet _ t => fitsTrim t
  | .headsSet _ h => fitsHeads h
  | .sortSet _ t => fits2 t.scale && fits2 t.dropWindow
  | .binSet _ n e b => fits1 n && fitsSortEntry e && fitsBundle b
  | .binClose _ n | .binDisable _ n | .binRead _ n => fits1 n
  | .manifestRead _ n | .manifestTake _ n => fits4 n
  | .tplWindow _ w => fitsRect w
  | .tplAddr _ x y => fits2 x && fits1 y
  | .tplOp _ o _ _ => fits1 o
  | .tplWrite _ d => decide (1 ≤ d.length) && decide (d.length ≤ 1024)
  | .tplFill _ n _ => fits2 n
  | .tplRead _ n => fits2 n
  | .glyphWrite _ st f n d => fitsGlyphs st f n d
  | .protectSet _ a _ r => fits1 a && fitsRect r
  | .fieldSet _ e _ f => fits1 e && fitsField f
  | .printSet _ p => fitsPrint p
  | .setDate _ d => d.length == 8
  | .noticePoll _ n => fits1 n
  | .broadcastFrame _ p => isPayload p
  | .scanRecord p => isPayload p
  | .windowExpiry _ t | .deadline t | .cutDue t => isTag t
  | .dropWindowExpiry t i | .diverterFire t i => isTag t && isIndex i
  | .diverterPulseEnd b | .dischargePulseEnd b => isBin b
  | .cart b _ => isBin b
  | .lineStart _ | .lineStop _ | .lineResume _ | .lineClear _ | .lineRead _ | .gaugeVerify _
  | .gaugeCancel _ | .gaugeRelease _ | .gaugeRead _ | .gradeRead _ | .planRead _ | .paceRead _
  | .profileAbort _ | .profileRead _ | .trimRead _ | .sortRead _ | .cartMask .. | .tplClear _
  | .tplHold _ | .tplRelease _ | .lcpRead _ | .printRetry _ | .printDrop _ | .printStatus _ | .reset _
  | .statusRead _ | .noticeMask .. | .powerOnReset .. | .framerByte .. | .gapTimerExpiry _ | .replySent
  | .announceSent | .estopAssert | .estopRelease | .encoderPulse .. | .measureLeadingEdge
  | .measureTrailingEdge | .scanLeadingEdge | .scanTrailingEdge | .sawLeadingEdge | .sawTrailingEdge
  | .planCompletion | .barEnd | .slotEvent | .feedReadyEdge _ | .feedPulseEnd | .toolingReadyRise
  | .toolingReadyFall | .toolingTimerExpiry | .sawPulseEnd | .spinupExpiry | .hysteresisExpiry
  | .residencyExpiry | .dropLeadingEdge | .dropTrailingEdge | .renderCompletion | .printReadyRise
  | .printFaultAssert | .printFaultRelease | .printTimerExpiry | .rowRequest | .rowTransferEnd
  | .strobeEnd | .donePulseEnd | .printReadyFall | .rowRequestFall | .replyBegins => true

end Sys2Proof
end

