-- ==== Sys2Proof/Certificates/Slice0/Obligations.lean ====
section
/-! DEFINITION. The statements for the provers. `exec c s = .next t` says that command c completes in state s
with t its next state. Where a statement writes `t = { s with … }`, every block not named is unchanged. -/

open Sys2Proof Sys2Proof.Machine

/-! ## The step -/

/-- A step takes the command at the front of the queue and is that command's execution with the queue's rest.
Every command completes, and none changes the queue of waiting commands. This second clause rests on the model's
choices: an event that cannot occur in the state completes and changes nothing (DESIGN CHOICE, log 3), and a reset
keeps the waiting commands (DESIGN CHOICE, log 20). -/
def Obligations.StepRunsTheFrontCommand : Prop :=
  (∀ (s : State) (c : Instr) (rest : List Instr),
     s.pending = c :: rest → step s = exec c { s with pending := rest })
  ∧ (∀ (c : Instr) (s : State), ∃ t, exec c s = .next t ∧ t.pending = s.pending)

/-- On an empty queue a step is 1 ms (the model's choice, log 1): every running time falls by 1 and stops at
0; in HALTED the times of the feed, saw, cutters, diverters and discharges stand still (R19), the tooling
timer (R92) and the print times run on. Nothing else changes. -/
def Obligations.EmptyQueuePassesOneMs : Prop :=
  ∀ s : State, s.pending = [] →
    ∃ t, step s = .next t
      ∧ t = { s with fdp := t.fdp, tsc := t.tsc, srt := t.srt, bdb := t.bdb, pfc := t.pfc, prq := t.prq }
      ∧ t.pfc = { s.pfc with timer := s.pfc.timer.map (· - 1) }
      ∧ t.prq = { s.prq with strobe := s.prq.strobe.map (· - 1), donePulse := s.prq.donePulse.map (· - 1)
                             timer := s.prq.timer.map (· - 1) }
      ∧ (s.ltr.lineState = .halted →
          t.fdp = s.fdp ∧ t.tsc = s.tsc ∧ t.srt = s.srt ∧ t.bdb = s.bdb)
      ∧ (s.ltr.lineState ≠ .halted →
          t.fdp = { s.fdp with feedPulse := s.fdp.feedPulse.map (· - 1) }
          ∧ t.tsc = { s.tsc with
              sawPulse := s.tsc.sawPulse.map (· - 1), spinTimer := s.tsc.spinTimer.map (· - 1)
              hystTimer := s.tsc.hystTimer.map (· - 1), residTimer := s.tsc.residTimer.map (· - 1) }
          ∧ t.srt = { s.srt with diverters := s.srt.diverters.map (fun d => d.map (· - 1)) }
          ∧ t.bdb = { s.bdb with bins := s.bdb.bins.map (fun b =>
              { b with discharge := b.discharge.map (· - 1) }) })

/-- The state after reset meets every invariant below. RESET as a request is answered OK first and changes
nothing until its reply is sent (R177). A power-on reset puts every record at its value after reset, with the
levels following their inputs and the straps read; with the estop input asserted the line is then in HALTED, and that
entry's notice has sequence number 0. The model's choices: what a reset keeps of inputs and queue (DESIGN CHOICE,
log 20), and in State.reset, with which the clauses compare, every value the spec gives none for: the unloaded
geometry, the gauge origin and count, the last period's figures, the rows sent and the sending slot, the print
settings in force (DESIGN CHOICE, log 11, unsafe). -/
def Obligations.ResetLeavesTheInitialState : Prop :=
  (State.reset.queuesBounded ∧ State.reset.attentionSound ∧ State.reset.cutterSound
     ∧ State.reset.changeoverSound ∧ State.reset.haltedQuiet ∧ State.reset.stoppedEmpty
     ∧ State.reset.gaugeSound ∧ State.reset.portSound ∧ State.reset.counterInside
     ∧ State.reset.renderHeld ∧ State.reset.bundlesSound)
  ∧ (∀ s : State,
       (∀ g, s.lif.reply = none → exec (.reset g) s = .next { s with
         lif := { s.lif with reply := some { kind := 0x78#8, tag := g, code := .ok, data := [], begun := false
                                             resetAfter := true } } })
       ∧ (∀ stn rate, s.pins.estop = false → exec (.powerOnReset stn rate) s = .next { State.reset with
           pins := { s.pins with stn := stn, rate := rate }
           ltr := { State.reset.ltr with level := s.pins.eyes }
           fdp := { State.reset.fdp with feedReady := s.pins.feedReady }
           srt := { State.reset.srt with level := s.pins.drop }
           lif := { State.reset.lif with stn := stn, rate := rate }
           free := s.free, pending := s.pending })
       ∧ (∀ stn rate, s.pins.estop = true → exec (.powerOnReset stn rate) s = .next { State.reset with
           pins := { s.pins with stn := stn, rate := rate }
           ltr := { State.reset.ltr with level := s.pins.eyes, lineState := .halted }
           fdp := { State.reset.fdp with feedReady := s.pins.feedReady }
           srt := { State.reset.srt with level := s.pins.drop }
           lif := { State.reset.lif with
             stn := stn, rate := rate, nextSeq := 1, attention := true
             notices := [{ seq := 0, notice := .lineState .halted .stopped .estop }] }
           free := s.free, pending := s.pending }))

/-! ## What every step keeps -/

/-- The queues and tables keep their capacities (R1, R114, R140, R180, R185). -/
def Obligations.QueuesStayBounded : Prop :=
  ∀ s t : State, s.queuesBounded → step s = .next t → t.queuesBounded

/-- The attention output stays asserted exactly while a notice is queued (R181). After reset the attention
output is released (R181). -/
def Obligations.AttentionFollowsTheQueue : Prop :=
  (∀ s t : State, s.attentionSound → step s = .next t → t.attentionSound)
  ∧ (State.reset.lif.attention = false ∧ State.reset.lif.notices = [])

/-- The cutter group's run output, timers and wake latch stay as its state says (R103, R108). The tooling
request, the tooling timer and the target stay as the changeover state says (section 6.5). The print port's
timer, outputs and row count stay as its state says (section 11.2). -/
def Obligations.ControllersStaySound : Prop :=
  (∀ s t : State, s.cutterSound → step s = .next t → t.cutterSound)
  ∧ (∀ s t : State, s.changeoverSound → step s = .next t → t.changeoverSound)
  ∧ (∀ s t : State, s.portSound → step s = .next t → t.portSound)

/-- In HALTED every actuator output stays dropped and the cutter group OFF (R19). In STOPPED both queues stay
empty (R1, R18). A verification stays in flight only while the line is RUNNING (R27 to R31). -/
def Obligations.LineStatesStaySound : Prop :=
  (∀ s t : State, s.haltedQuiet → step s = .next t → t.haltedQuiet)
  ∧ (∀ s t : State, s.stoppedEmpty → step s = .next t → t.stoppedEmpty)
  ∧ (∀ s t : State, s.gaugeSound → step s = .next t → t.gaugeSound)

/-- The address counter stays inside the window, and the window inside the image (R146, R147). Labels are
rendered only while the hold flag is set (R152). -/
def Obligations.LabelsStaySound : Prop :=
  (∀ s t : State, s.counterInside → step s = .next t → t.counterInside)
  ∧ (∀ s t : State, s.renderHeld → step s = .next t → t.renderHeld)

/-- Every open bundle keeps its row length, its rows, its shorts limit and its six tallies (R134). -/
def Obligations.BundlesKeepTheirLimits : Prop :=
  ∀ s t : State, s.bundlesSound → step s = .next t → t.bundlesSound

/-! ## Requests on the wire -/

/-- Every well-formed request read back from its kind, tag and payload is that request (section 12.6). -/
def Obligations.RequestReadsBack : Prop :=
  ∀ (i : Instr) (k g : Byte) (p : List Byte),
    i.wellFormed = true → Wire.writeRequest i = some (k, g, p) → Wire.parseRequest k g p = .ok i

/-- The bytes of a well-formed request's frame, taken one by one by the hunting control framer with no reply pending,
have exactly the effect of the request (R172 to R174). A frame is the start byte A7h, the station, here 40h plus the
STN value, the kind, the tag, the length, the payload, and the CRC of all but the start (R173, section 12.6). That a
request command is its sound frame and that the frame's last byte runs it in the same step are the model's readings
(DEDUCED, logs 4 and 5). -/
def Obligations.FrameBytesAreTheRequest : Prop :=
  (∀ (s : State), (station s).toNat = 0x40 + s.lif.stn.toNat)
  ∧ (∀ (st k g : Byte) (p : List Byte), p.length ≤ 1040 → ∃ hi lo : Byte,
       frameBytes st k g p = [0xA7#8, st, k, g, BitVec.ofNat 8 (p.length / 256), BitVec.ofNat 8 p.length] ++ p
         ++ [hi, lo]
       ∧ hi.toNat * 256 + lo.toNat = (crc16 ([st, k, g, BitVec.ofNat 8 (p.length / 256), BitVec.ofNat 8 p.length]
           ++ p)).toNat)
  ∧ ∀ (i : Instr) (k g : Byte) (p : List Byte) (s : State),
    i.wellFormed = true → Wire.writeRequest i = some (k, g, p) →
    s.lif.control = { state := .hunt, bytes := [] } → s.lif.reply = none →
    exec i s = .next ((frameBytes (station s) k g p).foldl (fun u b => framerByte .control b u) s)

/-- In HALTED a request of the refused group is refused with HALTED and changes nothing else (R20, R174).
While the hold is set the drawing requests are refused with PROTECTED and change nothing else (R146). -/
def Obligations.GroupRefusalsChangeNothing : Prop :=
  (∀ (i : Instr) (k g : Byte) (p : List Byte) (s : State),
     refusedInHalted i = true → i.wellFormed = true → Wire.writeRequest i = some (k, g, p) →
     s.ltr.lineState = .halted → s.lif.reply = none →
     exec i s = .next (s.refusedWith k g .halted))
  ∧ (∀ (i : Instr) (k g : Byte) (p : List Byte) (s : State),
       refusedWhileHeld i = true → i.wellFormed = true → Wire.writeRequest i = some (k, g, p) →
       s.lcp.hold = true → s.lif.reply = none →
       exec i s = .next (s.refusedWith k g .isProtected))

/-- A request answered with any code but OK has changed nothing but the pending reply, whose data is empty
(R174). A request that finds a reply pending is discarded: before the reply begins the pending discards
counter rises, while it is being sent no byte is taken; nothing else changes (R173, R175). That a request command
is so treated as its frame is the model's reading (DEDUCED, log 4). -/
def Obligations.RequestsChangeNothingWhenRefused : Prop :=
  (∀ (i : Instr) (k g : Byte) (p : List Byte) (s t : State) (r : Reply),
     Wire.writeRequest i = some (k, g, p) → s.lif.reply = none → exec i s = .next t →
     t.lif.reply = some r → r.code ≠ .ok → t = s.refusedWith k g r.code)
  ∧ (∀ (i : Instr) (k g : Byte) (p : List Byte) (s : State) (r : Reply),
       Wire.writeRequest i = some (k, g, p) → s.lif.reply = some r →
       (r.begun = false → exec i s = .next
         { s with lif := { s.lif with pendingDiscards := min (s.lif.pendingDiscards + 1) 65535 } })
       ∧ (r.begun = true → exec i s = .next s))

/-- The reads answer OK with their rule's data and change nothing but the pending reply (R15, R31, R42, R64, R85,
R95, R111, R127, R161, R171, R178). The reads that name an entry: STRIP_READ of a record held (its place counted
from the front, R16), ORDER_READ of 1 to 16 lines that exist (R70), BIN_READ of a bin 1 to 14 (R144), MANIFEST_READ
of the list or of a manifest held (R141); the others are refused. A manifest's record is the 181 bytes of section 12.6,
each field at its offset, and its entry in the list 7 bytes. The bytes of the data rest on the model's reading
of section 12.6 (DEDUCED, log 8) and on its choices: the numbers of line states and of BIN_READ's close reason (DESIGN
CHOICE, log 9), data above 1,040 bytes held whole (DESIGN CHOICE, log 10), PRINT_STATUS's slot and rows outside BUSY
(DEDUCED, log 25), the form of a figure where two fit (DESIGN CHOICE, log 36). -/
def Obligations.ReadsAnswerAndChangeNothing : Prop :=
  (∀ (g : Byte) (s : State), s.lif.reply = none →
     exec (.lineRead g) s = .next { s with lif := s.lif.answering 0x15#8 g .ok (lineReadData s) }
     ∧ exec (.gaugeRead g) s = .next { s with lif := s.lif.answering 0x1D#8 g .ok (gaugeReadData s) }
     ∧ exec (.gradeRead g) s = .next { s with lif := s.lif.answering 0x23#8 g .ok (gradeReadData s) }
     ∧ exec (.planRead g) s = .next { s with lif := s.lif.answering 0x2A#8 g .ok (planReadData s) }
     ∧ exec (.paceRead g) s = .next { s with lif := s.lif.answering 0x41#8 g .ok (paceReadData s) }
     ∧ exec (.profileRead g) s = .next { s with lif := s.lif.answering 0x4B#8 g .ok (profileReadData s) }
     ∧ exec (.trimRead g) s = .next { s with lif := s.lif.answering 0x52#8 g .ok (trimReadData s) }
     ∧ exec (.sortRead g) s = .next { s with lif := s.lif.answering 0x55#8 g .ok (sortReadData s) }
     ∧ exec (.lcpRead g) s = .next { s with lif := s.lif.answering 0x6C#8 g .ok (lcpReadData s) }
     ∧ exec (.printStatus g) s = .next { s with lif := s.lif.answering 0x73#8 g .ok (printStatusData s) }
     ∧ exec (.statusRead g) s = .next { s with lif := s.lif.answering 0x79#8 g .ok (statusData s) })
  ∧ (∀ (g : Byte) (s : State), s.lif.reply = none →
       (∀ (r : Strip) (older younger : List Strip), s.ltr.strips = older ++ r :: younger →
         (∀ x ∈ older, x.tag ≠ r.tag) →
         exec (.stripRead g r.tag) s
           = .next { s with lif := s.lif.answering 0x16#8 g .ok (stripBytes r (older.length + 1)) })
       ∧ (∀ n, (∀ r ∈ s.ltr.strips, r.tag ≠ n) → exec (.stripRead g n) s = .next (s.refusedWith 0x16#8 g .notFound))
       ∧ (∀ f n, exec (.orderRead g f n) s = .next
           (if 1 ≤ f ∧ 1 ≤ n ∧ n ≤ 16 ∧ f + n ≤ 33 then
             { s with
               lif := s.lif.answering 0x33#8 g .ok
                 (be1 n ++ (List.range n).flatMap (fun i => orderLineBytes s (i + f))
                   ++ be1 (s.otu.lines.toList.countP (fun l => l.state == .opened))
                   ++ be1 (s.otu.lines.toList.countP (fun l => l.state == .draining))) }
           else s.refusedWith 0x33#8 g .badValue))
       ∧ (∀ b, exec (.binRead g b) s = .next
           (if 1 ≤ b ∧ b ≤ 14 then { s with lif := s.lif.answering 0x5B#8 g .ok (binReadData s b) }
           else s.refusedWith 0x5B#8 g .badValue))
       ∧ exec (.manifestRead g 0) s = .next { s with
           lif := s.lif.answering 0x5D#8 g .ok
             (be1 s.bdb.manifests.length ++ s.bdb.manifests.flatMap manifestSummary) }
       ∧ (∀ n m, n ≠ 0 → s.bdb.manifests.find? (fun x => x.number == n) = some m →
           exec (.manifestRead g n) s = .next { s with lif := s.lif.answering 0x5D#8 g .ok m.record })
       ∧ (∀ n, n ≠ 0 → (∀ m ∈ s.bdb.manifests, m.number ≠ n) →
           exec (.manifestRead g n) s = .next (s.refusedWith 0x5D#8 g .notFound)))
  ∧ (∀ m : Manifest, m.laid m.record ∧ m.record.take 160 = m.checkFields
       ∧ (manifestSummary m).length = 7
       ∧ holdsNumbers (manifestSummary m) [(0, 4, m.number), (4, 1, m.bin),
           (5, 1, [LabelState.pending, .printed, .lost].idxOf m.label), (6, 1, m.discharged.toNat)])

/-! ## The line (chapter 1) -/

/-- LINE_START by line state, and the test of the configuration before it (R17). LINE_STOP by line state: with
both queues empty straight to STOPPED, the cutter group OFF (R109); otherwise to STOPPING; a verification in
flight is cancelled with cause LINE after the other notices (R17, R30). -/
def Obligations.LineStartAndStop : Prop :=
  (∀ (g : Byte) (s : State), s.lif.reply = none →
     (s.ltr.lineState = .halted → exec (.lineStart g) s = .next (s.refusedWith 0x10#8 g .halted))
     ∧ (s.ltr.lineState ≠ .halted → ¬ s.hasConfiguration →
         exec (.lineStart g) s = .next (s.refusedWith 0x10#8 g .notConfigured))
     ∧ (s.ltr.lineState = .stopped → s.hasConfiguration →
         exec (.lineStart g) s = .next { s with
           ltr := { s.ltr with lineState := .running, level := s.pins.eyes }
           srt := { s.srt with level := s.pins.drop }
           tsc := s.tsc.spinningUp
           lif := ((s.lif.raise (.lineState .running .stopped .request)).raise
             (.cutterState .spinup s.tsc.cutter .request)).answering 0x10#8 g .ok [] })
     ∧ (s.ltr.lineState = .stopping → s.hasConfiguration →
         exec (.lineStart g) s = .next { s with
           ltr := { s.ltr with lineState := .running }
           lif := (s.lif.raise (.lineState .running .stopping .request)).answering 0x10#8 g .ok [] })
     ∧ (s.ltr.lineState = .running → s.hasConfiguration →
         exec (.lineStart g) s = .next { s with lif := s.lif.answering 0x10#8 g .ok [] }))
  ∧ (∀ (g : Byte) (s : State), s.lif.reply = none →
       (s.ltr.lineState = .halted → exec (.lineStop g) s = .next (s.refusedWith 0x11#8 g .halted))
       ∧ (s.ltr.lineState = .stopped ∨ s.ltr.lineState = .stopping →
           exec (.lineStop g) s = .next { s with lif := s.lif.answering 0x11#8 g .ok [] })
       ∧ (s.ltr.lineState = .running → s.ltr.strips = [] → s.srt.pieces = [] → s.tsc.cutter ≠ .off →
           (s.msu.verification = .idle ∨ s.msu.verification = .latched) →
           exec (.lineStop g) s = .next { s with
             ltr := { s.ltr with lineState := .stopped }, tsc := s.tsc.switchedOff
             lif := ((s.lif.raise (.lineState .stopped .running .request)).raise
               (.cutterState .off s.tsc.cutter .line)).answering 0x11#8 g .ok [] })
       ∧ (s.ltr.lineState = .running → s.ltr.strips = [] → s.srt.pieces = [] → s.tsc.cutter ≠ .off →
           (s.msu.verification = .armed ∨ s.msu.verification = .onBar) →
           exec (.lineStop g) s = .next { s with
             ltr := { s.ltr with lineState := .stopped }, tsc := s.tsc.switchedOff, msu := s.msu.cancelled
             lif := (((s.lif.raise (.lineState .stopped .running .request)).raise
               (.cutterState .off s.tsc.cutter .line)).raise
               (.gaugeResult .cancelled .line s.msu.measured.length 0)).answering 0x11#8 g .ok [] })
       ∧ (s.ltr.lineState = .running → (s.ltr.strips ≠ [] ∨ s.srt.pieces ≠ []) →
           (s.msu.verification = .idle ∨ s.msu.verification = .latched) →
           exec (.lineStop g) s = .next { s with
             ltr := { s.ltr with lineState := .stopping }
             lif := (s.lif.raise (.lineState .stopping .running .request)).answering 0x11#8 g .ok [] })
       ∧ (s.ltr.lineState = .running → (s.ltr.strips ≠ [] ∨ s.srt.pieces ≠ []) →
           (s.msu.verification = .armed ∨ s.msu.verification = .onBar) →
           exec (.lineStop g) s = .next { s with
             ltr := { s.ltr with lineState := .stopping }, msu := s.msu.cancelled
             lif := ((s.lif.raise (.lineState .stopping .running .request)).raise
               (.gaugeResult .cancelled .line s.msu.measured.length 0)).answering 0x11#8 g .ok [] }))

/-- LINE_RESUME's refusals in their order; where no input differs from its held level and no cart waits at a
WAIT_CART bin, the line goes on in RUNNING with everything else kept; and in every case it is RUNNING at the
held position, every level is its input's, and the cutter group is in SPINUP (R21). In every case, too, each eye whose
input differs from its held level takes one edge, to the effect that the edge's command has in RUNNING at the held
position: the measure, scan and saw eyes, the drop eye, the feed-ready eye (R21, R84, R118); then the notices of
RUNNING and of SPINUP are queued, and every bin in WAIT_CART whose cart is present and whose output is not driven
begins its discharge (R143). R21 puts the trim eyes' edges before the entry into RUNNING; the order among the edges, and
the place of the drop and feed-ready eyes' among them, are the model's choice (DESIGN CHOICE, log 13). -/
def Obligations.LineResumeReturnsToRunning : Prop :=
  ∀ (g : Byte) (s : State), s.lif.reply = none →
    (s.ltr.lineState ≠ .halted → exec (.lineResume g) s = .next (s.refusedWith 0x12#8 g .wrongState))
    ∧ (s.ltr.lineState = .halted → s.pins.estop = true →
        exec (.lineResume g) s = .next (s.refusedWith 0x12#8 g .estopActive))
    ∧ (s.ltr.lineState = .halted → s.pins.estop = false → ¬ s.hasConfiguration →
        exec (.lineResume g) s = .next (s.refusedWith 0x12#8 g .notConfigured))
    ∧ (s.ltr.lineState = .halted → s.pins.estop = false → s.hasConfiguration →
        s.ltr.level = s.pins.eyes → s.srt.level = s.pins.drop → s.fdp.feedReady = s.pins.feedReady →
        (∀ b, (binAt s b).state = .waitCart → tabGet s.pins.carts b ≠ some true) →
        exec (.lineResume g) s = .next { s with
          ltr := { s.ltr with lineState := .running }, tsc := s.tsc.spinningUp
          lif := ((s.lif.raise (.lineState .running .halted .request)).raise
            (.cutterState .spinup s.tsc.cutter .request)).answering 0x12#8 g .ok [] })
    ∧ (s.ltr.lineState = .halted → s.pins.estop = false → s.hasConfiguration →
        ∃ t, exec (.lineResume g) s = .next t ∧ t.ltr.lineState = .running ∧ t.ltr.trimPos = s.ltr.trimPos
          ∧ t.ltr.level = s.pins.eyes ∧ t.srt.level = s.pins.drop ∧ t.fdp.feedReady = s.pins.feedReady
          ∧ t.tsc.cutter = .spinup ∧ t.tsc.runOutput = true ∧ t.pins = s.pins
          ∧ ∃ u1 u2 u3 u4 u5 : State, { s with ltr := { s.ltr with lineState := .running } }.eyeCatchesUp .measure u1
            ∧ u1.eyeCatchesUp .scan u2 ∧ u2.eyeCatchesUp .saw u3 ∧ u3.dropCatchesUp u4 ∧ u4.feedCatchesUp u5
            ∧ t = { u5 with
                bdb := { u5.bdb with bins := t.bdb.bins }, tsc := u5.tsc.spinningUp
                lif := ((u5.lif.raise (.lineState .running .halted .request)).raise
                  (.cutterState .spinup u5.tsc.cutter .request)).answering 0x12#8 g .ok [] }
            ∧ ∀ b, binAt t b = if 1 ≤ b ∧ b ≤ 14 ∧ (binAt u5 b).state = .waitCart
                  ∧ tabGet s.pins.carts b = some true ∧ (binAt u5 b).discharge = none then
                { binAt u5 b with discharge := some (binAt u5 b).settings.dischargePulse } else binAt u5 b)

/-- LINE_CLEAR empties the two queues, the cut lists and the engine, puts the line into STOPPED where every
level follows its input, and answers the two counts; position, tag counter, geometry, counters, cutter group,
gauge, bins' bundles and template are kept (R22). The reservations of the READY plans and of the pieces are
released, a DRAINING line they empty becoming FREE (R22, R74, R77); every ASSIGNED piece lowers its bin's incoming
count; no manifest goes (R22). Where no close completion comes in, because no bin is in CLOSE_PENDING or the hold
is clear, and the drain test finds nothing to close: the bins in CLOSE_PENDING whose counts reach 0 are in CLOSING
and join the closing order at their last pieces, the discharges that waited begin (R143), and the notices are the
ORDER_DONEs of the releases, one LINE_STATE with cause REQUEST, and in DRAINING the PROFILE_STATE of the drain
test, which takes the changeover to TOOLING (R22, R90). The order of the ORDER_DONEs of different strip records,
oldest record first, is the model's choice (DESIGN CHOICE, log 38). -/
def Obligations.LineClearEmptiesTheLine : Prop :=
  ∀ (g : Byte) (s : State), s.lif.reply = none →
    (s.ltr.lineState ≠ .halted → exec (.lineClear g) s = .next (s.refusedWith 0x13#8 g .wrongState))
    ∧ (s.ltr.lineState = .halted → s.pins.estop = true →
        exec (.lineClear g) s = .next (s.refusedWith 0x13#8 g .estopActive))
    ∧ (s.ltr.lineState = .halted → s.pins.estop = false →
        ∃ t, exec (.lineClear g) s = .next t
          ∧ t = { s with ltr := t.ltr, ple := t.ple, otu := t.otu, fdp := t.fdp, pfc := t.pfc, tsc := t.tsc
                         srt := t.srt, bdb := t.bdb, lcp := t.lcp, prq := t.prq, lif := t.lif }
          ∧ t.ltr = { s.ltr with strips := [], holder := ⟨none, none, none⟩, lineState := .stopped
                                 level := s.pins.eyes }
          ∧ t.ple = { s.ple with engine := none }
          ∧ t.fdp = { s.fdp with feedReady := s.pins.feedReady }
          ∧ t.tsc = { s.tsc with cutLists := [] }
          ∧ t.srt = { s.srt with pieces := [], level := s.pins.drop }
          ∧ t.pfc = { s.pfc with changeover := t.pfc.changeover, timer := t.pfc.timer
                                 toolingRequest := t.pfc.toolingRequest }
          ∧ t.lcp = { s.lcp with engine := t.lcp.engine, renderOrder := t.lcp.renderOrder }
          ∧ t.prq = { s.prq with slots := t.prq.slots }
          ∧ (∀ k, lineAt t k = (lineAt s k).released k s.allReservations)
          ∧ (∀ b, (binAt t b).incoming = (binAt s b).incoming - takenFrom b s.arrivals)
          ∧ s.bdb.manifests <+: t.bdb.manifests
          ∧ (∀ b, (binAt t b).bundle = (binAt s b).bundle ∧ (binAt t b).settings = (binAt s b).settings)
          ∧ t.lif.reply = some { kind := 0x13#8, tag := g, code := .ok
                                 data := be1 s.ltr.strips.length ++ be1 s.srt.pieces.length
                                 begun := false, resetAfter := false }
          ∧ (((∀ b, (binAt s b).state ≠ .closePending) ∨ s.lcp.hold = false) →
              (s.pfc.changeover ≠ .draining ∨ s.nothingOpen) →
            ∀ l, l = ((s.ordersDone s.allReservations).foldl Lif.raise s.lif).raise
                (.lineState .stopped .halted .request) →
            t.lcp = s.lcp ∧ t.prq = s.prq
            ∧ t.bdb = { s.bdb with
                bins := t.bdb.bins
                closingOrder := s.bdb.closingOrder ++ emptied (fun b => (binAt s b).state == .closePending)
                  (fun b => (binAt s b).incoming) s.arrivals }
            ∧ (∀ b, binAt t b = { binAt s b with
                incoming := (binAt t b).incoming
                state := if (binAt s b).state = .closePending ∧ b ∈ s.arrivals.map (·.1)
                            ∧ (binAt s b).incoming ≤ takenFrom b s.arrivals then .closing else (binAt s b).state
                discharge := if (binAt s b).state = .waitCart ∧ tabGet s.pins.carts b = some true
                                ∧ (binAt s b).discharge = none then some (binAt s b).settings.dischargePulse
                             else (binAt s b).discharge })
            ∧ (s.pfc.changeover ≠ .draining → t.pfc = s.pfc ∧ t.lif = l.answering 0x13#8 g .ok
                (be1 s.ltr.strips.length ++ be1 s.srt.pieces.length))
            ∧ (s.pfc.changeover = .draining → s.toolingBegun t.pfc ∧ t.lif = (l.raise
                (.profileState .tooling .draining s.pfc.target s.pfc.active .drained)).answering 0x13#8 g .ok
                  (be1 s.ltr.strips.length ++ be1 s.srt.pieces.length))))

/-- The estop input: asserted outside HALTED it drops every actuator output, puts the line into HALTED and the
cutter group OFF and cancels a verification, with notices in the order of R17; the positions, records and
levels stay, and so does every level of the other inputs. Asserted in HALTED, or released, it changes only its
own level (R19). -/
def Obligations.EstopHaltsTheLine : Prop :=
  ∀ s : State,
    exec .estopRelease s = .next { s with pins := { s.pins with estop := false } }
    ∧ (s.ltr.lineState = .halted → exec .estopAssert s = .next { s with pins := { s.pins with estop := true } })
    ∧ (s.ltr.lineState ≠ .halted → s.pins.estop = false →
        ∃ t, exec .estopAssert s = .next t
          ∧ t = { s with pins := { s.pins with estop := true }
                         ltr := { s.ltr with lineState := .halted }
                         fdp := { s.fdp with feedPulse := none }
                         tsc := { s.tsc.switchedOff with sawPulse := none }
                         srt := { s.srt with diverters := t.srt.diverters }
                         bdb := { s.bdb with bins := t.bdb.bins }, msu := t.msu, lif := t.lif }
          ∧ (∀ d ∈ t.srt.diverters.toList, d = none)
          ∧ t.bdb.bins = s.bdb.bins.map (fun b => { b with discharge := none })
          ∧ (verifying s = false → t.msu = s.msu) ∧ (verifying s = true → t.msu = s.msu.cancelled)
          ∧ t.lif = (let l1 := s.lif.raise (.lineState .halted s.ltr.lineState .estop)
                     let l2 := if s.tsc.cutter = .off then l1
                               else l1.raise (.cutterState .off s.tsc.cutter .estop)
                     if verifying s then l2.raise (.gaugeResult .cancelled .estop s.msu.measured.length 0)
                     else l2))

/-- One encoder pulse moves its own position by its own scale, modulo 2^32, and nothing else but the openings of
windows that the trim position reaches; in HALTED no pulse is counted (R4, R78, R112). After a trim pulse each window
of each record stands where it stood, with its opening reached where it was or where the new position is at or past
it, and nothing else of a record changes (R6). An eye's edge by line state: in STOPPED the level follows, in HALTED it
holds; no edge is taken in either (R6, section 1.5). That an edge to the level the input already has changes nothing
is the model's choice (DESIGN CHOICE, log 3); that an opening is reached by the signed distance to it, and once
reached stays so, are its readings (DEDUCED, logs 15, 16). -/
def Obligations.EncodersAndEyes : Prop :=
  (∀ s : State,
     (s.ltr.lineState = .halted → ∀ e d, exec (.encoderPulse e d) s = .next s)
     ∧ (s.ltr.lineState ≠ .halted →
         exec (.encoderPulse .infeed .forward) s
           = .next { s with fdp := { s.fdp with pos := s.fdp.pos + BitVec.ofNat 32 s.fdp.settings.scale } }
         ∧ exec (.encoderPulse .infeed .reverse) s
           = .next { s with fdp := { s.fdp with pos := s.fdp.pos - BitVec.ofNat 32 s.fdp.settings.scale } }
         ∧ exec (.encoderPulse .sort .forward) s
           = .next { s with srt := { s.srt with pos := s.srt.pos + BitVec.ofNat 32 s.srt.settings.scale } }
         ∧ exec (.encoderPulse .sort .reverse) s
           = .next { s with srt := { s.srt with pos := s.srt.pos - BitVec.ofNat 32 s.srt.settings.scale } }
         ∧ (∀ d, ∃ t, exec (.encoderPulse .trim d) s = .next t
             ∧ t = { s with ltr := { s.ltr with trimPos := t.ltr.trimPos, strips := t.ltr.strips } }
             ∧ t.ltr.trimPos = (match d with
                 | .forward => s.ltr.trimPos + BitVec.ofNat 32 s.ltr.geometry.scale
                 | .reverse => s.ltr.trimPos - BitVec.ofNat 32 s.ltr.geometry.scale)
             ∧ t.ltr.strips = s.ltr.strips.map (fun r => { r with
                 measureWin := r.measureWin.map (·.noted t.ltr.trimPos)
                 scanWin := r.scanWin.map (·.noted t.ltr.trimPos)
                 sawWin := r.sawWin.map (·.noted t.ltr.trimPos) }))))
  ∧ (∀ s : State,
       (∀ c e b, (c, e, b) ∈ [(Instr.measureLeadingEdge, TrimEye.measure, true),
           (.measureTrailingEdge, .measure, false), (.scanLeadingEdge, .scan, true),
           (.scanTrailingEdge, .scan, false), (.sawLeadingEdge, .saw, true), (.sawTrailingEdge, .saw, false)] →
         (s.pins.eyes.get e = b → exec c s = .next s)
         ∧ (s.pins.eyes.get e ≠ b → s.ltr.lineState = .stopped → exec c s = .next (s.sees e b))
         ∧ (s.pins.eyes.get e ≠ b → s.ltr.lineState = .halted →
             exec c s = .next { s with pins := { s.pins with eyes := s.pins.eyes.put e b } })))

/-- A leading edge at the measure eye is matched to the oldest record whose measure window is open, which takes the
position, its scan and saw windows and its deadline; with none open it is counted and reported as a stray, and gets a
record with the same windows and deadline when the queue has room and the changeover is RUNNING or DRAINING (R6, R8,
R13), which returns the cutter group from IDLE_WAIT to RUN (R106). A trailing edge at the measure eye ends its holder
and writes the holder's length, once, with the rounding and the limits of R24 and the disposition of R25; with no
holder it is ignored (R9). With the engine BUSY nothing more happens; IDLE, it takes up the oldest record that is then
eligible, or none (R49). A record is expected at an eye where it has a window there whose opening is reached (R6); a
window set up from a position opens and closes where it is told, reached at once where the position is at or past its
opening; a record is eligible with a length, a scan and the plan status PENDING (R49). After tag 65,535 comes 1 (R3);
1 mm is 1,000 um; a record made starts with its deadline not delivered. The order within a stray, a reached opening
staying reached and the signed distance are the model's readings (DEDUCED, logs 28, 16, 15). -/
def Obligations.MeasureEyeEdges : Prop :=
  (∀ r : Strip,
     (∀ e, r.expectedAt e = true ↔ ∃ w, r.window e = some w ∧ w.reached = true)
     ∧ r.window .measure = r.measureWin ∧ r.window .scan = r.scanWin ∧ r.window .saw = r.sawWin
     ∧ (r.eligible = true ↔ (∃ l, r.length = some l) ∧ (∃ c, r.scan = some c) ∧ r.status = .pending))
  ∧ (∀ now o c : Pos, windowFrom now o c
       = { opensAt := o, closesAt := c, reached := decide (0 ≤ (now - o).toInt) })
  ∧ (∀ s : State, (watching s = true ↔ s.ltr.lineState = .running ∨ s.ltr.lineState = .stopping)
       ∧ (verifying s = true ↔ s.msu.verification = .armed ∨ s.msu.verification = .onBar))
  ∧ (∀ t, (t < 65535 → tagAfter t = t + 1) ∧ tagAfter 65535 = 1)
  ∧ (∀ mm, umOfMm mm = BitVec.ofNat 32 (1000 * mm))
  ∧ (∀ s : State, watching s = true → verifying s = false → s.pins.eyes.measure = false →
     (∀ (older younger : List Strip) (r : Strip), s.ltr.strips = older ++ r :: younger →
       (∀ x ∈ older, x.expectedAt .measure = false) → r.expectedAt .measure = true →
       exec .measureLeadingEdge s = .next { s.sees .measure true with
         ltr := { (s.sees .measure true).ltr with
           holder := { s.ltr.holder with measure := some r.tag }
           strips := s.ltr.strips.map (fun x => if x.tag = r.tag then
             { x with phase := .measuring, leadPos := some s.ltr.trimPos, measureWin := none
                      scanWin := some (windowFrom s.ltr.trimPos
                        (s.ltr.trimPos + umOfMm (s.ltr.geometry.dScan - s.ltr.geometry.eyeTol))
                        (s.ltr.trimPos + umOfMm (s.ltr.geometry.dScan + s.ltr.geometry.eyeTol)))
                      sawWin := some (windowFrom s.ltr.trimPos
                        (s.ltr.trimPos + umOfMm (s.ltr.geometry.dSaw - s.ltr.geometry.eyeTol))
                        (s.ltr.trimPos + umOfMm (s.ltr.geometry.dSaw + s.ltr.geometry.eyeTol)))
                      deadline := some
                        (s.ltr.trimPos + umOfMm (s.ltr.geometry.dSaw - s.ltr.geometry.planLead)) }
             else x) } })
     ∧ ((∀ x ∈ s.ltr.strips, x.expectedAt .measure = false) →
         (32 ≤ s.ltr.strips.length ∨ s.pfc.changeover = .tooling ∨ s.pfc.changeover = .toolFault) →
         exec .measureLeadingEdge s = .next { s.sees .measure true with
           ltr := { (s.sees .measure true).ltr with
             holder := { s.ltr.holder with measure := none }
             strays := { s.ltr.strays with measure := min (s.ltr.strays.measure + 1) 65535 }
             unrecorded := min (s.ltr.unrecorded + 1) 65535 }
           lif := s.lif.raise (.stray .measure s.ltr.trimPos 0) })
     ∧ ((∀ x ∈ s.ltr.strips, x.expectedAt .measure = false) → s.ltr.strips.length < 32 →
         (s.pfc.changeover = .running ∨ s.pfc.changeover = .draining) →
         ∃ r l, l = s.lif.raise (.stray .measure s.ltr.trimPos s.ltr.nextTag)
         ∧ exec .measureLeadingEdge s = .next { s.sees .measure true with
           ltr := { (s.sees .measure true).ltr with
             holder := { s.ltr.holder with measure := some s.ltr.nextTag }
             strays := { s.ltr.strays with measure := min (s.ltr.strays.measure + 1) 65535 }
             strips := s.ltr.strips ++ [r], nextTag := tagAfter s.ltr.nextTag }
           tsc := if s.tsc.cutter = .idleWait then
             { s.tsc with cutter := .run, runOutput := true, hystTimer := none } else s.tsc
           lif := if s.tsc.cutter = .idleWait then l.raise (.cutterState .run .idleWait .activity) else l }
         ∧ r.tag = s.ltr.nextTag ∧ r.profile = s.pfc.active.getD 0 ∧ r.phase = .measuring
         ∧ r.leadPos = some s.ltr.trimPos ∧ r.announced = false ∧ r.status = .uncut .stray ∧ r.stray = true
         ∧ r.length = none ∧ r.scan = none ∧ r.plan = none ∧ r.measureWin = none
         ∧ r.scanWin = some (windowFrom s.ltr.trimPos
             (s.ltr.trimPos + umOfMm (s.ltr.geometry.dScan - s.ltr.geometry.eyeTol))
             (s.ltr.trimPos + umOfMm (s.ltr.geometry.dScan + s.ltr.geometry.eyeTol)))
         ∧ r.sawWin = some (windowFrom s.ltr.trimPos
             (s.ltr.trimPos + umOfMm (s.ltr.geometry.dSaw - s.ltr.geometry.eyeTol))
             (s.ltr.trimPos + umOfMm (s.ltr.geometry.dSaw + s.ltr.geometry.eyeTol)))
         ∧ r.deadline = some (s.ltr.trimPos + umOfMm (s.ltr.geometry.dSaw - s.ltr.geometry.planLead))
         ∧ r.deadlineDone = false))
  ∧ (∀ s : State, watching s = true → verifying s = false → s.pins.eyes.measure = true →
       (s.ltr.holder.measure = none → exec .measureTrailingEdge s = .next (s.sees .measure false))
       ∧ (∀ tag r p, s.ltr.holder.measure = some tag → s.ltr.strips.find? (fun x => x.tag == tag) = some r →
           r.length = none → r.leadPos = some p →
           ∃ (l : Nat) (u : State), u = { s.sees .measure false with
             ltr := { (s.sees .measure false).ltr with
               holder := { s.ltr.holder with measure := none }
               strips := s.ltr.strips.map (fun x => if x.tag = tag then
                 { x with phase := if x.phase = .measuring then .travelling else x.phase
                          length := some l
                          scan := x.scan.map (fun c => { c with defects := secondStage l c.defects })
                          status := if x.status = .pending ∧ ¬ (150 ≤ l ∧ l ≤ 3000) then .uncut .outOfRange
                                    else x.status }
                 else x) } }
           ∧ (l : Int) = max 1 (min 65535 (((s.ltr.trimPos - p).toInt + s.msu.comp + 500) / 1000))
           ∧ (s.ple.engine.isSome = true → exec .measureTrailingEdge s = .next u)
           ∧ (s.ple.engine = none → ∃ t, exec .measureTrailingEdge s = .next t ∧ u.takesUp t)))

/-- A leading edge at the scan eye is matched to the oldest record whose scan window is open; a record that is
no stray's is announced, or, with 32 announcements waiting, only marked; with none open the edge is a stray
(R10, R185). A trailing edge ends the holder (R9). A leading edge at the saw eye is matched to the oldest
record whose saw window is open: the record is AT_SAW and its cut list joins those in execution, with the cuts
of a READY plan at their fire positions and none for an uncut strip (DEDUCED, log 17); with none open the edge is a
stray (R11, R97). A record's window is open at an eye where it has a window there whose opening is reached, which once
reached stays so (R6; DEDUCED, log 16). -/
def Obligations.ScanAndSawEyeEdges : Prop :=
  (∀ r : Strip,
     (r.expectedAt .scan = true ↔ ∃ w, r.scanWin = some w ∧ w.reached = true)
     ∧ (r.expectedAt .saw = true ↔ ∃ w, r.sawWin = some w ∧ w.reached = true))
  ∧ (∀ s : State, watching s = true →
     (s.pins.eyes.scan = true → exec .scanTrailingEdge s = .next { s.sees .scan false with
       ltr := { (s.sees .scan false).ltr with holder := { s.ltr.holder with scan := none } } })
     ∧ (s.pins.eyes.scan = false → (∀ x ∈ s.ltr.strips, x.expectedAt .scan = false) →
         exec .scanLeadingEdge s = .next { s.sees .scan true with
           ltr := { (s.sees .scan true).ltr with
             holder := { s.ltr.holder with scan := none }
             strays := { s.ltr.strays with scan := min (s.ltr.strays.scan + 1) 65535 } }
           lif := s.lif.raise (.stray .scan s.ltr.trimPos 0) })
     ∧ (∀ (older younger : List Strip) (r : Strip), s.pins.eyes.scan = false →
         s.ltr.strips = older ++ r :: younger → (∀ x ∈ older, x.expectedAt .scan = false) →
         r.expectedAt .scan = true →
         exec .scanLeadingEdge s = .next { s.sees .scan true with
           ltr := { (s.sees .scan true).ltr with
             holder := { s.ltr.holder with scan := some r.tag }
             strips := s.ltr.strips.map (fun x => if x.tag = r.tag then
               { x with scanWin := none, announced := x.announced || !x.stray } else x) }
           lif := if r.stray then s.lif
             else if s.lif.announceQueue.length < 32 then
               { s.lif with announceQueue := s.lif.announceQueue ++
                   [{ tag := r.tag, length := r.length.getD 0, profile := r.profile }] }
             else { s.lif with announceOverflow := min (s.lif.announceOverflow + 1) 65535 } }))
  ∧ (∀ s : State, watching s = true → s.pins.eyes.saw = false →
       ((∀ x ∈ s.ltr.strips, x.expectedAt .saw = false) →
           exec .sawLeadingEdge s = .next { s.sees .saw true with
             ltr := { (s.sees .saw true).ltr with
               holder := { s.ltr.holder with saw := none }
               strays := { s.ltr.strays with saw := min (s.ltr.strays.saw + 1) 65535 } }
             lif := s.lif.raise (.stray .saw s.ltr.trimPos 0) })
       ∧ (∀ (older younger : List Strip) (r : Strip), s.ltr.strips = older ++ r :: younger →
           (∀ x ∈ older, x.expectedAt .saw = false) → r.expectedAt .saw = true →
           ∃ c, exec .sawLeadingEdge s = .next { s.sees .saw true with
             ltr := { (s.sees .saw true).ltr with
               holder := { s.ltr.holder with saw := some r.tag }
               strips := s.ltr.strips.map (fun x => if x.tag = r.tag then
                 { x with sawWin := none, phase := .atSaw } else x) }
             tsc := { s.tsc with cutLists := s.tsc.cutLists ++ [c] } }
           ∧ c.tag = r.tag ∧ c.p0 = s.ltr.trimPos ∧ c.lastMade = 0 ∧ c.trailSeen = false ∧ c.length2 = none
           ∧ c.slip = .unchecked ∧ c.plan = r.plan.getD [] ∧ c.status = r.status
           ∧ (r.status ≠ .ready → c.cuts = [])
           ∧ (r.status = .ready → ∀ x, (∃ k ∈ c.cuts, k.x = x) ↔
               x ≠ 0 ∧ x ≠ r.length.getD 0 ∧ ∃ p ∈ r.plan.getD [], p.start = x ∨ p.stop = x)
           ∧ (c.cuts.map (·.x)).Pairwise (· < ·)
           ∧ ∀ k ∈ c.cuts, k.state = .pending ∧ k.fireAt
               = s.ltr.trimPos + umOfMm (s.tsc.trim.sawDistance + k.x - s.tsc.trim.sawLead)))

/-- A strip whose window at an eye has been exceeded is missing there, in every line state but HALTED: the eye's count
rises, STRIP_LOST is queued, and the record goes with its cut list and holders (R12). A READY plan's reservations are
released, each DRAINING line they empty becoming FREE with ORDER_DONE (R74, R77; that ORDER_DONE comes before the
notices that follow is the model's choice, DESIGN CHOICE, log 37). A computation of the strip is abandoned and the
engine takes up the next eligible record (R62). Then STOPPING ends, the cutter group idles or the drain ends where the
removal leaves the queues so, the drain with a PROFILE close request for every OPEN bin with something allocated (R18,
R106, R90); that the idle condition stands between the other two is the model's reading (DEDUCED, log 12). An expiry
whose closing position is not yet exceeded, or in HALTED, leaves the state unchanged (DESIGN CHOICE, log 3). The
deadline of a strip, delivered once when its position is reached outside HALTED: by plan status it leaves the strip or
makes it UNCUT with the reason's counter and PLAN_LATE; a computation is abandoned and the engine takes up the next
eligible record (R13, R61). Not reached, delivered before or in HALTED, nothing happens (DESIGN CHOICE, log 3). -/
def Obligations.WindowsAndDeadlinesExpire : Prop :=
  (∀ (s : State) (e : TrimEye) (r : Strip) (w : Window),
     s.ltr.strips.find? (fun x => x.tag == r.tag) = some r → r.window e = some w →
     ((s.ltr.lineState = .halted ∨ (s.ltr.trimPos - w.closesAt).toInt ≤ 0) →
       exec (.windowExpiry e r.tag) s = .next s)
     ∧ (s.ltr.lineState ≠ .halted → 0 < (s.ltr.trimPos - w.closesAt).toInt →
         ∃ t, exec (.windowExpiry e r.tag) s = .next t
           ∧ State.removesStrip { s with
               ltr := { s.ltr with missing := s.ltr.missing.put e (min (s.ltr.missing.get e + 1) 65535) }
               lif := s.lif.raise (.stripLost r.tag
                 (match e with | .measure => .measure | .scan => .scan | .saw => .saw) r.status) } r t))
  ∧ (∀ (s : State) (r : Strip) (d : Pos), stripOf s r.tag = some r → r.deadline = some d →
       ((s.ltr.lineState = .halted ∨ r.deadlineDone = true ∨ (s.ltr.trimPos - d).toInt < 0) →
         exec (.deadline r.tag) s = .next s)
       ∧ (s.ltr.lineState ≠ .halted → r.deadlineDone = false → 0 ≤ (s.ltr.trimPos - d).toInt →
         (r.status ≠ .pending → r.status ≠ .computing → exec (.deadline r.tag) s = .next { s with
           ltr := { s.ltr with strips := s.ltr.strips.map (fun x => if x.tag = r.tag then
             { x with deadlineDone := true } else x) } })
         ∧ (r.status = .pending → r.length = none → exec (.deadline r.tag) s = .next { s with
           ple := { s.ple with lateNoLength := min (s.ple.lateNoLength + 1) 65535 }
           ltr := { s.ltr with strips := s.ltr.strips.map (fun x => if x.tag = r.tag then
             { x with deadlineDone := true, status := .uncut .noLength } else x) }
           lif := s.lif.raise (.planLate r.tag .noLength false) })
         ∧ (r.status = .pending → r.length.isSome = true → r.scan = none →
           exec (.deadline r.tag) s = .next { s with
             ple := { s.ple with lateNoScan := min (s.ple.lateNoScan + 1) 65535 }
             ltr := { s.ltr with strips := s.ltr.strips.map (fun x => if x.tag = r.tag then
               { x with deadlineDone := true, status := .uncut .noScan } else x) }
             lif := s.lif.raise (.planLate r.tag .noScan false) })
         ∧ (r.status = .pending → r.length.isSome = true → r.scan.isSome = true →
           exec (.deadline r.tag) s = .next { s with
             ple := { s.ple with lateLate := min (s.ple.lateLate + 1) 65535 }
             ltr := { s.ltr with strips := s.ltr.strips.map (fun x => if x.tag = r.tag then
               { x with deadlineDone := true, status := .uncut .late } else x) }
             lif := s.lif.raise (.planLate r.tag .late false) })
         ∧ (∀ c, r.status = .computing → s.ple.engine = some c → c.tag = r.tag →
           ∃ t u : State, exec (.deadline r.tag) s = .next t
             ∧ u = { s with
                 ple := { s.ple with lateLate := min (s.ple.lateLate + 1) 65535, engine := none }
                 ltr := { s.ltr with strips := s.ltr.strips.map (fun x => if x.tag = r.tag then
                   { x with deadlineDone := true, status := .uncut .late } else x) }
                 lif := s.lif.raise (.planLate r.tag .late true) }
             ∧ u.takesUp t)))

/-! ## Measuring and the gauge (chapter 2) -/

/-- MEASURE_SET replaces the compensation, which lies within 5,000 µm of 0, in every line state (R23).
GAUGE_TABLE of 32 marks: the marks and T are checked, then a verification in flight refuses; taken, it
replaces the table and makes the gauge status UNVERIFIED (R26). GAUGE_VERIFY's checks in their order, and its
arming; GAUGE_CANCEL and GAUGE_RELEASE by verification state (R27, R30, R31). That a new compensation holds from its
taking, not from the end of its reply, is the model's choice (DESIGN CHOICE, log 41). -/
def Obligations.GaugeSettingsAndRequests : Prop :=
  (∀ (g : Byte) (c : Int) (s : State), s.lif.reply = none →
     exec (.measureSet g c) s = .next
       (if -5000 ≤ c ∧ c ≤ 5000 then
         { s with msu := { s.msu with comp := c }, lif := s.lif.answering 0x18#8 g .ok [] }
       else s.refusedWith 0x18#8 g .badValue))
  ∧ (∀ (g : Byte) (ms : List Nat) (tol : Nat) (s : State), s.lif.reply = none → ms.length = 32 →
       exec (.gaugeTable g ms tol) s = .next
         (if ¬ (ms[0]? = some 0 ∧ ms.Pairwise (· < ·) ∧ ms.getD 31 0 ≤ 3000000 ∧ 100 ≤ tol ∧ tol ≤ 5000) then
           s.refusedWith 0x19#8 g .badValue
         else if s.msu.verification = .armed ∨ s.msu.verification = .onBar then s.refusedWith 0x19#8 g .inUse
         else { s with
           msu := { s.msu with tableLoaded := true, marks := ms, tolerance := tol, status := .unverified }
           lif := s.lif.answering 0x19#8 g .ok [] }))
  ∧ (∀ (g : Byte) (s : State), s.lif.reply = none →
       exec (.gaugeVerify g) s = .next
         (if s.ltr.lineState = .halted then s.refusedWith 0x1A#8 g .halted
         else if s.msu.tableLoaded = false then s.refusedWith 0x1A#8 g .notConfigured
         else if s.msu.verification = .latched then s.refusedWith 0x1A#8 g .resultPending
         else if s.msu.verification ≠ .idle ∨ s.ltr.lineState ≠ .running ∨ s.ltr.strips ≠ []
             ∨ s.ltr.level.measure = true then s.refusedWith 0x1A#8 g .wrongState
         else { s with
           msu := { s.msu with verification := .armed, measured := [], origin := 0#32, barEndFrom := none }
           lif := s.lif.answering 0x1A#8 g .ok [] })
       ∧ exec (.gaugeCancel g) s = .next
         (if s.msu.verification = .armed ∨ s.msu.verification = .onBar then
           { s with msu := s.msu.cancelled
                    lif := (s.lif.raise (.gaugeResult .cancelled .request s.msu.measured.length 0)).answering
                      0x1B#8 g .ok [] }
         else { s with lif := s.lif.answering 0x1B#8 g .ok [] })
       ∧ exec (.gaugeRelease g) s = .next
         (if s.msu.verification = .armed ∨ s.msu.verification = .onBar then s.refusedWith 0x1C#8 g .wrongState
         else { s with msu := { s.msu with verification := .idle, result := none }
                       lif := s.lif.answering 0x1C#8 g .ok [] }))

/-- The edges a verification takes: the first tab in ARMED, the tab of each next mark, the trailing edges,
none of them reaching the records (R28). A verification ends at the leading edge of mark 31, or once the trim
position exceeds the start of a bar-end distance by 100 mm: the result is latched, the gauge status follows
it, and GAUGE_RESULT is queued (R28, R29). That BAR_END with no bar-end distance running, or with the 100 mm not yet
exceeded, leaves the state unchanged is the model's choice (log 3). -/
def Obligations.VerificationTakesTheEdges : Prop :=
  (∀ s : State, s.ltr.lineState = .running →
     (s.msu.verification = .armed → s.pins.eyes.measure = false →
       exec .measureLeadingEdge s = .next { s.sees .measure true with
         msu := { s.msu with origin := s.ltr.trimPos, measured := [0], verification := .onBar
                             barEndFrom := none } })
     ∧ (s.msu.verification = .onBar → s.msu.measured.length ≠ 31 → s.pins.eyes.measure = false →
       exec .measureLeadingEdge s = .next { s.sees .measure true with
         msu := { s.msu with measured := s.msu.measured ++ [(s.ltr.trimPos - s.msu.origin).toInt]
                             barEndFrom := none } })
     ∧ (s.msu.verification = .armed → s.pins.eyes.measure = true →
       exec .measureTrailingEdge s = .next (s.sees .measure false))
     ∧ (s.msu.verification = .onBar → s.pins.eyes.measure = true →
       exec .measureTrailingEdge s = .next { s.sees .measure false with
         msu := { s.msu with barEndFrom := some s.ltr.trimPos } }))
  ∧ (∀ s : State, s.msu.verification = .onBar →
       (s.ltr.lineState = .running → s.pins.eyes.measure = false → s.msu.measured.length = 31 →
         ∃ m n, s.msu.latches (s.msu.measured ++ [(s.ltr.trimPos - s.msu.origin).toInt]) .mark32 m n
           ∧ exec .measureLeadingEdge s = .next { s.sees .measure true with msu := m, lif := s.lif.raise n })
       ∧ (∀ p, s.msu.barEndFrom = some p →
           (0 < (s.ltr.trimPos - (p + umOfMm 100)).toInt →
             ∃ m n, s.msu.latches s.msu.measured .barEnd m n
               ∧ exec .barEnd s = .next { s with msu := m, lif := s.lif.raise n })
           ∧ ((s.ltr.trimPos - (p + umOfMm 100)).toInt ≤ 0 → exec .barEnd s = .next s))
       ∧ (s.msu.barEndFrom = none → exec .barEnd s = .next s))

/-! ## Scans and grading (chapter 3) -/

/-- A scan record fails the four checks in their order, each with its counter and its SCAN_DISCARD notice, and
changes no strip record; or it is attached after the first stage, and after the second when the length is
present (R34 to R38, R184). With the engine BUSY nothing more happens; IDLE, it takes up the oldest record that is
then eligible, or none, as where the length is absent (R36, R49, R50). Of a payload under 4 bytes the notice's tag
and count are free values, and the model's counter of them advances by 4 (the model's choice, log 6). -/
def Obligations.ScanRecordsAreCheckedAndAttached : Prop :=
  ∀ s : State,
    (∀ p : List Byte, 4 ≤ p.length →
      (24 < (p.getD 3 0#8).toNat ∨ p.length ≠ 4 + 7 * (p.getD 3 0#8).toNat ∨ 3 < (p.getD 2 0#8).toNat
        ∨ ∃ i, i < (p.getD 3 0#8).toNat
          ∧ (7 < (p.getD (8 + 7 * i) 0#8).toNat ∨ 3 < (p.getD (10 + 7 * i) 0#8).toNat)) →
      exec (.scanRecord p) s = .next { s with
        ple := { s.ple with malformed := min (s.ple.malformed + 1) 65535 }
        lif := { s.lif with scanRecords := min (s.lif.scanRecords + 1) 65535 }.raise
          (.scanDiscard .malformed ((p.getD 0 0#8).toNat * 256 + (p.getD 1 0#8).toNat)
            (p.getD 3 0#8).toNat) })
    ∧ (∀ p : List Byte, p.length < 4 → ∃ tag count, tag < 65536 ∧ count < 256 ∧
      exec (.scanRecord p) s = .next { s with
        ple := { s.ple with malformed := min (s.ple.malformed + 1) 65535 }
        lif := { s.lif with scanRecords := min (s.lif.scanRecords + 1) 65535 }.raise
          (.scanDiscard .malformed tag count)
        free := s.free + 4 })
    ∧ (∀ (tag colour : Nat) (ds : List Defect), tag < 65536 → colour ≤ 3 → ds.length ≤ 24 →
        (∀ d ∈ ds, d.sendable) →
      (stripOf s tag = none →
        exec (.scanRecord (be2 tag ++ be1 colour ++ be1 ds.length ++ ds.flatMap Defect.sent)) s
          = .next { s with
            ple := { s.ple with unknownTag := min (s.ple.unknownTag + 1) 65535 }
            lif := { s.lif with scanRecords := min (s.lif.scanRecords + 1) 65535 }.raise
              (.scanDiscard .unknownTag tag ds.length) })
      ∧ (∀ r, stripOf s tag = some r → r.scan.isSome = true →
        exec (.scanRecord (be2 tag ++ be1 colour ++ be1 ds.length ++ ds.flatMap Defect.sent)) s
          = .next { s with
            ple := { s.ple with duplicate := min (s.ple.duplicate + 1) 65535 }
            lif := { s.lif with scanRecords := min (s.lif.scanRecords + 1) 65535 }.raise
              (.scanDiscard .duplicate tag ds.length) })
      ∧ (∀ r, stripOf s tag = some r → r.scan = none → r.deadlineDone = true →
        exec (.scanRecord (be2 tag ++ be1 colour ++ be1 ds.length ++ ds.flatMap Defect.sent)) s
          = .next { s with
            ple := { s.ple with lateScans := min (s.ple.lateScans + 1) 65535 }
            lif := { s.lif with scanRecords := min (s.lif.scanRecords + 1) 65535 }.raise
              (.scanDiscard .late tag ds.length) })
      ∧ (∀ r, stripOf s tag = some r → r.scan = none → r.deadlineDone = false → s.ple.engine.isSome = true →
        exec (.scanRecord (be2 tag ++ be1 colour ++ be1 ds.length ++ ds.flatMap Defect.sent)) s
          = .next { s with
            lif := { s.lif with scanRecords := min (s.lif.scanRecords + 1) 65535 }
            ltr := { s.ltr with strips := s.ltr.strips.map (fun x => if x.tag = tag then
              { x with
                scan := some
                  { colour := colour
                    defects := match r.length with
                      | none => firstStage ds
                      | some l => secondStage l (firstStage ds) } } else x) } })
      ∧ (∀ r, stripOf s tag = some r → r.scan = none → r.deadlineDone = false → s.ple.engine = none →
        ∃ t u : State, exec (.scanRecord (be2 tag ++ be1 colour ++ be1 ds.length ++ ds.flatMap Defect.sent)) s = .next t
          ∧ u = { s with
            lif := { s.lif with scanRecords := min (s.lif.scanRecords + 1) 65535 }
            ltr := { s.ltr with strips := s.ltr.strips.map (fun x => if x.tag = tag then
              { x with
                scan := some
                  { colour := colour
                    defects := match r.length with
                      | none => firstStage ds
                      | some l => secondStage l (firstStage ds) } } else x) } }
          ∧ u.takesUp t)
      ∧ (∀ r l, stripOf s tag = some r → r.scan = none → r.deadlineDone = false → s.ple.engine = none →
          r.length = some l → r.status = .pending → (∀ x ∈ s.ltr.strips, x.tag ≠ tag → x.eligible = false) →
        ∃ t c, exec (.scanRecord (be2 tag ++ be1 colour ++ be1 ds.length ++ ds.flatMap Defect.sent)) s = .next t
          ∧ t = { s with ple := { s.ple with engine := some c }
                         lif := { s.lif with scanRecords := min (s.lif.scanRecords + 1) 65535 }
                         ltr := { s.ltr with strips := t.ltr.strips } }
          ∧ c.tag = tag ∧ c.snapshot.gauge = s.msu.status ∧ c.snapshot.values = s.ple.values
          ∧ stripOf t tag = some
              { r with status := .computing
                       scan := some { colour := colour, defects := secondStage l (firstStage ds) } }))

/-- The two stages of normalisation, defect by defect, keeping the order and every one of equal defects (R36 to R38):
each stage of a list is the stages of its defects one after another, none or one for each. -/
def Obligations.NormalisationStages : Prop :=
  (firstStage [] = [] ∧ (∀ ds es, firstStage (ds ++ es) = firstStage ds ++ firstStage es)
    ∧ ∀ d, firstStage [d] = if d.severity = 0 then [] else
        [{ start := d.start, extent := if d.extent = 0 then 1 else d.extent, kind := d.kind
           severity := if 7 < d.severity then 7 else d.severity, face := d.face }])
  ∧ (∀ l, secondStage l [] = [] ∧ (∀ ds es, secondStage l (ds ++ es) = secondStage l ds ++ secondStage l es)
    ∧ ∀ d, secondStage l [d] = if l ≤ d.start then [] else
        [if l < d.start + d.extent then { d with extent := l - d.start } else d])
  ∧ (∀ (ds : List Defect) (d : Defect), d ∈ firstStage ds ↔ ∃ c ∈ ds, c.severity ≠ 0
      ∧ d = { c with severity := min c.severity 7, extent := max c.extent 1 })
  ∧ (∀ (l : Nat) (ds : List Defect) (d : Defect), d ∈ secondStage l ds ↔ ∃ c ∈ ds, c.start < l
      ∧ d = if l < c.start + c.extent then { c with extent := l - c.start } else c)
  ∧ (∀ (l : Nat) (ds : List Defect), (∀ d ∈ ds, 1 ≤ d.extent) →
      ∀ d ∈ secondStage l ds, d.start < l ∧ 1 ≤ d.extent ∧ d.start + d.extent ≤ l)

/-- The grade of a candidate piece is the first row whose two tests pass, none where no row passes; the
density is the penalty per hundred mm held at 65,535; the length class is the highest whose lower bound is at
most the net length (R43 to R46). -/
def Obligations.GradeAndClassOfACandidate : Prop :=
  (∀ (e : Ple) (p q : Nat) (ds : List Defect) (dens : Nat),
    dens = min 65535 (((ds.filter (fun d => decide (0 < overlap p q d))).map (fun d =>
      e.weights.getD d.kind 0 * d.severity * (overlap p q d).toNat)).sum * 100 / (q - p)) →
    (∀ g, gradeOf e p q ds = some g ↔ 1 ≤ g ∧ (∃ row, e.grades[g - 1]? = some row ∧ rowPasses row p q dens ds)
        ∧ ∀ h, 1 ≤ h → h < g → ∀ row, e.grades[h - 1]? = some row → ¬ rowPasses row p q dens ds)
    ∧ (gradeOf e p q ds = none ↔ ∀ row ∈ e.grades, ¬ rowPasses row p q dens ds))
  ∧ (∀ p q d, overlap p q d = (min q (d.start + d.extent) : Nat) - ((max p d.start : Nat) : Int))
  ∧ (∀ (bounds : List Nat) (n : Nat), bounds.Pairwise (· < ·) →
    (∀ c, classOf bounds n = some c ↔ 1 ≤ c ∧ (∃ b, bounds[c - 1]? = some b ∧ b ≤ n)
        ∧ ∀ b, bounds[c]? = some b → n < b)
    ∧ (classOf bounds n = none ↔ ∀ b ∈ bounds, n < b))

/-- GRADE_SET, WEIGHT_SET and CLASS_SET of payloads that fit their counts: by line state, then the fields,
then the use of a grade or class above the new count; taken, the table is replaced (R39 to R41). VALUE_SET of
40 values and PLAN_OPTIONS replace what they carry in every line state but HALTED (R52, R53). That WEIGHT_SET gives
WRONG_STATE before BAD_VALUE is the model's choice (DESIGN CHOICE, log 40). A text is read without the 00h that fill it
(DEDUCED, log 26). -/
def Obligations.TablesAndValuesAreReplaced : Prop :=
  (∀ (t : Text) (n : Nat), t.getLast? ≠ some 0#8 → textOf (t ++ List.replicate n 0#8) = t)
  ∧ (∀ (g : Byte) (s : State), s.lif.reply = none →
     (∀ n rows, rows.length = n → (∀ r ∈ rows, r.name.length = 8 ∧ r.maxsev.length = 8) →
       (s.ltr.lineState = .halted → exec (.gradeSet g n rows) s = .next (s.refusedWith 0x20#8 g .halted))
       ∧ ((s.ltr.lineState = .running ∨ s.ltr.lineState = .stopping) →
         exec (.gradeSet g n rows) s = .next (s.refusedWith 0x20#8 g .wrongState))
       ∧ (s.ltr.lineState = .stopped → ¬ gradeFieldsOk n rows →
         exec (.gradeSet g n rows) s = .next (s.refusedWith 0x20#8 g .badValue))
       ∧ (s.ltr.lineState = .stopped → gradeFieldsOk n rows → s.namesGradeAbove n →
         exec (.gradeSet g n rows) s = .next (s.refusedWith 0x20#8 g .inUse))
       ∧ (s.ltr.lineState = .stopped → gradeFieldsOk n rows → ¬ s.namesGradeAbove n →
         exec (.gradeSet g n rows) s = .next { s with
           ple := { s.ple with gradesLoaded := true
                               grades := rows.map (fun r => { r with name := textOf r.name }) }
           lif := s.lif.answering 0x20#8 g .ok [] }))
     ∧ (∀ ws, ws.length = 8 → exec (.weightSet g ws) s = .next
         (if s.ltr.lineState = .halted then s.refusedWith 0x21#8 g .halted
         else if s.ltr.lineState = .running ∨ s.ltr.lineState = .stopping then s.refusedWith 0x21#8 g .wrongState
         else if ∃ w ∈ ws, 15 < w then s.refusedWith 0x21#8 g .badValue
         else { s with ple := { s.ple with weights := ws }, lif := s.lif.answering 0x21#8 g .ok [] }))
     ∧ (∀ n bs, bs.length = n →
       (s.ltr.lineState = .halted → exec (.classSet g n bs) s = .next (s.refusedWith 0x22#8 g .halted))
       ∧ ((s.ltr.lineState = .running ∨ s.ltr.lineState = .stopping) →
         exec (.classSet g n bs) s = .next (s.refusedWith 0x22#8 g .wrongState))
       ∧ (s.ltr.lineState = .stopped →
         ¬ (1 ≤ n ∧ n ≤ 8 ∧ bs.Pairwise (· < ·) ∧ ∀ b ∈ bs, 150 ≤ b ∧ b ≤ 3000) →
         exec (.classSet g n bs) s = .next (s.refusedWith 0x22#8 g .badValue))
       ∧ (s.ltr.lineState = .stopped →
         (1 ≤ n ∧ n ≤ 8 ∧ bs.Pairwise (· < ·) ∧ ∀ b ∈ bs, 150 ≤ b ∧ b ≤ 3000) → s.namesClassAbove n →
         exec (.classSet g n bs) s = .next (s.refusedWith 0x22#8 g .inUse))
       ∧ (s.ltr.lineState = .stopped →
         (1 ≤ n ∧ n ≤ 8 ∧ bs.Pairwise (· < ·) ∧ ∀ b ∈ bs, 150 ≤ b ∧ b ≤ 3000) → ¬ s.namesClassAbove n →
         exec (.classSet g n bs) s = .next { s with
           ple := { s.ple with classesLoaded := true, bounds := bs }
           lif := s.lif.answering 0x22#8 g .ok [] })))
  ∧ (∀ (g : Byte) (s : State), s.lif.reply = none →
       (∀ vs, vs.length = 40 → exec (.valueSet g vs) s = .next
         (if s.ltr.lineState = .halted then s.refusedWith 0x28#8 g .halted
         else if ∃ v ∈ vs, 4095 < v then s.refusedWith 0x28#8 g .badValue
         else { s with ple := { s.ple with values := vs }, lif := s.lif.answering 0x28#8 g .ok [] }))
       ∧ (∀ o, exec (.planOptions g o) s = .next
         (if s.ltr.lineState = .halted then s.refusedWith 0x29#8 g .halted
         else if 50 < o.margin ∨ 100 < o.stockPct ∨ 100 < o.overrunPct then s.refusedWith 0x29#8 g .badValue
         else { s with ple := { s.ple with options := o }, lif := s.lif.answering 0x29#8 g .ok [] })))

/-! ## Planning (chapter 4) -/

/-- Every plan keeps its limits: at most 8 pieces in ascending start, each within the usable region and the
admissible range, of a grade in the table and worth more than 0, each starting at least K after the end of the
one before (R59). The boundaries are the points of R54, held within the usable region, ascending. A candidate is
admissible when its length is in the range of R51 and it has a grade and a class, and its value is R56's. The best
records are R57's, each the first of SKIP and the admissible candidates that no other is better than by value, count
and length (R58); the last has the most by that order of all sets of admissible pieces on the boundaries, each at
least K after the one before, and its figures are those of its own pieces. The plan is empty exactly where
Lmax' < Lmin', L - 2E < Lmin' or the last best record is empty; else it is that record's pieces in ascending start
when at most 8, else its eight of highest value, of equal value the one of lower start (R51, R59). That a record holds
the pieces its back-choices trace, last first, is the model's reading of R57 and R59 (DEDUCED, log 22). -/
def Obligations.PlansAreSoundAndBest : Prop :=
  (∀ (e : Ple) (n : Snapshot) (l : Nat) (ds : List Defect), 2 * n.endTrim ≤ l →
     (selectPlan e n l ds).length ≤ 8
     ∧ (selectPlan e n l ds).Pairwise (fun a b => a.stop + n.allowance ≤ b.start)
     ∧ ∀ p ∈ selectPlan e n l ds,
       n.endTrim ≤ p.start ∧ p.start < p.stop ∧ p.stop + n.endTrim ≤ l ∧ p.net = p.stop - p.start
       ∧ n.lminUsed ≤ p.net ∧ p.net ≤ n.lmaxUsed ∧ gradeOf e p.start p.stop ds = some p.grade
       ∧ classOf e.bounds p.net = some p.cls
       ∧ p.value = n.value p.grade p.cls * p.net * n.factor p.grade p.cls / 100000 ∧ 0 < p.value)
  ∧ (∀ n : Snapshot,
       (n.gauge ≠ .suspect → n.lminUsed = n.lmin ∧ n.lmaxUsed = n.lmax)
       ∧ (n.gauge = .suspect → n.margin ≤ n.lmax →
           n.lminUsed = n.lmin + n.margin ∧ n.lmaxUsed = n.lmax - n.margin)
       ∧ ∀ g c v, 1 ≤ g → 1 ≤ c → c ≤ 8 → n.values[8 * (g - 1) + (c - 1)]? = some v → n.value g c = v)
  ∧ (∀ (n : Snapshot) (l : Nat) (ds : List Defect), 2 * n.endTrim ≤ l →
       (boundaries n l ds).Pairwise (· < ·)
       ∧ ∀ x, x ∈ boundaries n l ds ↔ ∃ p, n.pointed l ds p
           ∧ x = if p < n.endTrim then n.endTrim else if l - n.endTrim < p then l - n.endTrim else p)
  ∧ (∀ (e : Ple) (n : Snapshot) (ds : List Defect) (p q : Nat) (x : PlannedPiece), p < q →
       (candidate e n ds p q = some x ↔ n.lminUsed ≤ q - p ∧ q - p ≤ n.lmaxUsed
         ∧ gradeOf e p q ds = some x.grade ∧ classOf e.bounds (q - p) = some x.cls
         ∧ x = { start := p, stop := q, net := q - p, grade := x.grade, cls := x.cls
                 value := n.value x.grade x.cls * (q - p) * n.factor x.grade x.cls / 100000
                 line := none, created := false }))
  ∧ (∀ (e : Ple) (n : Snapshot) (l : Nat) (ds : List Defect),
       let bs := boundaries n l ds
       let F := bests e n ds bs
       let best := F.getLast?.getD Best.none
       F.length = bs.length
       ∧ F[0]? = some { value := 0, count := 0, length := 0, pieces := [] }
       ∧ (∀ j f, 1 ≤ j → F[j]? = some f → bestRecord e n ds bs F j f)
       ∧ F.getLast? = some best
       ∧ (best.pieces.map (·.value)).sum = best.value
       ∧ best.pieces.length = best.count
       ∧ (best.pieces.map (·.net)).sum = best.length
       ∧ (∀ ps : List PlannedPiece,
         (∀ p ∈ ps, ∃ (i j bi bj : Nat), i < j ∧ bs[i]? = some bi ∧ bs[j]? = some bj
           ∧ candidate e n ds bi bj = some p) →
         ps.Pairwise (fun a b => a.stop + n.allowance ≤ b.start) →
         (ps.map (·.value)).sum ≤ best.value
         ∧ ((ps.map (·.value)).sum = best.value → best.count ≤ ps.length
           ∧ (ps.length = best.count → (ps.map (·.net)).sum ≤ best.length)))
       ∧ (2 * n.endTrim ≤ l →
         (selectPlan e n l ds = [] ↔
           n.lmaxUsed < n.lminUsed ∨ l - 2 * n.endTrim < n.lminUsed ∨ best.pieces = [])
         ∧ (n.lminUsed ≤ n.lmaxUsed → n.lminUsed ≤ l - 2 * n.endTrim → best.pieces.length ≤ 8 →
           selectPlan e n l ds = best.pieces.reverse)
         ∧ (n.lminUsed ≤ n.lmaxUsed → n.lminUsed ≤ l - 2 * n.endTrim → 8 < best.pieces.length →
           (selectPlan e n l ds).length = 8 ∧ (selectPlan e n l ds).Sublist best.pieces.reverse
           ∧ ∀ a ∈ selectPlan e n l ds, ∀ b ∈ best.pieces, b ∉ selectPlan e n l ds →
             b.value < a.value ∨ (b.value = a.value ∧ a.start < b.start))))

/-- The completion of a computation: an empty plan makes the strip UNCUT(NO_YIELD); a plan of pieces is written
READY. Each piece, in ascending start, has the line of its lookup against the order lines with the reservations of
the pieces before it added, and every line's reserved grows by exactly the lengths of the pieces given it (R60,
R72). The engine, IDLE again, takes up the oldest eligible record, or none (R48, R49). That nothing completes in
IDLE is the model's choice (log 3). -/
def Obligations.CompletionWritesThePlan : Prop :=
  ∀ s : State,
    (s.ple.engine = none → exec .planCompletion s = .next s)
    ∧ (∀ c r ds colour, s.ple.engine = some c → stripOf s c.tag = some r →
        ds = (r.scan.map (·.defects)).getD [] → colour = (r.scan.map (·.colour)).getD 0 →
      (selectPlan s.ple c.snapshot (r.length.getD 0) ds = [] →
        ∃ t u : State, exec .planCompletion s = .next t
          ∧ u = { s with
              ple := { s.ple with engine := none, noYieldPlans := min (s.ple.noYieldPlans + 1) 65535 }
              ltr := { s.ltr with strips := s.ltr.strips.map (fun x => if x.tag = c.tag then
                { x with plan := some [], status := .uncut .noYield } else x) } }
          ∧ u.takesUp t)
      ∧ (selectPlan s.ple c.snapshot (r.length.getD 0) ds ≠ [] →
        ∃ (t u : State) (ps : List PlannedPiece), exec .planCompletion s = .next t
          ∧ u = { s with
              ple := { s.ple with engine := none, readyPlans := min (s.ple.readyPlans + 1) 65535 }
              ltr := { s.ltr with strips := s.ltr.strips.map (fun x => if x.tag = c.tag then
                { x with plan := some ps, status := .ready } else x) }
              otu := u.otu }
          ∧ ps.map (fun p => { p with line := none })
            = (selectPlan s.ple c.snapshot (r.length.getD 0) ds).map (fun p => { p with line := none })
          ∧ (∀ i p, ps[i]? = some p → ∀ w : State,
              (∀ k, 1 ≤ k → k ≤ 32 → lineAt w k = { lineAt s k with reserved := (lineAt s k).reserved
                + (((ps.take i).filter (fun q => q.line = some k)).map (·.net)).sum }) →
              p.line = lookup w p.grade p.cls colour)
          ∧ (∀ k, 1 ≤ k → k ≤ 32 → lineAt u k = { lineAt s k with reserved := (lineAt s k).reserved
              + ((ps.filter (fun p => p.line = some k)).map (·.net)).sum })
          ∧ u.takesUp t))

/-! ## Orders (chapter 5) -/

/-- The lookup gives the matching line of lowest index whose effective remaining is above 0, else the matching
line of lowest index, else none (R71). -/
def Obligations.LookupByLowestIndex : Prop :=
  ∀ (s : State) (g c k : Nat),
    (∀ i, lookup s g c k = some i ↔ 1 ≤ i ∧ i ≤ 32 ∧ (lineAt s i).matching g c k ∧
      (((0 : Int) < (lineAt s i).demand - (lineAt s i).fulfilled - (lineAt s i).reserved
          ∧ ∀ j, 1 ≤ j → j < i → (lineAt s j).matching g c k →
            ((lineAt s j).demand : Int) - (lineAt s j).fulfilled - (lineAt s j).reserved ≤ 0)
        ∨ ((∀ j, 1 ≤ j → j ≤ 32 → (lineAt s j).matching g c k →
              ((lineAt s j).demand : Int) - (lineAt s j).fulfilled - (lineAt s j).reserved ≤ 0)
          ∧ ∀ j, 1 ≤ j → j < i → ¬ (lineAt s j).matching g c k)))
    ∧ (lookup s g c k = none ↔ ∀ j, 1 ≤ j → j ≤ 32 → ¬ (lineAt s j).matching g c k)

/-- ORDER_LOAD with a reference of 12 bytes: its five checks in order; taken, the line is OPEN with the order
and empty accounts, and no other line changes (R67). ORDER_AMEND: its checks in order; taken, the demand of
the OPEN line is replaced, and a line not yet filled that has met it is filled with ORDER_FILLED, cause AMEND
(R68, R76). ORDER_CLOSE: its checks in order; an OPEN line with reservations drains, one with none is FREE at
once with ORDER_DONE, a DRAINING line stays (R69, R77). -/
def Obligations.OrderRequests : Prop :=
  (∀ (g : Byte) (k : Nat) (o : OrderFields) (s : State), s.lif.reply = none → o.reference.length = 12 →
     ∃ t, exec (.orderLoad g k o) s = .next t ∧
       (if s.ltr.lineState = .halted then t = s.refusedWith 0x30#8 g .halted
       else if ¬ (1 ≤ k ∧ k ≤ 32) then t = s.refusedWith 0x30#8 g .badValue
       else if ¬ (s.ple.gradesLoaded = true ∧ s.ple.classesLoaded = true) then
         t = s.refusedWith 0x30#8 g .notConfigured
       else if ¬ (1 ≤ o.grade ∧ o.grade ≤ s.ple.grades.length ∧ 1 ≤ o.cls ∧ o.cls ≤ s.ple.bounds.length
           ∧ o.colour ∈ [.any, .only 0, .only 1, .only 2, .only 3] ∧ 1 ≤ o.demand ∧ o.demand ≤ 2000000000
           ∧ ∀ b ∈ textOf o.reference, 0x20 ≤ b.toNat ∧ b.toNat ≤ 0x7E) then
         t = s.refusedWith 0x30#8 g .badValue
       else if (lineAt s k).state ≠ .free then t = s.refusedWith 0x30#8 g .inUse
       else t = { s with otu := t.otu, lif := s.lif.answering 0x30#8 g .ok [] }
         ∧ lineAt t k = { state := .opened, reference := textOf o.reference, grade := o.grade, cls := o.cls
                          colour := o.colour, demand := o.demand, fulfilled := 0, reserved := 0, landed := 0
                          filled := false }
         ∧ ∀ j, j ≠ k → lineAt t j = lineAt s j))
  ∧ (∀ (g : Byte) (k d : Nat) (s : State), s.lif.reply = none →
       ∃ t, exec (.orderAmend g k d) s = .next t ∧
         (if s.ltr.lineState = .halted then t = s.refusedWith 0x31#8 g .halted
         else if ¬ (1 ≤ k ∧ k ≤ 32 ∧ 1 ≤ d ∧ d ≤ 2000000000) then t = s.refusedWith 0x31#8 g .badValue
         else if (lineAt s k).state = .free then t = s.refusedWith 0x31#8 g .notFound
         else if (lineAt s k).state = .draining then t = s.refusedWith 0x31#8 g .wrongState
         else t = { s with otu := t.otu, lif := t.lif } ∧ (∀ j, j ≠ k → lineAt t j = lineAt s j)
           ∧ if (lineAt s k).filled = false ∧ d ≤ (lineAt s k).fulfilled then
               lineAt t k = { lineAt s k with demand := d, filled := true }
               ∧ t.lif = (s.lif.raise (.orderFilled k (lineAt s k).reference d (lineAt s k).fulfilled
                   (lineAt s k).reserved .amend)).answering 0x31#8 g .ok []
             else lineAt t k = { lineAt s k with demand := d } ∧ t.lif = s.lif.answering 0x31#8 g .ok []))
  ∧ (∀ (g : Byte) (k : Nat) (s : State), s.lif.reply = none →
       ∃ t, exec (.orderClose g k) s = .next t ∧
         (if s.ltr.lineState = .halted then t = s.refusedWith 0x32#8 g .halted
         else if ¬ (1 ≤ k ∧ k ≤ 32) then t = s.refusedWith 0x32#8 g .badValue
         else if (lineAt s k).state = .free then t = s.refusedWith 0x32#8 g .notFound
         else if (lineAt s k).state = .draining then t = { s with lif := s.lif.answering 0x32#8 g .ok [] }
         else t = { s with otu := t.otu, lif := t.lif } ∧ (∀ j, j ≠ k → lineAt t j = lineAt s j)
           ∧ if (lineAt s k).reserved = 0 then
               lineAt t k = { lineAt s k with state := .free }
               ∧ t.lif = (s.lif.raise (.orderDone k (lineAt s k).reference (lineAt s k).demand
                   (lineAt s k).fulfilled (lineAt s k).landed (lineAt s k).filled)).answering 0x32#8 g .ok []
             else lineAt t k = { lineAt s k with state := .draining }
               ∧ t.lif = s.lif.answering 0x32#8 g .ok []))

/-! ## Pacing and profiles (chapter 6) -/

/-- LINE_GEOMETRY: ranges and conditions, then the line state (that BAD_VALUE comes before WRONG_STATE is the model's
reading, DEDUCED, log 21); taken, it replaces the geometry, and a new trim scale makes the gauge status UNVERIFIED
(R5, R32). PACE_SET: ranges and orders, then a changed scale or pitch while the line watches its eyes; taken, it
replaces the settings with gap counts held at 14, and a new slot_pitch starts a new period (R79). TRIM_SET, HEADS_SET
and SORT_SET: ranges; for SORT_SET a changed scale while the line watches its eyes; taken, the settings are replaced,
and HEADS_SET answers the new travel time (R96, R104, R113). That a new drop_window holds from its taking, for the
pieces created before the reply too, is the model's choice (DESIGN CHOICE, log 41). -/
def Obligations.SettingsAreReplaced : Prop :=
  (∀ (t : Byte) (g : Geometry) (s : State), s.lif.reply = none →
     exec (.lineGeometry t g) s = .next
       (if s.ltr.lineState = .halted then s.refusedWith 0x14#8 t .halted
       else if ¬ (10 ≤ g.scale ∧ g.scale ≤ 2000 ∧ 50 ≤ g.dScan ∧ g.dScan ≤ 20000 ∧ 100 ≤ g.dSaw ∧ g.dSaw ≤ 40000
           ∧ 1 ≤ g.eyeTol ∧ g.eyeTol ≤ 200 ∧ 10 ≤ g.planLead ∧ g.planLead ≤ 40000
           ∧ 100 ≤ g.feedWindow ∧ g.feedWindow ≤ 20000
           ∧ g.eyeTol < g.dScan ∧ (g.dScan : Int) + g.eyeTol < g.dSaw - g.planLead ∧ g.eyeTol < g.planLead) then
         s.refusedWith 0x14#8 t .badValue
       else if s.ltr.lineState = .running ∨ s.ltr.lineState = .stopping then s.refusedWith 0x14#8 t .wrongState
       else { s with
         ltr := { s.ltr with geometry := g, geometryLoaded := true }
         msu := { s.msu with status := if g.scale = s.ltr.geometry.scale then s.msu.status else .unverified }
         lif := s.lif.answering 0x14#8 t .ok [] }))
  ∧ (∀ (g : Byte) (p : PaceSettings) (s : State), s.lif.reply = none →
       exec (.paceSet g p) s = .next
         (if s.ltr.lineState = .halted then s.refusedWith 0x40#8 g .halted
         else if ¬ ((10 ≤ p.scale ∧ p.scale ≤ 2000) ∧ (100 ≤ p.slotPitch ∧ p.slotPitch ≤ 2000)
             ∧ (10 ≤ p.feedPulse ∧ p.feedPulse ≤ 1000) ∧ (p.t1 ≤ 32 ∧ p.t2 < p.t1 ∧ p.t3 < p.t2)
             ∧ (p.s1 ≤ 64 ∧ p.s2 < p.s1 ∧ p.s3 < p.s2) ∧ (1 ≤ p.b1 ∧ p.b1 < p.b2 ∧ p.b2 < p.b3 ∧ p.b3 ≤ 14)
             ∧ (p.g1 ≤ 255 ∧ p.g2 ≤ 255 ∧ p.g3 ≤ 255)) then s.refusedWith 0x40#8 g .badValue
         else if (s.ltr.lineState = .running ∨ s.ltr.lineState = .stopping)
             ∧ (p.scale ≠ s.fdp.settings.scale ∨ p.slotPitch ≠ s.fdp.settings.slotPitch) then
           s.refusedWith 0x40#8 g .wrongState
         else { s with
           fdp := { s.fdp with
             settings := { p with g1 := min 14 p.g1, g2 := min 14 p.g2, g3 := min 14 p.g3 }
             slotIndex := if p.slotPitch = s.fdp.settings.slotPitch then s.fdp.slotIndex else 15
             nextBoundary := if p.slotPitch = s.fdp.settings.slotPitch then s.fdp.nextBoundary
                             else s.fdp.pos + umOfMm p.slotPitch }
           lif := s.lif.answering 0x40#8 g .ok (be1 (min 14 p.g1) ++ be1 (min 14 p.g2) ++ be1 (min 14 p.g3)) }))
  ∧ (∀ (g : Byte) (s : State), s.lif.reply = none →
       (∀ t : TrimSettings, exec (.trimSet g t) s = .next
         (if s.ltr.lineState = .halted then s.refusedWith 0x50#8 g .halted
         else if ¬ ((20 ≤ t.sawDistance ∧ t.sawDistance ≤ 2000) ∧ t.sawLead ≤ 1000 ∧ t.sawLead < t.sawDistance
             ∧ (10 ≤ t.sawPulse ∧ t.sawPulse ≤ 500) ∧ (1 ≤ t.slipTol ∧ t.slipTol ≤ 50)
             ∧ (-5000 ≤ t.sawComp ∧ t.sawComp ≤ 5000)) then s.refusedWith 0x50#8 g .badValue
         else { s with tsc := { s.tsc with trim := t }, lif := s.lif.answering 0x50#8 g .ok [] }))
       ∧ (∀ h : HeadsSettings, exec (.headsSet g h) s = .next
         (if s.ltr.lineState = .halted then s.refusedWith 0x51#8 g .halted
         else if ¬ (h.hysteresis ≤ 600000 ∧ h.residency ≤ 600000 ∧ (100 ≤ h.spinUp ∧ h.spinUp ≤ 30000)
             ∧ (100 ≤ h.path ∧ h.path ≤ 100000) ∧ (100 ≤ h.speed ∧ h.speed ≤ 5000)) then
           s.refusedWith 0x51#8 g .badValue
         else { s with tsc := { s.tsc with heads := h, travelMs := h.path * 1000 / h.speed }
                       lif := s.lif.answering 0x51#8 g .ok (be4 (h.path * 1000 / h.speed)) }))
       ∧ (∀ n : SortSettings, exec (.sortSet g n) s = .next
         (if s.ltr.lineState = .halted then s.refusedWith 0x54#8 g .halted
         else if ¬ ((10 ≤ n.scale ∧ n.scale ≤ 2000) ∧ (100 ≤ n.dropWindow ∧ n.dropWindow ≤ 20000)) then
           s.refusedWith 0x54#8 g .badValue
         else if (s.ltr.lineState = .running ∨ s.ltr.lineState = .stopping) ∧ n.scale ≠ s.srt.settings.scale then
           s.refusedWith 0x54#8 g .wrongState
         else { s with srt := { s.srt with settings := n }, lif := s.lif.answering 0x54#8 g .ok [] })))

/-- The slot that begins is SKIPPED, HELD, FED or EMPTY by the first condition that holds, a HELD slot with a strip
waiting and no hold but CUTTER waking the cutters in STANDBY (R78, R82 to R84, R108). The slot event after slot 15
opens slot 0 and a feed period: the three source levels from the free counts and the blocked bins, the pace level
their greatest, the gap count by level, PACE_LEVEL when the level changes; then slot 0 is decided as any other (R80,
R81, R83). The slot index and boundary advance in each. After tag 65,535 comes 1 (R3), and 1 mm is 1,000 um. That a
slot event before its boundary is reached, or in HALTED, leaves the state unchanged is the model's choice (DESIGN
CHOICE, log 3). -/
def Obligations.SlotsOfAFeedPeriod : Prop :=
  (∀ t, (t < 65535 → tagAfter t = t + 1) ∧ tagAfter 65535 = 1)
  ∧ (∀ mm, umOfMm mm = BitVec.ofNat 32 (1000 * mm))
  ∧ (∀ s : State, (s.ltr.lineState = .halted ∨ (s.fdp.pos - s.fdp.nextBoundary).toInt < 0) →
     exec .slotEvent s = .next s)
  ∧ (∀ s : State, s.ltr.lineState ≠ .halted → 0 ≤ (s.fdp.pos - s.fdp.nextBoundary).toInt →
       (s.fdp.slotIndex < 15 → ∃ t, exec .slotEvent s = .next t
         ∧ State.slotDecided { s with fdp := { s.fdp with
             slotIndex := s.fdp.slotIndex + 1
             nextBoundary := s.fdp.nextBoundary + umOfMm s.fdp.settings.slotPitch } } t)
       ∧ (15 ≤ s.fdp.slotIndex →
         ∀ free sort blocked tl sl bl level p, p = s.fdp.settings → free = 32 - s.ltr.strips.length →
         sort = 64 - s.srt.pieces.length →
         blocked = s.bdb.bins.toList.countP (fun b =>
           b.state == .closePending || b.state == .closing || b.state == .waitCart) →
         tl = (if free < p.t3 then 3 else if free < p.t2 then 2 else if free < p.t1 then 1 else 0) →
         sl = (if sort < p.s3 then 3 else if sort < p.s2 then 2 else if sort < p.s1 then 1 else 0) →
         bl = (if p.b3 ≤ blocked then 3 else if p.b2 ≤ blocked then 2 else if p.b1 ≤ blocked then 1 else 0) →
         level = max tl (max sl bl) →
         ∃ t, exec .slotEvent s = .next t ∧ State.slotDecided { s with
             fdp := { s.fdp with
               slotIndex := 0, nextBoundary := s.fdp.nextBoundary + umOfMm p.slotPitch
               level := level, trackLevel := tl, sortLevel := sl, binLevel := bl
               trackFree := free, sortFree := sort, blockedBins := blocked
               gapCount := if level = 0 then 0 else if level = 1 then p.g1 else if level = 2 then p.g2 else p.g3 }
             lif := if level = s.fdp.level then s.lif
                    else s.lif.raise (.paceLevel level s.fdp.level tl sl bl free sort blocked) } t))

/-- The feed-ready eye: its level follows the input outside HALTED and holds in it; blocked, it returns the
cutter group from IDLE_WAIT to RUN; clear, with no strip record, it sends RUN to IDLE_WAIT when H is above 0
(R84, R106). That an edge to the level the input already has does nothing is the model's choice (log 3). -/
def Obligations.FeedReadyFollowsItsInput : Prop :=
  ∀ s : State,
    (∀ b, s.pins.feedReady = b → exec (.feedReadyEdge b) s = .next s)
    ∧ (∀ b, s.pins.feedReady ≠ b → s.ltr.lineState = .halted →
      exec (.feedReadyEdge b) s = .next { s with pins := { s.pins with feedReady := b } })
    ∧ (s.pins.feedReady = false → s.ltr.lineState ≠ .halted → s.tsc.cutter ≠ .idleWait →
      exec (.feedReadyEdge true) s = .next { s with
        pins := { s.pins with feedReady := true }, fdp := { s.fdp with feedReady := true } })
    ∧ (s.pins.feedReady = false → s.ltr.lineState ≠ .halted → s.tsc.cutter = .idleWait →
      exec (.feedReadyEdge true) s = .next { s with
        pins := { s.pins with feedReady := true }, fdp := { s.fdp with feedReady := true }
        tsc := { s.tsc with cutter := .run, runOutput := true, hystTimer := none }
        lif := s.lif.raise (.cutterState .run .idleWait .activity) })
    ∧ (s.pins.feedReady = true → s.ltr.lineState ≠ .halted →
        (s.tsc.cutter ≠ .run ∨ s.ltr.strips ≠ [] ∨ s.tsc.heads.hysteresis = 0) →
      exec (.feedReadyEdge false) s = .next { s with
        pins := { s.pins with feedReady := false }, fdp := { s.fdp with feedReady := false } })
    ∧ (s.pins.feedReady = true → s.ltr.lineState ≠ .halted → s.tsc.cutter = .run → s.ltr.strips = [] →
        0 < s.tsc.heads.hysteresis →
      exec (.feedReadyEdge false) s = .next { s with
        pins := { s.pins with feedReady := false }, fdp := { s.fdp with feedReady := false }
        tsc := { s.tsc with cutter := .idleWait, runOutput := true
                            hystTimer := some s.tsc.heads.hysteresis }
        lif := s.lif.raise (.cutterState .idleWait .run .idle) })

/-- PROFILE_SET with texts of 4 and 8 bytes: the fields, then the use of the set; taken, the set is defined with them
and no other set changes (R86, R87), its figures and texts holding from the taking, before the reply too (DESIGN
CHOICE, log 41). PROFILE_CHANGE by changeover state: its refusals; in RUNNING it starts draining, and with both queues
empty passes on to TOOLING at once, after a PROFILE close request for every OPEN bin with something allocated, in
ascending bin number; in DRAINING it keeps, replaces or drops the target; in TOOL_FAULT it restarts the tooling (R88
to R90, R93, R94). PROFILE_ABORT by changeover state (R89, R91, R93). -/
def Obligations.ProfileRequests : Prop :=
  (∀ (g : Byte) (n : Nat) (p : ProfileSet) (s : State), s.lif.reply = none → p.species.length = 4 →
     p.profileId.length = 8 → ∃ t, exec (.profileSet g n p) s = .next t ∧
       (if s.ltr.lineState = .halted then t = s.refusedWith 0x48#8 g .halted
       else if ¬ ((1 ≤ n ∧ n ≤ 8) ∧ (20 ≤ p.width ∧ p.width ≤ 400) ∧ (4 ≤ p.thickness ∧ p.thickness ≤ 60)
           ∧ p.endTrim ≤ 50 ∧ (2 ≤ p.allowance ∧ p.allowance ≤ 20) ∧ (150 ≤ p.lmin ∧ p.lmin ≤ 1200)
           ∧ (300 ≤ p.lmax ∧ p.lmax ≤ 3000) ∧ (10 ≤ p.toolingLimit ∧ p.toolingLimit ≤ 3600) ∧ p.lmin ≤ p.lmax
           ∧ (∀ b ∈ textOf p.species, 0x20 ≤ b.toNat ∧ b.toNat ≤ 0x7E)
           ∧ ∀ b ∈ textOf p.profileId, 0x20 ≤ b.toNat ∧ b.toNat ≤ 0x7E) then
         t = s.refusedWith 0x48#8 g .badValue
       else if (s.pfc.active = some n ∧ (s.ltr.lineState = .running ∨ s.ltr.lineState = .stopping))
           ∨ (s.pfc.target = some n ∧ s.pfc.changeover ≠ .running) then t = s.refusedWith 0x48#8 g .inUse
       else t = { s with pfc := { s.pfc with sets := t.pfc.sets }, lif := s.lif.answering 0x48#8 g .ok [] }
         ∧ tabGet t.pfc.sets n
           = some (some { p with species := textOf p.species, profileId := textOf p.profileId })
         ∧ ∀ m, m ≠ n → tabGet t.pfc.sets m = tabGet s.pfc.sets m))
  ∧ (∀ (g : Byte) (n : Nat) (s : State), s.lif.reply = none →
       (s.ltr.lineState = .halted → exec (.profileChange g n) s = .next (s.refusedWith 0x49#8 g .halted))
       ∧ (s.ltr.lineState ≠ .halted →
         (¬ (1 ≤ n ∧ n ≤ 8) → exec (.profileChange g n) s = .next (s.refusedWith 0x49#8 g .badValue))
         ∧ (tabGet s.pfc.sets n = some none →
           exec (.profileChange g n) s = .next (s.refusedWith 0x49#8 g .notFound))
         ∧ ∀ p, tabGet s.pfc.sets n = some (some p) →
           (s.pfc.changeover = .tooling → exec (.profileChange g n) s = .next (s.refusedWith 0x49#8 g .busy))
           ∧ (s.pfc.changeover = .running → s.pfc.active = some n → exec (.profileChange g n) s
             = .next { s with lif := s.lif.answering 0x49#8 g .ok (be1 0) })
           ∧ (s.pfc.changeover = .running → s.pfc.active ≠ some n →
               (s.ltr.strips ≠ [] ∨ s.srt.pieces ≠ []) → exec (.profileChange g n) s = .next { s with
             pfc := { s.pfc with target := some n, changeover := .draining }
             lif := (s.lif.raise (.profileState .draining .running (some n) s.pfc.active .request)).answering
               0x49#8 g .ok (be1 1) })
           ∧ (s.pfc.changeover = .running → s.pfc.active ≠ some n → s.ltr.strips = [] → s.srt.pieces = [] →
               (∀ b, (binAt s b).state = .opened → (binAt s b).bundle.rowFills = []) →
             exec (.profileChange g n) s = .next { s with
               pfc := { s.pfc with target := some n, changeover := .tooling, toolingRequest := true
                                   timer := some (p.toolingLimit * 1000) }
               lif := ((s.lif.raise (.profileState .draining .running (some n) s.pfc.active .request)).raise
                 (.profileState .tooling .draining (some n) s.pfc.active .drained)).answering
                   0x49#8 g .ok (be1 2) })
           ∧ (s.pfc.changeover = .running → s.pfc.active ≠ some n → s.queuesEmpty →
             ∃ t, exec (.profileChange g n) s = .next { t with lif := t.lif.answering 0x49#8 g .ok (be1 2) }
               ∧ State.toolsWhenEmpty { s with
                   pfc := { s.pfc with target := some n, changeover := .draining }
                   lif := s.lif.raise (.profileState .draining .running (some n) s.pfc.active .request) } t)
           ∧ (s.pfc.changeover = .draining → s.pfc.target = some n → exec (.profileChange g n) s
             = .next { s with lif := s.lif.answering 0x49#8 g .ok (be1 1) })
           ∧ (s.pfc.changeover = .draining → s.pfc.target ≠ some n → s.pfc.active ≠ some n →
             exec (.profileChange g n) s = .next { s with
               pfc := { s.pfc with target := some n }, lif := s.lif.answering 0x49#8 g .ok (be1 1) })
           ∧ (s.pfc.changeover = .draining → s.pfc.target ≠ some n → s.pfc.active = some n →
             exec (.profileChange g n) s = .next { s with
               pfc := { s.pfc with target := none, changeover := .running, toolingRequest := false
                                   timer := none }
               lif := (s.lif.raise (.profileState .running .draining none s.pfc.active .request)).answering
                 0x49#8 g .ok (be1 0) })
           ∧ (s.pfc.changeover = .toolFault → exec (.profileChange g n) s = .next { s with
               pfc := { s.pfc with target := some n, changeover := .tooling
                                   timer := some (p.toolingLimit * 1000) }
               lif := (s.lif.raise (.profileState .tooling .toolFault (some n) s.pfc.active .request)).answering
                 0x49#8 g .ok (be1 2) })))
  ∧ (∀ (g : Byte) (s : State), s.lif.reply = none →
       (s.ltr.lineState = .halted → exec (.profileAbort g) s = .next (s.refusedWith 0x4A#8 g .halted))
       ∧ (s.ltr.lineState ≠ .halted →
         (s.pfc.changeover = .tooling → exec (.profileAbort g) s = .next (s.refusedWith 0x4A#8 g .busy))
         ∧ (s.pfc.changeover = .running → exec (.profileAbort g) s
           = .next { s with lif := s.lif.answering 0x4A#8 g .ok [] })
         ∧ ((s.pfc.changeover = .draining ∨ s.pfc.changeover = .toolFault) →
           exec (.profileAbort g) s = .next { s with
             pfc := { s.pfc with target := none, changeover := .running, toolingRequest := false, timer := none
                                 aborts := min (s.pfc.aborts + 1) 65535 }
             lif := (s.lif.raise (.profileState .running s.pfc.changeover none s.pfc.active .request)).answering
               0x4A#8 g .ok [] })))

/-- Tooling-ready and the tooling timer, in every line state: a rise in TOOLING makes the target the active
set, a rise elsewhere is counted, a fall moves only the level; the expiry in TOOLING makes TOOL_FAULT with the
request, target and active set as they were (R91, R92, R94). That a rise with the input already high, and an
expiry with the timer not running, do nothing is the model's choice (log 3). -/
def Obligations.ToolingEndsTheChangeover : Prop :=
  ∀ s : State,
    (s.pins.toolingReady = true → exec .toolingReadyRise s = .next s)
    ∧ (s.pins.toolingReady = false → s.pfc.changeover = .tooling → exec .toolingReadyRise s = .next { s with
        pins := { s.pins with toolingReady := true }
        pfc := { s.pfc with active := s.pfc.target, target := none, toolingRequest := false, timer := none
                            changeover := .running, completed := min (s.pfc.completed + 1) 65535 }
        lif := s.lif.raise (.profileState .running .tooling none s.pfc.target .ready) })
    ∧ (s.pins.toolingReady = false → s.pfc.changeover ≠ .tooling → exec .toolingReadyRise s = .next { s with
        pins := { s.pins with toolingReady := true }
        pfc := { s.pfc with unsolicited := min (s.pfc.unsolicited + 1) 65535 } })
    ∧ exec .toolingReadyFall s = .next { s with pins := { s.pins with toolingReady := false } }
    ∧ (∀ m, s.pfc.changeover = .tooling → s.pfc.timer = some m → exec .toolingTimerExpiry s = .next { s with
        pfc := { s.pfc with timer := none, changeover := .toolFault
                            toolFaults := min (s.pfc.toolFaults + 1) 65535 }
        lif := s.lif.raise (.profileState .toolFault .tooling s.pfc.target s.pfc.active .timeout) })
    ∧ ((s.pfc.changeover ≠ .tooling ∨ s.pfc.timer = none) → exec .toolingTimerExpiry s = .next s)

/-! ## The trim station (chapter 7) -/

/-- The next PENDING cut of a strip falls due when its fire position is reached outside HALTED. In RUN it is
MADE and the saw fires, and where a planned piece ends at it, that piece is created; with the trailing edge seen, so is
the last planned piece, whose end is the strip's, when it begins at this cut. In any other state it is MISSED, the other
PENDING cuts are CANCELLED, and with the trailing edge seen the remainder is created as the uncut piece (R98 to R100). A
piece joins the Piece Sort Queue as EXPECTED, or is counted as SORT_FULL in a full one (R116). With the trailing edge
seen and no cut PENDING the strip's record and cut list go, with what follows a removal (R102). The model's: that the
command names the strip's tag and is the falling due of its first PENDING cut (DESIGN CHOICE, log 24), that before the
fire position is reached, or in HALTED, it leaves the state unchanged (DESIGN CHOICE, log 3), the extent and values of
the uncut piece (DEDUCED, logs 17 and 27), and at the strip's removal the order of the notices (logs 12 and 37). -/
def Obligations.CutFallsDue : Prop :=
  ∀ (s : State) (c : CutList) (r : Strip) (before after : List Cut) (k : Cut),
    s.tsc.cutLists.find? (fun x => x.tag == r.tag) = some c → stripOf s r.tag = some r →
    c.cuts = before ++ k :: after → (∀ j ∈ before, j.state ≠ .pending) → k.state = .pending →
    ((s.ltr.lineState = .halted ∨ (s.ltr.trimPos - k.fireAt).toInt < 0) →
      exec (.cutDue r.tag) s = .next s)
    ∧ (s.ltr.lineState ≠ .halted → 0 ≤ (s.ltr.trimPos - k.fireAt).toInt →
      (s.tsc.cutter = .run → ∀ c' : CutList, c' = { c with
          lastMade := k.x, cuts := c.cuts.map (fun j => if j.x = k.x then { j with state := .made } else j) } →
        ∃ t u v w : State, exec (.cutDue r.tag) s = .next t
          ∧ u = { s with tsc := { s.tsc with
              sawPulse := some s.tsc.trim.sawPulse, sawFires := min (s.tsc.sawFires + 1) 65535
              cutLists := s.tsc.cutLists.map (fun x => if x.tag = r.tag then
                { x with lastMade := k.x, cuts := x.cuts.map (fun j => if j.x = k.x then
                  { j with state := .made } else j) } else x) } }
          ∧ (∀ i, c.plan.findIdx? (fun p => p.stop == k.x) = some i → u.createsPlanned c r i v)
          ∧ ((∀ p ∈ c.plan, p.stop ≠ k.x) → v = u)
          ∧ (∀ j, c.trailSeen = true → c'.endPiece r j → v.createsPlanned c r j w)
          ∧ ((c.trailSeen = false ∨ ∀ j, ¬ c'.endPiece r j) → w = v)
          ∧ w.doneAtSaw r.tag t)
      ∧ (s.tsc.cutter ≠ .run →
        ∃ t u v : State, exec (.cutDue r.tag) s = .next t
          ∧ u = { s with tsc := { s.tsc with
              missedCuts := min (s.tsc.missedCuts + 1) 65535
              cutLists := s.tsc.cutLists.map (fun x => if x.tag = r.tag then
                { x with cuts := x.cuts.map (fun j => if j.x = k.x then { j with state := .missed }
                  else if j.state = .pending then { j with state := .cancelled } else j) } else x) } }
          ∧ (c.trailSeen = true → u.createsUncut c r v)
          ∧ (c.trailSeen = false → v = u)
          ∧ v.doneAtSaw r.tag t))

/-- The trailing edge at the saw eye. With no holder it is ignored (R9). Otherwise L2 is measured, rounded and held as
R24 holds L. A strip not READY, or with a cut missed, leaves an uncut piece from the last cut made; a READY strip
leaves its last planned piece where that runs to the strip's end from a cut made or from the leading end (R99 to
R101). Then the slip check, not made while the length is absent: PASS within the tolerance; else SLIP, where the
strip's EXPECTED pieces are marked and STRIP_SLIP is queued with both counts (R101, R117). With no cut PENDING the
record and cut list go (R14, R102). A piece created joins the Piece Sort Queue, or is counted as SORT_FULL in a full
one (R116). The extent and values of the uncut piece (DEDUCED, logs 17 and 27), and at the strip's removal the order
of the notices (logs 12 and 37), are the model's. -/
def Obligations.SawTrailingEdges : Prop :=
  ∀ s : State, watching s = true → s.pins.eyes.saw = true →
    (s.ltr.holder.saw = none → exec .sawTrailingEdge s = .next (s.sees .saw false))
    ∧ (∀ (r : Strip) (c c' : CutList) (l2 : Nat), s.ltr.holder.saw = some r.tag → stripOf s r.tag = some r →
        s.tsc.cutLists.find? (fun x => x.tag == r.tag) = some c →
        (l2 : Int) = max 1 (min 65535 (((s.ltr.trimPos - c.p0).toInt + s.tsc.trim.sawComp + 500) / 1000)) →
        c' = { c with trailSeen := true, length2 := some l2 } →
        ∃ t u v w : State, exec .sawTrailingEdge s = .next t
          ∧ u = { s.sees .saw false with
              ltr := { (s.sees .saw false).ltr with holder := { s.ltr.holder with saw := none } }
              tsc := { s.tsc with cutLists := s.tsc.cutLists.map (fun x => if x.tag = r.tag then
                { x with trailSeen := true, length2 := some l2 } else x) } }
          ∧ ((c.status ≠ .ready ∨ ∃ k ∈ c.cuts, k.state = .missed) → u.createsUncut c' r v)
          ∧ (c.status = .ready → (∀ k ∈ c.cuts, k.state ≠ .missed) →
              (∀ j, c'.endPiece r j → u.createsPlanned c' r j v) ∧ ((∀ j, ¬ c'.endPiece r j) → v = u))
          ∧ (r.length = none → w = v)
          ∧ (∀ l : Nat, r.length = some l →
              ((l2 : Int) - l ≤ s.tsc.trim.slipTol → (l : Int) - l2 ≤ s.tsc.trim.slipTol → w = { v with
                tsc := { v.tsc with cutLists := v.tsc.cutLists.map (fun x => if x.tag = r.tag then
                  { x with slip := .pass } else x) } })
              ∧ ((s.tsc.trim.slipTol : Int) < l2 - l ∨ (s.tsc.trim.slipTol : Int) < l - l2 → w = { v with
                tsc := { v.tsc with
                  slipped := min (v.tsc.slipped + 1) 65535
                  cutLists := v.tsc.cutLists.map (fun x => if x.tag = r.tag then
                    { x with slip := .slip } else x) }
                srt := { v.srt with pieces := v.srt.pieces.map (fun p =>
                  if p.tag = r.tag ∧ p.isExpected = true then { p with force := true } else p) }
                lif := v.lif.raise (.stripSlip r.tag l l2
                  (v.srt.pieces.countP (fun p => p.tag == r.tag && p.isExpected))
                  (v.srt.pieces.countP (fun p => p.tag == r.tag && !p.isExpected))) }))
          ∧ w.doneAtSaw r.tag t)

/-- The cutter group's three timers: the spin-up leads to RUN, and at once to IDLE_WAIT where the idle
condition holds; the hysteresis to STANDBY with the residency timer started, or expired at once with M of 0;
the residency, with the wake latch set, to SPINUP (R105 to R108, R111). That an expiry of a timer not running in
its state does nothing is the model's choice (log 3). -/
def Obligations.CutterTimersExpire : Prop :=
  ∀ s : State,
    ((s.tsc.cutter ≠ .spinup ∨ s.tsc.spinTimer = none) → exec .spinupExpiry s = .next s)
    ∧ (∀ m, s.tsc.cutter = .spinup → s.tsc.spinTimer = some m →
        (s.ltr.strips ≠ [] ∨ s.fdp.feedReady = true ∨ s.tsc.heads.hysteresis = 0) →
      exec .spinupExpiry s = .next { s with
        tsc := { s.tsc with cutter := .run, runOutput := true, spinTimer := none
                            spinUps := min (s.tsc.spinUps + 1) 65535 }
        lif := s.lif.raise (.cutterState .run .spinup .spunUp) })
    ∧ (∀ m, s.tsc.cutter = .spinup → s.tsc.spinTimer = some m → s.ltr.strips = [] → s.fdp.feedReady = false →
        0 < s.tsc.heads.hysteresis →
      exec .spinupExpiry s = .next { s with
        tsc := { s.tsc with cutter := .idleWait, runOutput := true, spinTimer := none
                            hystTimer := some s.tsc.heads.hysteresis
                            spinUps := min (s.tsc.spinUps + 1) 65535 }
        lif := (s.lif.raise (.cutterState .run .spinup .spunUp)).raise
          (.cutterState .idleWait .run .idle) })
    ∧ ((s.tsc.cutter ≠ .idleWait ∨ s.tsc.hystTimer = none) → exec .hysteresisExpiry s = .next s)
    ∧ (∀ m, s.tsc.cutter = .idleWait → s.tsc.hystTimer = some m → exec .hysteresisExpiry s = .next { s with
        tsc := { s.tsc with cutter := .standby, runOutput := false, hystTimer := none, wake := false
                            residTimer := if s.tsc.heads.residency = 0 then none
                                          else some s.tsc.heads.residency
                            standbys := min (s.tsc.standbys + 1) 65535 }
        lif := s.lif.raise (.cutterState .standby .idleWait .hysteresis) })
    ∧ ((s.tsc.cutter ≠ .standby ∨ s.tsc.residTimer = none) → exec .residencyExpiry s = .next s)
    ∧ (∀ m, s.tsc.cutter = .standby → s.tsc.residTimer = some m →
        (s.tsc.wake = false → exec .residencyExpiry s = .next { s with
          tsc := { s.tsc with residTimer := none } })
        ∧ (s.tsc.wake = true → exec .residencyExpiry s = .next { s with
          tsc := s.tsc.spinningUp, lif := s.lif.raise (.cutterState .spinup .standby .wake) }))

/-! ## Sorting (chapter 8) -/

/-- The drop eye's input: a trailing edge moves only the level; in STOPPED the level follows, in HALTED it holds; a
leading edge with no EXPECTED entry is a stray (R118, R119). A leading edge matched to the oldest EXPECTED entry p
finds its bin. FORCED or GRADE_0 sends it to bin 0; otherwise the OPEN bins that match are offered it in ascending
order, and each that refuses raises its refusal counter; with none accepting it goes to bin 0 as NO_BIN. At bin 0 its
reservation is released, the counter of the reason and the total rise, and it leaves the queue. The first bin that
accepts gets it: the bin and fire position are written, the incoming count rises, and a bundle then full closes (R119,
R121 to R124, R134, R135). The window of an EXPECTED entry expires only when the sort position has passed its close
and the line is not HALTED. The piece is then missing: counted, its reservation released, told in PIECE_LOST and
removed (R120). A release that empties a DRAINING line makes it FREE with ORDER_DONE (R77). After a removal STOPPING
ends, and then the drain test is made (R18, R90). That an edge to the level the input already has, and an event naming
a piece that is absent or in the other place, do nothing is the model's choice (DESIGN CHOICE, log 3). -/
def Obligations.DropEyeEdges : Prop :=
  (∀ s : State, tallyKey s none = .stock ∧ ∀ k, tallyKey s (some k) = .order (lineAt s k).reference)
  ∧ (∀ s : State,
     (∀ b c, s.pins.drop = b → (b = true ∧ c = Instr.dropLeadingEdge ∨ b = false ∧ c = Instr.dropTrailingEdge) →
       exec c s = .next s)
     ∧ (s.pins.drop = false → s.ltr.lineState = .halted →
       exec .dropLeadingEdge s = .next { s with pins := { s.pins with drop := true } })
     ∧ (s.pins.drop = false → s.ltr.lineState = .stopped →
       exec .dropLeadingEdge s = .next { s with
         pins := { s.pins with drop := true }, srt := { s.srt with level := true } })
     ∧ (s.pins.drop = true → s.ltr.lineState = .halted →
       exec .dropTrailingEdge s = .next { s with pins := { s.pins with drop := false } })
     ∧ (s.pins.drop = true → s.ltr.lineState ≠ .halted →
       exec .dropTrailingEdge s = .next { s with
         pins := { s.pins with drop := false }, srt := { s.srt with level := false } })
     ∧ (s.pins.drop = false → (s.ltr.lineState = .running ∨ s.ltr.lineState = .stopping) →
         (∀ p ∈ s.srt.pieces, p.isExpected = false) →
       exec .dropLeadingEdge s = .next { s with
         pins := { s.pins with drop := true }
         srt := { s.srt with level := true, dropStrays := min (s.srt.dropStrays + 1) 65535 }
         lif := s.lif.raise (.stray .drop s.srt.pos 0) }))
  ∧ (∀ (s : State) (p : Piece), s.pins.drop = false → (s.ltr.lineState = .running ∨ s.ltr.lineState = .stopping) →
       s.srt.pieces.find? Piece.isExpected = some p →
       (∀ c : Srt, ((p.force = true ∧ c = { s.srt with forced := min (s.srt.forced + 1) 65535 })
           ∨ (p.force = false ∧ p.grade = 0 ∧ c = { s.srt with grade0 := min (s.srt.grade0 + 1) 65535 })
           ∨ (p.force = false ∧ p.grade ≠ 0 ∧ c = { s.srt with noBin := min (s.srt.noBin + 1) 65535 }
             ∧ ∀ b, (binAt s b).state = .opened → entryTakes (entryAt s b) p →
                 (offer (binAt s b) p.net p.profile (tallyKey s p.line)).2 = false)) →
         ∃ t u : State, exec .dropLeadingEdge s = .next t
           ∧ u = { s with
               pins := { s.pins with drop := true }
               srt := { c with level := true, bin0Total := min (s.srt.bin0Total + p.net) 4294967295
                               pieces := s.srt.pieces.filter (fun q => ¬ (q.tag = p.tag ∧ q.index = p.index)) }
               bdb := { s.bdb with bins := u.bdb.bins }
               otu := u.otu
               lif := (s.ordersDone p.reservations).foldl Lif.raise s.lif }
           ∧ (∀ b, p.force = false → p.grade ≠ 0 → (binAt s b).state = .opened → entryTakes (entryAt s b) p →
               binAt u b = (offer (binAt s b) p.net p.profile (tallyKey s p.line)).1)
           ∧ (∀ b, (p.force = true ∨ p.grade = 0 ∨ (binAt s b).state ≠ .opened ∨ ¬ entryTakes (entryAt s b) p) →
               binAt u b = binAt s b)
           ∧ (∀ k, lineAt u k = (lineAt s k).released k p.reservations)
           ∧ u.afterPieceRemoval t)
       ∧ (∀ b x, p.force = false → p.grade ≠ 0 → 1 ≤ b → b ≤ 14 → (binAt s b).state = .opened →
           entryTakes (entryAt s b) p →
           (∀ j, j < b → (binAt s j).state = .opened → entryTakes (entryAt s j) p →
             (offer (binAt s j) p.net p.profile (tallyKey s p.line)).2 = false) →
           offer (binAt s b) p.net p.profile (tallyKey s p.line) = (x, true) →
         ∃ t, exec .dropLeadingEdge s = .next t ∧ t = { s with
             pins := { s.pins with drop := true }
             srt := { s.srt with level := true, pieces := s.srt.pieces.map (fun q =>
               if q.tag = p.tag ∧ q.index = p.index then
                 { q with place := .assigned b s.srt.pos (s.srt.pos + umOfMm ((entryAt s b).offset - (entryAt s b).lead)) }
               else q) }
             bdb := { s.bdb with bins := t.bdb.bins } }
           ∧ (∀ j, j < b → (binAt s j).state = .opened → entryTakes (entryAt s j) p →
               binAt t j = (offer (binAt s j) p.net p.profile (tallyKey s p.line)).1)
           ∧ (∀ j, (b < j ∨ j < b ∧ ((binAt s j).state ≠ .opened ∨ ¬ entryTakes (entryAt s j) p)) →
               binAt t j = binAt s j)
           ∧ (¬ (x.bundle.rowFills.length = x.settings.rows
                 ∧ (x.settings.length : Int) - x.bundle.rowFills.getLast?.getD 0 < x.settings.closeSlack) →
               binAt t b = { x with incoming := x.incoming + 1 })
           ∧ (x.bundle.rowFills.length = x.settings.rows
                 ∧ (x.settings.length : Int) - x.bundle.rowFills.getLast?.getD 0 < x.settings.closeSlack →
               binAt t b = { x with incoming := x.incoming + 1, state := .closePending, reason := some .full })))
  ∧ (∀ (s : State) (tag i : Nat),
       ((∀ q ∈ s.srt.pieces, ¬ (q.tag = tag ∧ q.index = i)) →
         exec (.dropWindowExpiry tag i) s = .next s ∧ exec (.diverterFire tag i) s = .next s)
       ∧ (∀ p c, s.srt.pieces.find? (fun q => q.tag == tag && q.index == i) = some p → p.place = .expected c →
         exec (.diverterFire tag i) s = .next s
         ∧ ((s.ltr.lineState = .halted ∨ (s.srt.pos - c).toInt ≤ 0) →
             exec (.dropWindowExpiry tag i) s = .next s)
         ∧ (s.ltr.lineState ≠ .halted → 0 < (s.srt.pos - c).toInt →
           ∃ t u : State, exec (.dropWindowExpiry tag i) s = .next t
             ∧ u = { s with
                 srt := { s.srt with missing := min (s.srt.missing + 1) 65535
                                     pieces := s.srt.pieces.filter (fun q => ¬ (q.tag = tag ∧ q.index = i)) }
                 otu := u.otu
                 lif := ((s.ordersDone p.reservations).foldl Lif.raise s.lif).raise
                   (.pieceLost p.tag p.index p.net p.grade (p.line.getD 0) p.force) }
             ∧ (∀ k, lineAt u k = (lineAt s k).released k p.reservations)
             ∧ u.afterPieceRemoval t)))

/-- The diverter of an ASSIGNED entry fires when the fire position is reached outside HALTED, and the piece lands: its
bin's incoming count falls, its order line, OPEN or DRAINING, is credited with ORDER_FILLED and then ORDER_DONE where
they fall due, its bundle's landed fields rise, and the last piece of a bin in CLOSE_PENDING takes the bin to CLOSING
and to an attempt at completion (R125, R126, R75 to R77, R136 to R138). Then STOPPING ends, and after it the drain
test is made (R114, R18, R90). The clauses take a line, if any, that is not FREE: R66 lets no piece name a FREE line.
That the expiry of a drop window leaves an ASSIGNED piece and the whole state as they are, and so does a firing whose
position is not reached, is the model's choice (DESIGN CHOICE, log 3). A piece's tally key is the reference of its
order line, or STOCK where it has none (R134). -/
def Obligations.FiringLandsThePiece : Prop :=
  (∀ s : State, tallyKey s none = .stock ∧ ∀ k, tallyKey s (some k) = .order (lineAt s k).reference)
  ∧ ∀ (s : State) (p : Piece) (b : Nat) (d f : Pos),
    s.srt.pieces.find? (fun q => q.tag == p.tag && q.index == p.index) = some p → p.place = .assigned b d f →
    1 ≤ b → b ≤ 14 →
    exec (.dropWindowExpiry p.tag p.index) s = .next s
    ∧ ((s.ltr.lineState = .halted ∨ (s.srt.pos - f).toInt < 0) →
        exec (.diverterFire p.tag p.index) s = .next s)
    ∧ (s.ltr.lineState ≠ .halted → 0 ≤ (s.srt.pos - f).toInt →
        (∀ k, p.line = some k → (lineAt s k).state ≠ .free) →
      ∃ t u v : State, exec (.diverterFire p.tag p.index) s = .next t
        ∧ u = { s with
            srt := { s.srt with
              pieces := s.srt.pieces.filter (fun q => ¬ (q.tag = p.tag ∧ q.index = p.index))
              diverters := tabMod s.srt.diverters b (fun _ => some (entryAt s b).pulse)
              firings := min (s.srt.firings + 1) 65535 }
            bdb := { s.bdb with bins := u.bdb.bins }
            otu := u.otu, lif := u.lif }
        ∧ (∀ j, j ≠ b → binAt u j = binAt s j)
        ∧ (∃ x, x = (binAt s b).bundle ∧ binAt u b = { binAt s b with
            incoming := (binAt s b).incoming - 1
            bundle := { x with
              landed := x.landed + 1, perClass := tabMod x.perClass p.cls (· + 1), lineal := x.lineal + p.net
              shortsLanded := if p.net < (binAt s b).settings.shortsThreshold then x.shortsLanded + p.net
                              else x.shortsLanded
              tallies := x.tallies.map (fun y => if y.key = tallyKey s p.line then
                { y with pieces := y.pieces + 1, mm := y.mm + p.net } else y)
              worst := max x.worst p.grade
              colour := if x.colour = none ∨ x.colour = some (.one p.colour) then some (.one p.colour)
                        else some .mixed } })
        ∧ (p.line = none → u.otu = s.otu ∧ u.lif = s.lif)
        ∧ (∀ k, p.line = some k → (∀ j, j ≠ k → lineAt u j = lineAt s j)
            ∧ lineAt u k = (lineAt s k).credited p.net
            ∧ u.lif = ((lineAt s k).creditNotices k p.net).foldl Lif.raise s.lif)
        ∧ u.settles b v
        ∧ v.afterPieceRemoval t)

/-- The pulse and handshake times end: each drops its output and changes nothing else, and the fall of the
ready and row request inputs moves only the level (R84, R98, R125, R163, R165, R166). That an end with no pulse on,
or a fall of an input already low, so changes nothing at all is the model's choice (DESIGN CHOICE, log 3). -/
def Obligations.PulsesEnd : Prop :=
  ∀ s : State,
    exec .feedPulseEnd s = .next { s with fdp := { s.fdp with feedPulse := none } }
    ∧ exec .sawPulseEnd s = .next { s with tsc := { s.tsc with sawPulse := none } }
    ∧ (∀ b, ∃ v : Vector (Option Nat) 14, exec (.diverterPulseEnd b) s
        = .next { s with srt := { s.srt with diverters := v } }
        ∧ ∀ j, 1 ≤ j → j ≤ 14 → tabGet v j = if j = b then some none else tabGet s.srt.diverters j)
    ∧ exec .strobeEnd s = .next { s with prq := { s.prq with strobe := none } }
    ∧ exec .printReadyFall s = .next { s with pins := { s.pins with printReady := false } }
    ∧ exec .rowRequestFall s = .next { s with pins := { s.pins with rowRequest := false } }

/-! ## Bins, bundles and manifests (chapter 9) -/

/-- BIN_SET: its five checks in order; taken, the bin's sort entry and settings are replaced, a shorts share
above 100 is held as 100, the bin is OPEN with an empty bundle, and no other bin changes (R129, R121).
BIN_CLOSE and BIN_DISABLE by bin state, where no close completion follows: an OPEN bundle with something
allocated gets its close request, waiting in CLOSE_PENDING for incoming pieces or, with none and the hold
clear, joining the closing order at once; outside OPEN only BIN_DISABLE acts, on the destination (R131, R132,
R137). -/
def Obligations.BinRequests : Prop :=
  (∀ (g : Byte) (n : Nat) (e : SortEntry) (b : BundleSettings) (s : State) (loaded ok : Prop),
     s.lif.reply = none → (loaded ↔ s.ple.gradesLoaded = true ∧ s.ple.classesLoaded = true) →
     (ok ↔ (e.grade = .any ∨ ∃ k, e.grade = .only k ∧ 1 ≤ k ∧ k ≤ s.ple.grades.length)
       ∧ e.colour ∈ [.any, .only 0, .only 1, .only 2, .only 3]
       ∧ (e.classSet ≠ 0#8 ∧ ∀ c, e.classSet.getLsbD c = true → c < s.ple.bounds.length)
       ∧ (50 ≤ e.offset ∧ e.offset ≤ 60000 ∧ e.lead ≤ 1000 ∧ e.lead < e.offset)
       ∧ (10 ≤ e.pulse ∧ e.pulse ≤ 1000) ∧ (500 ≤ b.length ∧ b.length ≤ 3000)
       ∧ (1 ≤ b.rows ∧ b.rows ≤ 40) ∧ b.gap ≤ 20 ∧ b.closeSlack ≤ b.length ∧ b.shortsThreshold ≤ 3000
       ∧ b.shortsShare ≤ 255 ∧ (100 ≤ b.dischargePulse ∧ b.dischargePulse ≤ 10000)) →
     ∃ t, exec (.binSet g n e b) s = .next t
       ∧ (s.ltr.lineState = .halted → t = s.refusedWith 0x58#8 g .halted)
       ∧ (s.ltr.lineState ≠ .halted → ¬ (1 ≤ n ∧ n ≤ 14) → t = s.refusedWith 0x58#8 g .badValue)
       ∧ (s.ltr.lineState ≠ .halted → 1 ≤ n → n ≤ 14 →
         (¬ loaded → t = s.refusedWith 0x58#8 g .notConfigured)
         ∧ (loaded → ¬ ok → t = s.refusedWith 0x58#8 g .badValue)
         ∧ (loaded → ok → (binAt s n).state ≠ .disabled → t = s.refusedWith 0x58#8 g .wrongState)
         ∧ (loaded → ok → (binAt s n).state = .disabled →
           t = { s with srt := { s.srt with entries := t.srt.entries }
                        bdb := { s.bdb with bins := t.bdb.bins }
                        lif := s.lif.answering 0x58#8 g .ok (be1 (min 100 b.shortsShare)) }
           ∧ entryAt t n = e
           ∧ binAt t n = { binAt s n with
               state := .opened, settings := { b with shortsShare := min 100 b.shortsShare }, bundle := .emptied
               reason := none, toDisabled := false, refusedSpace := 0, refusedShorts := 0, refusedTally := 0 }
           ∧ ∀ j, j ≠ n → entryAt t j = entryAt s j ∧ binAt t j = binAt s j)))
  ∧ (∀ (g : Byte) (n : Nat) (s : State), s.lif.reply = none →
       (s.ltr.lineState = .halted → exec (.binClose g n) s = .next (s.refusedWith 0x59#8 g .halted)
         ∧ exec (.binDisable g n) s = .next (s.refusedWith 0x5A#8 g .halted))
       ∧ (s.ltr.lineState ≠ .halted → ¬ (1 ≤ n ∧ n ≤ 14) →
         exec (.binClose g n) s = .next (s.refusedWith 0x59#8 g .badValue)
         ∧ exec (.binDisable g n) s = .next (s.refusedWith 0x5A#8 g .badValue))
       ∧ (s.ltr.lineState ≠ .halted → 1 ≤ n → n ≤ 14 → ∀ x, x = binAt s n →
         (x.state = .disabled → exec (.binClose g n) s = .next (s.refusedWith 0x59#8 g .wrongState)
           ∧ exec (.binDisable g n) s = .next { s with lif := s.lif.answering 0x5A#8 g .ok (be1 0) })
         ∧ (x.state = .opened → x.bundle.rowFills = [] →
           exec (.binClose g n) s = .next (s.refusedWith 0x59#8 g .empty)
           ∧ ∃ v, exec (.binDisable g n) s = .next { s with
               bdb := { s.bdb with bins := v }, lif := s.lif.answering 0x5A#8 g .ok (be1 0) }
             ∧ tabGet v n = some { x with state := .disabled }
             ∧ ∀ j, j ≠ n → tabGet v j = tabGet s.bdb.bins j)
         ∧ (x.state = .opened → x.bundle.rowFills ≠ [] → 0 < x.incoming →
           ∃ v w, exec (.binClose g n) s = .next { s with
               bdb := { s.bdb with bins := v }, lif := s.lif.answering 0x59#8 g .ok (be1 2) }
             ∧ exec (.binDisable g n) s = .next { s with
               bdb := { s.bdb with bins := w }, lif := s.lif.answering 0x5A#8 g .ok (be1 2) }
             ∧ tabGet v n = some { x with state := .closePending, reason := some .requested }
             ∧ tabGet w n = some { x with state := .closePending, reason := some .disable, toDisabled := true }
             ∧ ∀ j, j ≠ n → tabGet v j = tabGet s.bdb.bins j ∧ tabGet w j = tabGet s.bdb.bins j)
         ∧ (x.state = .opened → x.bundle.rowFills ≠ [] → x.incoming = 0 → s.lcp.hold = false →
           ∃ v w, exec (.binClose g n) s = .next { s with
               bdb := { s.bdb with bins := v, closingOrder := s.bdb.closingOrder ++ [n] }
               lif := s.lif.answering 0x59#8 g .ok (be1 3) }
             ∧ exec (.binDisable g n) s = .next { s with
               bdb := { s.bdb with bins := w, closingOrder := s.bdb.closingOrder ++ [n] }
               lif := s.lif.answering 0x5A#8 g .ok (be1 3) }
             ∧ tabGet v n = some { x with state := .closing, reason := some .requested }
             ∧ tabGet w n = some { x with state := .closing, reason := some .disable, toDisabled := true }
             ∧ ∀ j, j ≠ n → tabGet v j = tabGet s.bdb.bins j ∧ tabGet w j = tabGet s.bdb.bins j)
         ∧ (∀ c, (x.state = .closePending ∧ c = 2 ∨ x.state = .closing ∧ c = 3 ∨ x.state = .waitCart ∧ c = 4) →
           exec (.binClose g n) s = .next { s with lif := s.lif.answering 0x59#8 g .ok (be1 c) }
           ∧ ∃ v, exec (.binDisable g n) s = .next { s with
               bdb := { s.bdb with bins := v }, lif := s.lif.answering 0x5A#8 g .ok (be1 c) }
             ∧ tabGet v n = some { x with toDisabled := true }
             ∧ ∀ j, j ≠ n → tabGet v j = tabGet s.bdb.bins j)))

/-- The acceptance test of a bin: space, shorts, tallies, in this order. The first that fails refuses and
raises only its counter; when all hold the piece is laid in the current row, or starts the next (R134). -/
def Obligations.AcceptanceTest : Prop :=
  ∀ (x : Bin) (n profile : Nat) (k : TallyKey) (fits space shorts tally : Prop),
    (fits ↔ x.bundle.rowFills ≠ [] ∧ (x.bundle.rowFills.getLast?.getD 0)
        + (if x.bundle.inRow = 0 then 0 else x.settings.gap) + n ≤ x.settings.length) →
    (space ↔ fits ∨ (x.bundle.rowFills.length < x.settings.rows ∧ n ≤ x.settings.length)) →
    (shorts ↔ x.settings.shortsThreshold ≤ n ∨
      x.bundle.shorts + n ≤ x.settings.shortsShare * x.settings.length * x.settings.rows / 100) →
    (tally ↔ (∃ y ∈ x.bundle.tallies, y.key = k) ∨ x.bundle.tallies.length < 6) →
    (¬ space → offer x n profile k = ({ x with refusedSpace := min (x.refusedSpace + 1) 65535 }, false))
    ∧ (space → ¬ shorts →
      offer x n profile k = ({ x with refusedShorts := min (x.refusedShorts + 1) 65535 }, false))
    ∧ (space → shorts → ¬ tally →
      offer x n profile k = ({ x with refusedTally := min (x.refusedTally + 1) 65535 }, false))
    ∧ (space → shorts → tally → ∃ u, offer x n profile k = ({ x with bundle := u }, true)
      ∧ (fits → u.rowFills = x.bundle.rowFills.dropLast ++ [(x.bundle.rowFills.getLast?.getD 0)
            + (if x.bundle.inRow = 0 then 0 else x.settings.gap) + n]
          ∧ u.inRow = x.bundle.inRow + 1)
      ∧ (¬ fits → u.rowFills = x.bundle.rowFills ++ [n] ∧ u.inRow = 1)
      ∧ u.shorts = (if n < x.settings.shortsThreshold then x.bundle.shorts + n else x.bundle.shorts)
      ∧ ((∃ y ∈ x.bundle.tallies, y.key = k) → u.tallies = x.bundle.tallies)
      ∧ ((∀ y ∈ x.bundle.tallies, y.key ≠ k) →
          u.tallies = x.bundle.tallies ++ [{ key := k, pieces := 0, mm := 0 }])
      ∧ u.profile = (if x.bundle.rowFills = [] then profile else x.bundle.profile)
      ∧ u = { x.bundle with rowFills := u.rowFills, inRow := u.inRow, shorts := u.shorts
                            tallies := u.tallies, profile := u.profile })

/-- A close completion, first as reached by a BIN_CLOSE with no piece incoming, an empty closing order and the three
resources available. The manifest of the bundle joins the table under the next number, with its check value, the CRC
that FramerTakesBytes spells (R160) of its check fields, the 160 bytes of section 12.6 with each field at its offset;
the lowest FREE slot begins rendering; BUNDLE_CLOSED is queued; the bin is in WAIT_CART, discharging at once into a
cart that is present (R138 to R140, R143, R158). Then for every closing order and all resources: BIN_CLOSE and
BIN_DISABLE of an OPEN bin with something allocated make its close request, which with no piece incoming takes the bin
into the closing order and to an attempt, in which the waiting bins complete one after another while a manifest entry,
a FREE slot and the hold last, and wait in their order where one is lacking; the reply tells the bin's state after it
(R131, R132, R137, R138). -/
def Obligations.CloseCompletionWritesTheManifest : Prop :=
  (∀ m : Manifest, m.checkLaid m.checkFields)
  ∧ (∀ (g : Byte) (n k : Nat) (s : State) (x : Bin), s.lif.reply = none → s.ltr.lineState ≠ .halted →
    1 ≤ n → n ≤ 14 → x = binAt s n → x.state = .opened → x.bundle.rowFills ≠ [] → x.incoming = 0 →
    x.discharge = none → s.bdb.closingOrder = [] → s.bdb.manifests.length < 32 → s.lcp.hold = true →
    1 ≤ k → k ≤ 4 → (slotAt s k).state = .free → (∀ j, 1 ≤ j → j < k → (slotAt s j).state ≠ .free) →
    ∃ t m, exec (.binClose g n) s = .next t ∧ t = { s with
        bdb := { s.bdb with bins := t.bdb.bins, manifests := s.bdb.manifests ++ [m]
                            nextBundle := if s.bdb.nextBundle < 4294967295 then s.bdb.nextBundle + 1 else 1 }
        lcp := { s.lcp with renderOrder := t.lcp.renderOrder, engine := t.lcp.engine }
        prq := { s.prq with slots := t.prq.slots }
        lif := (s.lif.raise (.bundleClosed m.number n m.reason m.pieces m.lineal m.worst)).answering
          0x59#8 g .ok (be1 4) }
      ∧ (∀ j, j ≠ n → binAt t j = binAt s j)
      ∧ binAt t n = { x with
          state := .waitCart, reason := some .requested
          discharge := if tabGet s.pins.carts n = some true then some x.settings.dischargePulse else none }
      ∧ m.number = s.bdb.nextBundle ∧ m.bin = n ∧ m.worst = x.bundle.worst
      ∧ m.colour = x.bundle.colour.getD .mixed ∧ m.perClass = x.bundle.perClass ∧ m.pieces = x.bundle.landed
      ∧ m.lineal = x.bundle.lineal ∧ m.shorts = x.bundle.shortsLanded
      ∧ m.rows = x.bundle.rowFills.length ∧ m.tallies = x.bundle.tallies ∧ m.profile = x.bundle.profile
      ∧ m.gauge = s.msu.status ∧ m.date = s.lif.date ∧ m.reason = .requested ∧ m.label = .pending
      ∧ m.discharged = false ∧ m.clipped = [] ∧ m.check = crc16 m.checkFields
      ∧ (∀ j, j ≠ k → slotAt t j = slotAt s j)
      ∧ slotAt t k = { slotAt s k with state := .rendering, bundle := some m.number, attempts := 0 }
      ∧ ∃ r, t.lcp.renderOrder = s.lcp.renderOrder ++ [r] ∧ r.slot = k ∧ r.bundle = m.number
        ∧ r.classCount = s.ple.bounds.length
        ∧ (∀ row, 1 ≤ m.worst → s.ple.grades[m.worst - 1]? = some row → r.gradeName = row.name)
        ∧ (∀ p, tabGet s.pfc.sets m.profile = some (some p) →
            r.profileId = p.profileId ∧ r.species = p.species)
        ∧ ((∀ p, tabGet s.pfc.sets m.profile ≠ some (some p)) → r.profileId = [] ∧ r.species = [])
        ∧ (s.lcp.engine.isSome = true → t.lcp.engine = s.lcp.engine)
        ∧ (s.lcp.engine = none → s.lcp.renderOrder = [] → t.lcp.engine = some k))
  ∧ (∀ (g : Byte) (n : Nat) (s : State), s.lif.reply = none → s.ltr.lineState ≠ .halted →
       (binAt s n).state = .opened → (binAt s n).bundle.rowFills ≠ [] →
       ∀ (i : Instr) (kind : Byte) (reason : CloseReason),
         (i = .binClose g n ∧ kind = 0x59#8 ∧ reason = .requested
           ∨ i = .binDisable g n ∧ kind = 0x5A#8 ∧ reason = .disable) →
         ∃ t c, exec i s = .next { t with lif := t.lif.answering kind g .ok (be1 c) }
           ∧ s.requestsClose n reason t
           ∧ ((binAt t n).state = .closePending → c = 2) ∧ ((binAt t n).state = .closing → c = 3)
           ∧ ((binAt t n).state = .waitCart → c = 4))

/-- MANIFEST_TAKE: NOT_FOUND, then NOT_READY; taken it answers the manifest's record and the manifest leaves the
table, the others keeping their order, and an attempt at completion follows (R141, R138). Carts and discharge:
CART_MASK replaces all 28 masks; a change of a bin's cart-present input moves the cart state, is told unless masked,
and an arrival in WAIT_CART outside HALTED begins the discharge; the end of the pulse discharges the manifest and
empties the bundle, leaving the bin at its destination (R142, R143). A manifest's record is the 181 bytes of section
12.6, each field at its offset; an emptied bundle holds no row, tally or colour and figures of 0. The model's: that a
cart input already at its level and a pulse end with no pulse running do nothing (DESIGN CHOICE, log 3), that a cart
arriving while the discharge output is driven starts no second pulse (DEDUCED, log 18), and that the manifest marked
is the bin's one not yet discharged (DEDUCED, log 31). -/
def Obligations.ManifestsCartsAndDischarge : Prop :=
  (∀ m : Manifest, m.laid m.record)
  ∧ (Bundle.emptied = { rowFills := [], inRow := 0, shorts := 0, profile := 0, tallies := [], landed := 0
                        perClass := Vector.replicate 8 0, lineal := 0, shortsLanded := 0, worst := 0, colour := none })
  ∧ (∀ (g : Byte) (n : Nat) (s : State), s.lif.reply = none →
     ((∀ m ∈ s.bdb.manifests, m.number ≠ n) →
       exec (.manifestTake g n) s = .next (s.refusedWith 0x5E#8 g .notFound))
     ∧ (∀ m, s.bdb.manifests.find? (fun m => m.number == n) = some m →
       ((m.label = .pending ∨ m.discharged = false) →
         exec (.manifestTake g n) s = .next (s.refusedWith 0x5E#8 g .notReady))
       ∧ (m.label ≠ .pending → m.discharged = true →
         ∃ t, exec (.manifestTake g n) s = .next { t with lif := t.lif.answering 0x5E#8 g .ok m.record }
           ∧ State.closesWaiting { s with
               bdb := { s.bdb with manifests := s.bdb.manifests.filter (fun m => m.number ≠ n) } } t)))
  ∧ (∀ s : State,
       (∀ (g : Byte) (a d : BitVec 16), s.lif.reply = none →
         ∃ v : Vector Bin 14, exec (.cartMask g a d) s = .next { s with
             bdb := { s.bdb with bins := v }, lif := s.lif.answering 0x5C#8 g .ok [] }
           ∧ ∀ b x, 1 ≤ b → tabGet s.bdb.bins b = some x → tabGet v b = some { x with
               arrivalMask := a.getLsbD (b - 1), departureMask := d.getLsbD (b - 1) })
       ∧ (∀ n c, tabGet s.pins.carts n = some c →
         exec (.cart n c) s = .next s
         ∧ ∃ t, exec (.cart n (!c)) s = .next t
           ∧ t = { s with pins := { s.pins with carts := t.pins.carts }
                          bdb := { s.bdb with bins := t.bdb.bins }, lif := t.lif }
           ∧ tabGet t.pins.carts n = some (!c) ∧ (∀ j, j ≠ n → tabGet t.pins.carts j = tabGet s.pins.carts j)
           ∧ t.lif = (if (c = false ∧ (binAt s n).arrivalMask = true)
                         ∨ (c = true ∧ (binAt s n).departureMask = true) then s.lif
                      else s.lif.raise (.cart n (!c)))
           ∧ (∀ j, j ≠ n → binAt t j = binAt s j)
           ∧ binAt t n = (if c = false ∧ (binAt s n).state = .waitCart ∧ s.ltr.lineState ≠ .halted
                             ∧ (binAt s n).discharge = none then
                            { binAt s n with discharge := some (binAt s n).settings.dischargePulse }
                          else binAt s n))
       ∧ (∀ n, ((binAt s n).state ≠ .waitCart ∨ (binAt s n).discharge = none) →
         exec (.dischargePulseEnd n) s = .next s)
       ∧ (∀ n x ms, tabGet s.bdb.bins n = some x → x.state = .waitCart → x.discharge = some ms →
         ∃ v, exec (.dischargePulseEnd n) s = .next { s with
             bdb := { s.bdb with
               bins := v
               manifests := s.bdb.manifests.map (fun m =>
                 if m.bin = n ∧ m.discharged = false then { m with discharged := true } else m) } }
           ∧ tabGet v n = some { x with
               state := if x.toDisabled then .disabled else .opened, toDisabled := false, reason := none
               bundle := .emptied, discharge := none }
           ∧ ∀ j, j ≠ n → tabGet v j = tabGet s.bdb.bins j))

/-! ## Labels (chapter 10) -/

/-- The address counter: its advance at the three kinds of place in a window, inside which it stays and
through which it returns after as many advances as the window has pixels; TPL_WINDOW and TPL_ADDR set it, each
refused outside its limits (R147). The hold is clear: R146 gives the refusal while it is set. -/
def Obligations.CounterWalksTheWindow : Prop :=
  (∀ (w : Rect) (x y : Nat),
    (x < w.x1 → advance w x y = (x + 1, y))
    ∧ (x = w.x1 → y < w.y1 → advance w x y = (w.x0, y + 1))
    ∧ (x = w.x1 → y = w.y1 → advance w x y = (w.x0, w.y0))
    ∧ (w.x0 ≤ x → x ≤ w.x1 → w.y0 ≤ y → y ≤ w.y1 →
        (∀ n p, p = advances w n x y → w.x0 ≤ p.1 ∧ p.1 ≤ w.x1 ∧ w.y0 ≤ p.2 ∧ p.2 ≤ w.y1)
        ∧ advances w ((w.x1 - w.x0 + 1) * (w.y1 - w.y0 + 1)) x y = (x, y)))
  ∧ ∀ (g : Byte) (s : State), s.lif.reply = none → s.lcp.hold = false →
    (∀ w : Rect, exec (.tplWindow g w) s = .next
      (if w.x0 ≤ w.x1 ∧ w.x1 ≤ 447 ∧ w.y0 ≤ w.y1 ∧ w.y1 ≤ 255 then
        { s with lcp := { s.lcp with window := w, addrX := w.x0, addrY := w.y0 }
                 lif := s.lif.answering 0x60#8 g .ok [] }
      else s.refusedWith 0x60#8 g .badValue))
    ∧ (∀ x y : Nat, exec (.tplAddr g x y) s = .next
      (if s.lcp.window.x0 ≤ x ∧ x ≤ s.lcp.window.x1 ∧ s.lcp.window.y0 ≤ y ∧ y ≤ s.lcp.window.y1 then
        { s with lcp := { s.lcp with addrX := x, addrY := y }, lif := s.lif.answering 0x61#8 g .ok [] }
      else s.refusedWith 0x61#8 g .badValue))

/-- TPL_WRITE of one byte over 8 different pixels of the window: the counter advances by 8; a pixel not
covered and a masked one keep their values; under a plain op each unmasked pixel takes the op's value; under
COND_EQ and COND_NE it takes the data bit when the comparison with the pattern lets the byte be written, and
else keeps its value. The bytes of a longer TPL_WRITE go one by one, and a TPL_FILL is a TPL_WRITE of copies
(R148 to R150). -/
def Obligations.BytesDrawThroughTheWindow : Prop :=
  ∀ (g : Byte) (s : State), s.lif.reply = none → s.lcp.hold = false →
    (∀ d : List Byte, ¬ (1 ≤ d.length ∧ d.length ≤ 1024) →
      exec (.tplWrite g d) s = .next (s.refusedWith 0x63#8 g .badLength))
    ∧ (∀ n d, ¬ (1 ≤ n ∧ n ≤ 65535) → exec (.tplFill g n d) s = .next (s.refusedWith 0x64#8 g .badValue))
    ∧ (∀ (d : Byte) (px : List (Nat × Nat)), s.counterInside →
        px = visited s.lcp.window 8 s.lcp.addrX s.lcp.addrY → px.Nodup →
      ∃ t, exec (.tplWrite g [d]) s = .next t
        ∧ (∀ c, c = advances s.lcp.window 8 s.lcp.addrX s.lcp.addrY → t = { s with
            lcp := { s.lcp with template := t.lcp.template, addrX := c.1, addrY := c.2 }
            lif := s.lif.answering 0x63#8 g .ok (be2 c.1 ++ be1 c.2) })
        ∧ (∀ x y, x < 448 → y < 256 → (x, y) ∉ px →
            Image.pixel t.lcp.template x y = Image.pixel s.lcp.template x y)
        ∧ ∀ k x y, px[k]? = some (x, y) → ∀ new old bit, new = Image.pixel t.lcp.template x y →
          old = Image.pixel s.lcp.template x y → bit = d.getMsbD k →
          (s.lcp.mask.getMsbD k = false → new = old)
          ∧ (s.lcp.mask.getMsbD k = true →
            (s.lcp.op = .replace → new = bit) ∧ (s.lcp.op = .or → new = (old || bit))
            ∧ (s.lcp.op = .and → new = (old && bit)) ∧ (s.lcp.op = .xor → new = (old != bit))
            ∧ ∀ agree : Prop, (agree ↔ ∀ j p, px[j]? = some p → s.lcp.mask.getMsbD j = true →
                Image.pixel s.lcp.template p.1 p.2 = s.lcp.pattern.getMsbD j) →
              (s.lcp.op = .condEq → (agree → new = bit) ∧ (¬ agree → new = old))
              ∧ (s.lcp.op = .condNe → (¬ agree → new = bit) ∧ (agree → new = old))))
    ∧ (∀ (d : Byte) (rest : List Byte), 1 ≤ rest.length → rest.length < 1024 →
      ∃ t u, exec (.tplWrite g [d]) s = .next t ∧ exec (.tplWrite g (d :: rest)) s = .next u
        ∧ exec (.tplWrite g rest) { t with lif := s.lif } = .next u)
    ∧ (∀ (d : Byte) (n : Nat), 1 ≤ n → n ≤ 1024 →
      ∃ t data, exec (.tplWrite g (List.replicate n d)) s = .next t
        ∧ t.lif = s.lif.answering 0x63#8 g .ok data
        ∧ exec (.tplFill g n d) s = .next { t with lif := s.lif.answering 0x64#8 g .ok data })
    ∧ (∀ (d : Byte) (n : Nat), 1025 ≤ n → n ≤ 65535 →
      ∃ t, exec (.tplFill g n d) s = .next t
        ∧ t = { s with lcp := t.lcp, lif := s.lif.answering 0x64#8 g .ok
                         (be2 t.lcp.addrX ++ be1 t.lcp.addrY) }
        ∧ ∃ u, exec (.tplFill g (n - 1) d) s = .next u
          ∧ exec (.tplWrite g [d]) { u with lif := s.lif }
            = .next { t with lif := s.lif.answering 0x63#8 g .ok (be2 t.lcp.addrX ++ be1 t.lcp.addrY) })

/-- TPL_READ, hold or no hold: refused outside 1 to 1,024; taken, it answers that many bytes, each the next 8
pixels the counter visits with the first in the most significant bit, moves the counter by them, and changes
nothing else (R151). TPL_CLEAR with the hold clear sets every pixel of the template to 0 and leaves the
window, counter, op, mask, pattern and hold as they are (R151). -/
def Obligations.TemplateReadAndClear : Prop :=
  (∀ (g : Byte) (n : Nat) (s : State), s.lif.reply = none →
     (¬ (1 ≤ n ∧ n ≤ 1024) → exec (.tplRead g n) s = .next (s.refusedWith 0x65#8 g .badValue))
     ∧ (1 ≤ n → n ≤ 1024 → ∀ c, c = advances s.lcp.window (8 * n) s.lcp.addrX s.lcp.addrY →
       ∃ bytes, exec (.tplRead g n) s = .next { s with
           lcp := { s.lcp with addrX := c.1, addrY := c.2 }, lif := s.lif.answering 0x65#8 g .ok bytes }
         ∧ bytes.length = n
         ∧ ∀ i p b, (visited s.lcp.window (8 * n) s.lcp.addrX s.lcp.addrY)[i]? = some p →
           bytes[i / 8]? = some b → b.getMsbD (i % 8) = Image.pixel s.lcp.template p.1 p.2))
  ∧ (∀ (g : Byte) (s : State), s.lif.reply = none → s.lcp.hold = false →
       ∃ i : Image, exec (.tplClear g) s = .next { s with
           lcp := { s.lcp with template := i }, lif := s.lif.answering 0x66#8 g .ok [] }
         ∧ ∀ x y, Image.pixel i x y = false)

/-- TPL_OP, GLYPH_WRITE, PROTECT_SET and FIELD_SET with the hold clear: their checks; taken, they replace the
three drawing items, the glyphs named, the protect area, the entry, and nothing else (R148, R154 to R156).
TPL_HOLD sets the hold, with an attempt at completion at its passage from clear to set, and TPL_RELEASE clears it
unless a label slot is RENDERING (R138, R152). -/
def Obligations.ComposerTablesAndHold : Prop :=
  (∀ (g : Byte) (s : State), s.lif.reply = none → s.lcp.hold = false →
     (∀ op mask pattern, exec (.tplOp g op mask pattern) s = .next
       (match [RasterOp.replace, .or, .and, .xor, .condEq, .condNe][op]? with
         | none => s.refusedWith 0x62#8 g .badValue
         | some o => { s with lcp := { s.lcp with op := o, mask := mask, pattern := pattern }
                              lif := s.lif.answering 0x62#8 g .ok [] }))
     ∧ (∀ (set first count : Nat) (data : List Byte) (size most : Nat),
         (set = 0 ∧ size = 12 ∧ most = 80 ∨ set = 1 ∧ size = 48 ∧ most = 20) →
       (data.length ≠ size * count →
         exec (.glyphWrite g set first count data) s = .next (s.refusedWith 0x69#8 g .badLength))
       ∧ (data.length = size * count →
           ¬ (1 ≤ count ∧ count ≤ most ∧ 0x20 ≤ first ∧ first + count - 1 ≤ 0x7F) →
         exec (.glyphWrite g set first count data) s = .next (s.refusedWith 0x69#8 g .badValue))
       ∧ (data.length = size * count → 1 ≤ count → count ≤ most → 0x20 ≤ first → first + count - 1 ≤ 0x7F →
         ∃ t, exec (.glyphWrite g set first count data) s = .next t
           ∧ t = { s with lcp := { s.lcp with small := t.lcp.small, large := t.lcp.large }
                          lif := s.lif.answering 0x69#8 g .ok [] }
           ∧ (set = 1 → t.lcp.small = s.lcp.small) ∧ (set = 0 → t.lcp.large = s.lcp.large)
           ∧ (∀ j : Nat, j < 96 → (j + 0x20 < first ∨ first + count ≤ j + 0x20) →
               t.lcp.small[j]? = s.lcp.small[j]? ∧ t.lcp.large[j]? = s.lcp.large[j]?)
           ∧ ∀ i k c b, i < count → k < size → c < 8 → data[size * i + k]? = some b →
             (set = 0 → ∃ v, t.lcp.small[first - 0x20 + i]? = some v ∧ v.getMsbD (8 * k + c) = b.getMsbD c)
             ∧ (set = 1 → ∃ v, t.lcp.large[first - 0x20 + i]? = some v
                 ∧ v.getMsbD (8 * k + c) = b.getMsbD c)))
     ∧ (∀ (a : Nat) (r : Rect) (used : Bool), ∃ t,
         exec (.protectSet g a (if used then 1#8 else 0#8) r) s = .next t ∧
         (if 1 ≤ a ∧ a ≤ 4 ∧ (used = true → r.x0 ≤ r.x1 ∧ r.x1 ≤ 447 ∧ r.y0 ≤ r.y1 ∧ r.y1 ≤ 255) then
           t = { s with lcp := { s.lcp with protect := t.lcp.protect }
                        lif := s.lif.answering 0x6A#8 g .ok [] }
           ∧ tabGet t.lcp.protect a = some (if used then some r else none)
           ∧ ∀ j, j ≠ a → tabGet t.lcp.protect j = tabGet s.lcp.protect j
         else t = s.refusedWith 0x6A#8 g .badValue))
     ∧ (∀ (n : Nat) (f : Field) (used : Bool), ∃ t,
         exec (.fieldSet g n (if used then 1#8 else 0#8) f) s = .next t ∧
         (if 1 ≤ n ∧ n ≤ 16 ∧ (used = true → f.kind ≤ 12 ∧ f.x ≤ 447 ∧ f.y ≤ 255 ∧ f.align ≤ 1 ∧ f.ink ≤ 1
             ∧ (f.kind ≠ 12 → f.glyphSet ≤ 1 ∧ 1 ≤ f.scale ∧ f.scale ≤ 2 ∧ 1 ≤ f.maxChars ∧ f.maxChars ≤ 32)
             ∧ (f.kind = 12 → 1 ≤ f.moduleWidth ∧ f.moduleWidth ≤ 3 ∧ 8 ≤ f.height ∧ f.height ≤ 128)) then
           t = { s with lcp := { s.lcp with fields := t.lcp.fields }
                        lif := s.lif.answering 0x6B#8 g .ok [] }
           ∧ tabGet t.lcp.fields n = some (if used then some f else none)
           ∧ ∀ j, j ≠ n → tabGet t.lcp.fields j = tabGet s.lcp.fields j
         else t = s.refusedWith 0x6B#8 g .badValue)))
  ∧ (∀ (g : Byte) (s : State), s.lif.reply = none →
       (s.lcp.hold = true → exec (.tplHold g) s = .next { s with lif := s.lif.answering 0x67#8 g .ok [] })
       ∧ (s.lcp.hold = false →
         ∃ t, exec (.tplHold g) s = .next { t with lif := t.lif.answering 0x67#8 g .ok [] }
           ∧ State.closesWaiting { s with lcp := { s.lcp with hold := true } } t)
       ∧ ((∃ x ∈ s.prq.slots.toList, x.state = .rendering) →
         exec (.tplRelease g) s = .next (s.refusedWith 0x68#8 g .inUse))
       ∧ ((∀ x ∈ s.prq.slots.toList, x.state ≠ .rendering) → exec (.tplRelease g) s = .next { s with
         lcp := { s.lcp with hold := false }, lif := s.lif.answering 0x68#8 g .ok [] }))

/-- The completion of a rendering: the slot takes its image and joins the print order as QUEUED, the manifest
takes the clipped-field list, both counters rise, the engine takes up the next slot, and the start test of the
print engine follows (R158, R163). The image: inside every protect area the template's pixel; at any other pixel
of the label the ink of the highest used entry that has the pixel as an inked target, and the template's where none has
(R155, R156, R158). The list, in ascending order: the used entries with a target past the label edge (R156), the
target of a glyph pixel of 0 too (the model's reading of R156, DEDUCED, log 39). That nothing happens with nothing
taken up is the model's choice (DESIGN CHOICE, log 3). -/
def Obligations.RenderingQueuesTheLabel : Prop :=
  ∀ s : State,
    (s.lcp.engine = none → exec .renderCompletion s = .next s)
    ∧ (∀ k r rest m, s.lcp.engine = some k → s.lcp.renderOrder = r :: rest → r.slot = k →
        (∀ q ∈ rest, q.slot ≠ k) → s.bdb.manifests.find? (fun m => m.number == r.bundle) = some m →
        1 ≤ k → k ≤ 4 →
      ∃ (t u : State) (i : Image) (clipped : List Nat) (v : Vector Slot 4), exec .renderCompletion s = .next t
        ∧ u = { s with
            bdb := { s.bdb with manifests := s.bdb.manifests.map (fun m =>
              if m.number = r.bundle then { m with clipped := clipped } else m) }
            lcp := { s.lcp with renderOrder := rest, engine := rest.head?.map (·.slot)
                                rendered := min (s.lcp.rendered + 1) 65535
                                clippedFields := min (s.lcp.clippedFields + clipped.length) 65535 }
            prq := { s.prq with slots := v, order := s.prq.order ++ [k] } }
        ∧ u.startsPrint t
        ∧ (∀ j, j ≠ k → tabGet v j = tabGet s.prq.slots j)
        ∧ tabGet v k = some { slotAt s k with state := .queued, image := i }
        ∧ (∀ a x y, some a ∈ s.lcp.protect.toList → a.x0 ≤ x → x ≤ a.x1 → a.y0 ≤ y → y ≤ a.y1 →
            a.x1 ≤ 447 → Image.pixel i x y = Image.pixel s.lcp.template x y)
        ∧ ((∀ f ∈ s.lcp.fields.toList, f = none) → i = s.lcp.template ∧ clipped = [])
        ∧ clipped.Pairwise (· < ·)
        ∧ (∀ n, n ∈ clipped ↔ ∃ f ink x y, tabGet s.lcp.fields n = some (some f)
            ∧ fieldCovers f s.lcp m r ink x y ∧ pastEdge x y)
        ∧ ∀ x y : Nat, x < 448 → y < 256 →
          (∀ a, some a ∈ s.lcp.protect.toList → ¬ (a.x0 ≤ x ∧ x ≤ a.x1 ∧ a.y0 ≤ y ∧ y ≤ a.y1)) →
          (∀ n f, tabGet s.lcp.fields n = some (some f) → fieldCovers f s.lcp m r true x y →
            (∀ n' f', n < n' → tabGet s.lcp.fields n' = some (some f') → ¬ fieldCovers f' s.lcp m r true x y) →
            Image.pixel i x y = decide (f.ink = 0))
          ∧ ((∀ n f, tabGet s.lcp.fields n = some (some f) → ¬ fieldCovers f s.lcp m r true x y) →
            Image.pixel i x y = Image.pixel s.lcp.template x y))

/-- What one field draws: the pixels of its inked targets that lie on the label and in no protect area take the ink,
every other pixel keeps its value, and the field is clipped exactly when a target lies past the label edge (R156). The
code strip: the start bar, a bar of 1 or 3 modules for each of the 48 bits from the most significant, the stop bar,
each followed by a space of 2 but the last; its width in modules is 5 + 5 ones + 3 zeros + 3, and no strip is narrower
than 152 or wider than 248 (R159). The targets of a field: those of its code strip's bars, all inked, or those of the
glyph pixels, of 1 and of 0, of its text cut to max characters, the cells placed side by side by align and scale
(R153, R156, R159); that a target of a glyph pixel of 0 clips as another does is the model's reading (DEDUCED, log
39). The text of each kind, from the manifest and the render record, and the decimal numbers in it (R157). -/
def Obligations.FieldsAndCodeStrips : Prop :=
  (∀ (areas : Vector (Option Rect) 4) (ink : Bool) (ts : List Target) (i j : Image) (clipped : Bool),
     drawTargets areas ink ts i = (j, clipped) →
     (clipped = true ↔ ∃ p ∈ ts, p.x < 0 ∨ 447 < p.x ∨ 255 < p.y)
     ∧ ∀ x y : Nat, x < 448 → y < 256 → ∀ guarded : Prop,
       (guarded ↔ ∃ a, some a ∈ areas.toList ∧ a.x0 ≤ x ∧ x ≤ a.x1 ∧ a.y0 ≤ y ∧ y ≤ a.y1) →
       (⟨x, y, true⟩ ∈ ts → ¬ guarded → Image.pixel j x y = ink)
       ∧ ((⟨x, y, true⟩ ∉ ts ∨ guarded) → Image.pixel j x y = Image.pixel i x y))
  ∧ (∀ (number : Nat) (check : BitVec 16) (ones : Nat) (bits : BitVec 48), number < 4294967296 →
       bits = (BitVec.ofNat 32 number) ++ check → ones = (List.range 48).countP (fun k => bits.getLsbD k) →
       (stripBars number check).length = 50
       ∧ (stripBars number check)[0]? = some 3 ∧ (stripBars number check)[49]? = some 3
       ∧ (∀ k, k < 48 → (stripBars number check)[k + 1]? = some (if bits.getMsbD k then 3 else 1))
       ∧ stripWidth number check = 5 + 5 * ones + 3 * (48 - ones) + 3
       ∧ 152 ≤ stripWidth number check ∧ stripWidth number check ≤ 248)
  ∧ (∀ (l : Lcp) (m : Manifest) (r : RenderRecord) (f : Field) (ink : Bool) (x : Int) (y : Nat),
       ⟨x, y, ink⟩ ∈ fieldTargets l m r f ↔ fieldCovers f l m r ink x y)
  ∧ (∀ (m : Manifest) (r : RenderRecord),
       fieldText m r 0 = decimal m.number
       ∧ fieldText m r 1 = (if m.worst = 0 then ascii ['-'] else r.gradeName)
       ∧ fieldText m r 2
         = (((m.perClass.toList.take r.classCount).map decimal).intersperse (ascii ['/'])).flatten
       ∧ fieldText m r 3 = decimal m.pieces
       ∧ (∃ a b c : Nat, a < 10 ∧ b < 10 ∧ c < 10 ∧ m.lineal % 1000 = 100 * a + 10 * b + c
         ∧ fieldText m r 4 = decimal (m.lineal / 1000) ++ ascii ['.'] ++ decimal a ++ decimal b ++ decimal c)
       ∧ fieldText m r 5
         = (if m.lineal = 0 then ascii ['0', '%'] else decimal (m.shorts * 100 / m.lineal) ++ ascii ['%'])
       ∧ (m.tallies = [] → fieldText m r 6 = [])
       ∧ (∀ y ys key, m.tallies = y :: ys →
           (∀ ref, y.key = .order ref → key = ref) → (y.key = .stock → key = ascii ['S', 'T', 'O', 'C', 'K']) →
           fieldText m r 6 = if ys = [] then key else key ++ ascii ['+'] ++ decimal ys.length)
       ∧ fieldText m r 7 = r.profileId ∧ fieldText m r 8 = r.species ∧ fieldText m r 9 = m.date
       ∧ (m.gauge = .unverified →
           fieldText m r 10 = ascii ['U', 'N', 'V', 'E', 'R', 'I', 'F', 'I', 'E', 'D'])
       ∧ (m.gauge = .pass → fieldText m r 10 = ascii ['P', 'A', 'S', 'S'])
       ∧ (m.gauge = .suspect → fieldText m r 10 = ascii ['S', 'U', 'S', 'P', 'E', 'C', 'T'])
       ∧ (fieldText m r 11).length = 4
       ∧ ∀ d : Nat, d < 4 → (fieldText m r 11)[d]?
           = (ascii ['0', '1', '2', '3', '4', '5', '6', '7', '8', '9', 'A', 'B', 'C', 'D', 'E', 'F'])[
               m.check.toNat / 16 ^ (3 - d) % 16]?)
  ∧ (∀ n : Nat, n < 10 ^ 20 →
       (∀ b ∈ decimal n, 0x30 ≤ b.toNat ∧ b.toNat ≤ 0x39)
       ∧ (decimal n).foldl (fun v b => 10 * v + (b.toNat - 0x30)) 0 = n
       ∧ decimal n ≠ [] ∧ ((decimal n).head? = some 0x30#8 → decimal n = [0x30#8]))

/-! ## Printing (chapter 11) -/

/-- PRINT_SET: a setting outside its range is refused; taken, the four are replaced, those of a print in progress
staying in force (R164). PRINT_RETRY and PRINT_DROP need a slot in FAULT: RETRY queues it at the front of the print
order, and DROP frees it and loses its label, an attempt at completion following (R138, R169, R170); the start test of
the print engine follows each, so that with ready true the next label begins to print. The start test at ready's rise,
the fault input's release and the end of the done pulse: with the port IDLE, no slot in FAULT, a slot waiting, ready
true and the fault input released, the first slot of the order begins to print; otherwise none does (R163, R165,
R167). -/
def Obligations.PrintRequestsAndStarts : Prop :=
  (∀ (g : Byte) (s : State), s.lif.reply = none →
     (∀ p : PrintSettings, exec (.printSet g p) s = .next
       (if (1 ≤ p.timer ∧ p.timer ≤ 60) ∧ (1 ≤ p.strobe ∧ p.strobe ≤ 50) ∧ (1 ≤ p.done ∧ p.done ≤ 50)
           ∧ (1 ≤ p.byteTime ∧ p.byteTime ≤ 200) then
         { s with prq := { s.prq with settings := p }, lif := s.lif.answering 0x70#8 g .ok [] }
       else s.refusedWith 0x70#8 g .badValue))
     ∧ ((∀ x ∈ s.prq.slots.toList, x.state ≠ .fault) →
       exec (.printRetry g) s = .next (s.refusedWith 0x71#8 g .wrongState)
       ∧ exec (.printDrop g) s = .next (s.refusedWith 0x72#8 g .wrongState))
     ∧ (∀ k x, tabGet s.prq.slots k = some x → x.state = .fault →
         (∀ j y, j ≠ k → tabGet s.prq.slots j = some y → y.state ≠ .fault) →
       (∃ (t u : State) (v : Vector Slot 4), exec (.printRetry g) s
           = .next { t with lif := t.lif.answering 0x71#8 g .ok [] }
         ∧ u = { s with prq := { s.prq with slots := v, order := k :: s.prq.order
                                            retries := min (s.prq.retries + 1) 65535 } }
         ∧ tabGet v k = some { x with state := .queued } ∧ (∀ j, j ≠ k → tabGet v j = tabGet s.prq.slots j)
         ∧ u.startsPrint t)
       ∧ (∀ n, x.bundle = some n →
         ∃ (t u w : State) (v : Vector Slot 4), exec (.printDrop g) s
             = .next { t with lif := t.lif.answering 0x72#8 g .ok [] }
           ∧ u = { s with
               bdb := { s.bdb with manifests := s.bdb.manifests.map (fun m =>
                 if m.number = n then { m with label := .lost } else m) }
               prq := { s.prq with slots := v, drops := min (s.prq.drops + 1) 65535 } }
           ∧ tabGet v k = some { x with state := .free, bundle := none, attempts := 0 }
           ∧ (∀ j, j ≠ k → tabGet v j = tabGet s.prq.slots j)
           ∧ u.closesWaiting w ∧ w.startsPrint t)))
  ∧ (∀ (s u : State) (c : Instr),
       ((c = .printReadyRise ∧ s.pins.printReady = false
           ∧ u = { s with pins := { s.pins with printReady := true } })
         ∨ (c = .printFaultRelease ∧ s.pins.printFault = true
           ∧ u = { s with pins := { s.pins with printFault := false } })
         ∨ (c = .donePulseEnd ∧ s.prq.port = .done ∧ (∃ ms, s.prq.donePulse = some ms)
           ∧ u = { s with prq := { s.prq with donePulse := none, port := .idle } })) →
       ((u.prq.port ≠ .idle ∨ (∃ x ∈ u.prq.slots.toList, x.state = .fault) ∨ u.prq.order = []
           ∨ u.pins.printReady = false ∨ u.pins.printFault = true) → exec c s = .next u)
       ∧ (∀ k rest x, u.prq.port = .idle → (∀ x ∈ u.prq.slots.toList, x.state ≠ .fault) →
           u.prq.order = k :: rest → u.pins.printReady = true → u.pins.printFault = false →
           tabGet u.prq.slots k = some x →
         ∃ v, exec c s = .next { u with prq := { u.prq with
             slots := v, order := rest, port := .busy, sending := k, rowsSent := 0, transfer := none
             strobe := some u.prq.settings.strobe, timer := some (u.prq.settings.timer * 1000)
             inForce := u.prq.settings } }
           ∧ tabGet v k = some { x with state := .printing, attempts := min 255 (x.attempts + 1) }
           ∧ ∀ j, j ≠ k → tabGet v j = tabGet u.prq.slots j))

/-- Rows: a request in BUSY with no transfer begins the transfer of the row numbered by the rows sent count, in 56
bytes with the leftmost pixel first; any other request is stray. The end of a transfer counts the row, and the end of
row 255 ends the label: PRINTED, told, the slot FREE, the done pulse on, and an attempt at completion (R138, R166,
R167). A print ends in fault at the assertion of the fault input or the expiry of the print timer while the port is
BUSY: the transfer, strobe and timer go, the slot is FAULT with its image and bundle, PRINT_FAULT is queued and the
cause counted. An assertion in another port state is a stray; with the timer stopped no expiry occurs (R168). The
model's: that a row request or fault input already high, a transfer, timer or done pulse not running does nothing
(DESIGN CHOICE, log 3), and that the strobe is dropped at the label's end (DEDUCED, log 29). -/
def Obligations.RowsAndPrintFaults : Prop :=
  (∀ s : State,
     (s.pins.rowRequest = true → exec .rowRequest s = .next s)
     ∧ (s.pins.rowRequest = false → s.prq.port = .busy → s.prq.transfer = none →
       ∃ bytes, exec .rowRequest s = .next { s with
           pins := { s.pins with rowRequest := true }, prq := { s.prq with transfer := some bytes } }
         ∧ bytes.length = 56
         ∧ ∀ i b, bytes[i / 8]? = some b →
           b.getMsbD (i % 8) = Image.pixel (slotAt s s.prq.sending).image i s.prq.rowsSent)
     ∧ (s.pins.rowRequest = false → (s.prq.port ≠ .busy ∨ ∃ bytes, s.prq.transfer = some bytes) →
       exec .rowRequest s = .next { s with
         pins := { s.pins with rowRequest := true }
         prq := { s.prq with strayRows := min (s.prq.strayRows + 1) 65535 } })
     ∧ (s.prq.transfer = none → exec .rowTransferEnd s = .next s
         ∧ ((s.prq.port ≠ .done ∨ s.prq.donePulse = none) → exec .donePulseEnd s = .next s))
     ∧ (∀ bytes, s.prq.transfer = some bytes → s.prq.rowsSent ≠ 255 →
       exec .rowTransferEnd s = .next { s with
         prq := { s.prq with transfer := none, rowsSent := s.prq.rowsSent + 1 } })
     ∧ (∀ bytes x n, s.prq.transfer = some bytes → s.prq.rowsSent = 255 →
         tabGet s.prq.slots s.prq.sending = some x → x.bundle = some n →
       ∃ (t : State) (v : Vector Slot 4), exec .rowTransferEnd s = .next t
         ∧ State.closesWaiting { s with
           bdb := { s.bdb with manifests := s.bdb.manifests.map (fun m =>
             if m.number = n then { m with label := .printed } else m) }
           prq := { s.prq with
             transfer := none, rowsSent := 256, slots := v, timer := none, strobe := none, port := .done
             donePulse := some s.prq.inForce.done, printed := min (s.prq.printed + 1) 65535 }
           lif := s.lif.raise (.labelPrinted n s.prq.sending x.attempts) } t
         ∧ tabGet v s.prq.sending = some { x with state := .free, bundle := none, attempts := 0 }
         ∧ ∀ j, j ≠ s.prq.sending → tabGet v j = tabGet s.prq.slots j))
  ∧ (∀ s : State,
       (s.pins.printFault = true → exec .printFaultAssert s = .next s)
       ∧ (s.pins.printFault = false → s.prq.port ≠ .busy → exec .printFaultAssert s = .next { s with
           pins := { s.pins with printFault := true }
           prq := { s.prq with strayFaults := min (s.prq.strayFaults + 1) 65535 } })
       ∧ ((s.prq.port ≠ .busy ∨ s.prq.timer = none) → exec .printTimerExpiry s = .next s)
       ∧ (∀ x n, s.prq.port = .busy → tabGet s.prq.slots s.prq.sending = some x → x.bundle = some n →
         ∃ v, tabGet v s.prq.sending = some { x with state := .fault }
           ∧ (∀ j, j ≠ s.prq.sending → tabGet v j = tabGet s.prq.slots j)
           ∧ (s.pins.printFault = false → exec .printFaultAssert s = .next { s with
               pins := { s.pins with printFault := true }
               prq := { s.prq with
                 slots := v, transfer := none, strobe := none, timer := none, port := .idle
                 faults := min (s.prq.faults + 1) 65535 }
               lif := s.lif.raise (.printFault n s.prq.sending .faultInput s.prq.rowsSent x.attempts) })
           ∧ (∀ ms, s.prq.timer = some ms → exec .printTimerExpiry s = .next { s with
               prq := { s.prq with
                 slots := v, transfer := none, strobe := none, timer := none, port := .idle
                 timeouts := min (s.prq.timeouts + 1) 65535 }
               lif := s.lif.raise (.printFault n s.prq.sending .timeout s.prq.rowsSent x.attempts) })))

/-! ## Links and notices (chapter 12) -/

/-- Raising a notice: masked, it leaves no trace; else it takes the next sequence number, and joins the end of the
queue, asserting the attention output, or, with 64 queued, is discarded and counted (R180). NOTICE_POLL of 1 to 8
takes the oldest notices, as many as asked or held, and answers their records, the number left and the overflow
counter; the attention output is released with the last (R181, R182). SET_DATE of 8 bytes: characters and then 00h to
the end become the date code, anything else is refused (R179). A notice's record is the 32 bytes of section 12.6: the
sequence number at 0, the kind code, by which the notice is masked, at 2, the detail length at 3, the detail at 4. The
layout of NOTICE_POLL's reply, with the count sent once, is the model's reading of section 12.6 (DEDUCED, log 8); the
numbers its records give to line states and to PLAN_LATE's reason are the model's choice (DESIGN CHOICE, log 9). -/
def Obligations.NoticesAndTheDate : Prop :=
  (∀ q : Queued, q.laid q.record ∧ q.notice.code < 17
     ∧ ∃ b, q.record[2]? = some b ∧ b.toNat = q.notice.code)
  ∧ (∀ n, be1 n = [BitVec.ofNat 8 n] ∧ be2 n = [BitVec.ofNat 8 (n / 256), BitVec.ofNat 8 n])
  ∧ (∀ (l : Lif) (n : Notice),
     (l.masks.getLsbD n.code = false → l.raise n = l)
     ∧ (l.masks.getLsbD n.code = true → l.notices.length < 64 →
         l.raise n = { l with
           nextSeq := (l.nextSeq + 1) % 65536
           notices := l.notices ++ [{ seq := l.nextSeq, notice := n }], attention := true })
     ∧ (l.masks.getLsbD n.code = true → 64 ≤ l.notices.length →
         l.raise n = { l with
           nextSeq := (l.nextSeq + 1) % 65536
           noticeOverflow := min (l.noticeOverflow + 1) 65535 }))
  ∧ (∀ (g : Byte) (n : Nat) (s : State), s.lif.reply = none →
       exec (.noticePoll g n) s = .next
         (if 1 ≤ n ∧ n ≤ 8 then
           { s with
             lif := { s.lif with notices := s.lif.notices.drop n
                                 attention := decide (n < s.lif.notices.length) }.answering 0x7B#8 g .ok
               (be1 (min n s.lif.notices.length) ++ (s.lif.notices.take n).flatMap Queued.record
                 ++ be1 (s.lif.notices.length - n) ++ be2 s.lif.noticeOverflow) }
         else s.refusedWith 0x7B#8 g .badValue))
  ∧ (∀ (g : Byte) (d : List Byte) (s : State), s.lif.reply = none → d.length = 8 →
       (∀ (t : Text) (n : Nat), d = t ++ List.replicate n 0#8 → (∀ b ∈ t, 0x20 ≤ b.toNat ∧ b.toNat ≤ 0x7E) →
         exec (.setDate g d) s = .next { s with lif := { s.lif with date := t }.answering 0x7A#8 g .ok [] })
       ∧ ((∀ (t : Text) (n : Nat), d = t ++ List.replicate n 0#8 →
             ∃ b ∈ t, ¬ (0x20 ≤ b.toNat ∧ b.toNat ≤ 0x7E)) →
         exec (.setDate g d) s = .next (s.refusedWith 0x7A#8 g .badValue)))

/-- NOTICE_MASK replaces the 17 enables together, in every line state, and is refused with a bit from 17 to 31
set; notices already queued stay; after reset every enable is set, and LINE_CLEAR does not change them (R183).
-/
def Obligations.NoticeMaskReplacesTheEnables : Prop :=
  (∀ k, k < 17 → State.reset.lif.masks.getLsbD k = true)
  ∧ ∀ (g : Byte) (m : BitVec 32) (s : State), s.lif.reply = none →
    ((∃ k, 17 ≤ k ∧ m.getLsbD k = true) → exec (.noticeMask g m) s = .next (s.refusedWith 0x7C#8 g .badValue))
    ∧ ((∀ k, 17 ≤ k → m.getLsbD k = false) → ∃ e : BitVec 17,
        exec (.noticeMask g m) s
          = .next { s with lif := { s.lif with masks := e }.answering 0x7C#8 g .ok [] }
        ∧ ∀ k, k < 17 → e.getLsbD k = m.getLsbD k)
    ∧ ∀ t, exec (.lineClear g) s = .next t → t.lif.masks = s.lif.masks

/-- The pending reply: its begin turns the control receiver off and discards a frame in progress; its last byte ends
it, counts it and leaves the framer in HUNT, and the reply to RESET is followed by the reset (R175, R177). The end of
an announcement takes the oldest from the queue, counts it and advances the announce sequence number, from 255 to 0
(R185). That nothing happens with no reply at that stage, or with no announcement queued, is the model's choice (log
3). -/
def Obligations.RepliesAndAnnouncements : Prop :=
  (∀ s : State,
     (s.lif.reply = none → exec .replyBegins s = .next s ∧ exec .replySent s = .next s)
     ∧ (∀ r, s.lif.reply = some r → r.begun = false →
         exec .replySent s = .next s
         ∧ exec .replyBegins s = .next { s with lif := { s.lif with
             reply := some { r with begun := true }, control := { state := .hunt, bytes := [] }
             pendingDiscards := if s.lif.control.state = .hunt then s.lif.pendingDiscards
                                else min (s.lif.pendingDiscards + 1) 65535 } })
     ∧ (∀ r, s.lif.reply = some r → r.begun = true →
         exec .replyBegins s = .next s
         ∧ (r.resetAfter = false → exec .replySent s = .next { s with lif := { s.lif with
             reply := none, control := { state := .hunt, bytes := [] }
             repliesSent := min (s.lif.repliesSent + 1) 65535 } })
         ∧ (r.resetAfter = true → exec .replySent s = exec (.powerOnReset s.pins.stn s.pins.rate) s)))
  ∧ (∀ s : State,
       (s.lif.announceQueue = [] → exec .announceSent s = .next s)
       ∧ (∀ a rest, s.lif.announceQueue = a :: rest → exec .announceSent s = .next { s with lif := { s.lif with
           announceQueue := rest, announceSeq := (s.lif.announceSeq + 1) % 256
           announcementsSent := min (s.lif.announcementsSent + 1) 65535 } }))

/-- One byte in each state of a link's framer, whose receiver is on (the scan link's always, the control
link's while no reply is being sent), and the expiry of its gap timer (R172, R173). While a reply is being sent
the control receiver takes no byte, and the state stays as it is (R175). That GAP_TIMER_EXPIRY in HUNT, where the
timer does not run (DEDUCED, log 32), leaves the state unchanged is the model's choice (log 3). The length is that
of the header's last two bytes, the upper first. The CRC's register starts at FFFFh; a byte goes by exclusive OR into
its upper 8 bits, then eight times it is shifted left by one, with 1021h in by exclusive OR where the bit shifted out
is 1; over "123456789" it is 29B1h (R160). -/
def Obligations.FramerTakesBytes : Prop :=
  (crc16 [] = 0xFFFF#16
   ∧ (∀ (bs : List Byte) (b : Byte), ∃ v : Nat → BitVec 16, v 0 = crc16 bs ^^^ (b.setWidth 16 <<< 8)
       ∧ (∀ k, k < 8 → v (k + 1) = if (v k).msb = true then (v k <<< 1) ^^^ 0x1021#16 else v k <<< 1)
       ∧ crc16 (bs ++ [b]) = v 8)
   ∧ crc16 [0x31#8, 0x32#8, 0x33#8, 0x34#8, 0x35#8, 0x36#8, 0x37#8, 0x38#8, 0x39#8] = 0x29B1#16)
  ∧ (∀ (l : Lif) (f : Framer) (c : RxCounters → RxCounters),
       l.framer .control = l.control ∧ l.framer .scan = l.scan
       ∧ l.setFramer f .control = { l with control := f } ∧ l.setFramer f .scan = { l with scan := f }
       ∧ l.modRx c .control = { l with controlRx := c l.controlRx }
       ∧ l.modRx c .scan = { l with scanRx := c l.scanRx })
  ∧ (∀ bytes : List Byte, headerLength bytes = (bytes.getD 3 0#8).toNat * 256 + (bytes.getD 4 0#8).toNat)
  ∧ (∀ (b : Byte) (s : State) (r : Reply), s.lif.reply = some r → r.begun = true →
     exec (.framerByte .control b) s = .next s)
  ∧ ∀ (k : Link) (b : Byte) (st : FramerState) (bytes : List Byte) (s : State),
    s.lif.framer k = { state := st, bytes := bytes } →
    (k = .control → ∀ r, s.lif.reply = some r → r.begun = false) →
    (st = .hunt → b = 0xA7#8 → exec (.framerByte k b) s
      = .next { s with lif := s.lif.setFramer { state := .header, bytes := [] } k })
    ∧ (st = .hunt → b ≠ 0xA7#8 → exec (.framerByte k b) s
      = .next { s with lif := s.lif.modRx (fun c => { c with noise := min (c.noise + 1) 65535 }) k })
    ∧ (st = .header → bytes.length < 4 → exec (.framerByte k b) s
      = .next { s with lif := s.lif.setFramer { state := .header, bytes := bytes ++ [b] } k })
    ∧ (st = .header → bytes.length = 4 → (bytes.getD 3 0#8).toNat * 256 + b.toNat = 0 →
      exec (.framerByte k b) s
        = .next { s with lif := s.lif.setFramer { state := .crc, bytes := bytes ++ [b] } k })
    ∧ (st = .header → bytes.length = 4 → 1 ≤ (bytes.getD 3 0#8).toNat * 256 + b.toNat →
      (bytes.getD 3 0#8).toNat * 256 + b.toNat ≤ 1040 → exec (.framerByte k b) s
        = .next { s with lif := s.lif.setFramer { state := .payload, bytes := bytes ++ [b] } k })
    ∧ (st = .header → bytes.length = 4 → 1040 < (bytes.getD 3 0#8).toNat * 256 + b.toNat →
      exec (.framerByte k b) s = .next { s with
        lif := (s.lif.setFramer { state := .hunt, bytes := [] } k).modRx
          (fun c => { c with overlength := min (c.overlength + 1) 65535 }) k })
    ∧ (st = .payload → bytes.length + 1 < 5 + headerLength (bytes ++ [b]) → exec (.framerByte k b) s
      = .next { s with lif := s.lif.setFramer { state := .payload, bytes := bytes ++ [b] } k })
    ∧ (st = .payload → bytes.length + 1 = 5 + headerLength (bytes ++ [b]) → exec (.framerByte k b) s
      = .next { s with lif := s.lif.setFramer { state := .crc, bytes := bytes ++ [b] } k })
    ∧ (st = .crc → bytes.length + 1 = 6 + headerLength (bytes ++ [b]) → exec (.framerByte k b) s
      = .next { s with lif := s.lif.setFramer { state := .crc, bytes := bytes ++ [b] } k })
    ∧ (st = .crc → bytes.length + 1 = 7 + headerLength (bytes ++ [b]) →
      (crc16 (bytes.take (5 + headerLength (bytes ++ [b])))).toNat
        ≠ (bytes.getD (5 + headerLength (bytes ++ [b])) 0#8).toNat * 256 + b.toNat →
      exec (.framerByte k b) s = .next { s with
        lif := (s.lif.setFramer { state := .hunt, bytes := [] } k).modRx
          (fun c => { c with crcErrors := min (c.crcErrors + 1) 65535 }) k })
    ∧ (st = .hunt → exec (.gapTimerExpiry k) s = .next s)
    ∧ (st ≠ .hunt → exec (.gapTimerExpiry k) s = .next { s with
        lif := (s.lif.setFramer { state := .hunt, bytes := [] } k).modRx
          (fun c => { c with gapErrors := min (c.gapErrors + 1) 65535 }) k })

/-- The bytes of a sound broadcast frame on the hunting control link with no reply pending have the effect of
BROADCAST_FRAME, those of a scan record on the hunting scan link that of SCAN_RECORD; a frame of another
station or of another scan kind is only counted (R173, R184). A sound broadcast: RESET, SET_DATE and LINE_STOP
of the right length act as the addressed request would, with no reply pending after them; every other is
counted and ignored; with a reply not yet begun it is discarded and counted (R173, R176). With no reply pending:
a RESET broadcast is the reset with the straps as the inputs give them (R177); a SET_DATE broadcast takes a sound
date code, and an unsound one leaves no trace (R179); a LINE_STOP broadcast stops the line by the two queues,
cancelling a verification in flight, and leaves no trace outside RUNNING (R18, R30, R176). -/
def Obligations.OtherFramesAndBroadcasts : Prop :=
  (∀ (st k g : Byte) (p : List Byte) (s : State), p.length ≤ 1040 →
     (s.lif.control = { state := .hunt, bytes := [] } → s.lif.reply = none →
       (frameBytes 0xFF#8 k g p).foldl (fun u b => framerByte .control b u) s = broadcastFrame k p s
       ∧ (st ≠ 0xFF#8 → st ≠ station s →
         (frameBytes st k g p).foldl (fun u b => framerByte .control b u) s
           = { s with lif := { s.lif with
               controlRx.wrongStation := min (s.lif.controlRx.wrongStation + 1) 65535 } }))
     ∧ (s.lif.scan = { state := .hunt, bytes := [] } →
       exec (.scanRecord p) s = .next ((frameBytes 0x01#8 0x02#8 g p).foldl (fun u b => framerByte .scan b u) s)
       ∧ (k ≠ 0x02#8 → (frameBytes 0x01#8 k g p).foldl (fun u b => framerByte .scan b u) s
           = { s with lif := { s.lif with scanBadKind := min (s.lif.scanBadKind + 1) 65535 } })
       ∧ (st ≠ 0x01#8 → (frameBytes st k g p).foldl (fun u b => framerByte .scan b u) s
           = { s with lif := { s.lif with
               scanRx.wrongStation := min (s.lif.scanRx.wrongStation + 1) 65535 } })))
  ∧ (∀ (k : Byte) (p : List Byte) (s : State),
       (s.lif.reply = none →
         (k = 0x78#8 → p = [] →
           exec (.broadcastFrame k p) s = exec (.powerOnReset s.pins.stn s.pins.rate) s)
         ∧ (k = 0x7A#8 → p.length = 8 → ∀ g u, exec (.setDate g p) s = .next u →
           exec (.broadcastFrame k p) s = .next { u with lif := { u.lif with reply := none } })
         ∧ (k = 0x11#8 → p = [] → ∀ g u, exec (.lineStop g) s = .next u →
           exec (.broadcastFrame k p) s = .next { u with lif := { u.lif with reply := none } })
         ∧ (¬ (k = 0x78#8 ∧ p = []) → ¬ (k = 0x7A#8 ∧ p.length = 8) → ¬ (k = 0x11#8 ∧ p = []) →
           exec (.broadcastFrame k p) s = .next { s with
             lif := { s.lif with broadcastIgnored := min (s.lif.broadcastIgnored + 1) 65535 } })
         ∧ (k = 0x78#8 → p = [] → ∃ t, exec (.broadcastFrame k p) s = .next t
           ∧ exec (.powerOnReset s.pins.stn s.pins.rate) s = .next t)
         ∧ (k = 0x7A#8 → p.length = 8 →
           (∀ (t : Text) (n : Nat), p = t ++ List.replicate n 0#8 → (∀ b ∈ t, 0x20 ≤ b.toNat ∧ b.toNat ≤ 0x7E) →
             exec (.broadcastFrame k p) s = .next { s with lif := { s.lif with date := t } })
           ∧ ((∀ (t : Text) (n : Nat), p = t ++ List.replicate n 0#8 →
                 ∃ b ∈ t, ¬ (0x20 ≤ b.toNat ∧ b.toNat ≤ 0x7E)) →
             exec (.broadcastFrame k p) s = .next s))
         ∧ (k = 0x11#8 → p = [] →
           (s.ltr.lineState ≠ .running → exec (.broadcastFrame k p) s = .next s)
           ∧ (s.ltr.lineState = .running → ∀ m l,
               (m = if verifying s = true then s.msu.cancelled else s.msu) →
             (s.queuesEmpty →
               (l = if s.tsc.cutter = .off then s.lif.raise (.lineState .stopped .running .request)
                    else (s.lif.raise (.lineState .stopped .running .request)).raise
                      (.cutterState .off s.tsc.cutter .line)) →
               exec (.broadcastFrame k p) s = .next { s with
                 ltr := { s.ltr with lineState := .stopped }, tsc := s.tsc.switchedOff, msu := m
                 lif := if verifying s = true then
                   l.raise (.gaugeResult .cancelled .line s.msu.measured.length 0) else l })
             ∧ (¬ s.queuesEmpty → l = s.lif.raise (.lineState .stopping .running .request) →
               exec (.broadcastFrame k p) s = .next { s with
                 ltr := { s.ltr with lineState := .stopping }, msu := m
                 lif := if verifying s = true then
                   l.raise (.gaugeResult .cancelled .line s.msu.measured.length 0) else l }))))
       ∧ (∀ r, s.lif.reply = some r → r.begun = false → exec (.broadcastFrame k p) s = .next { s with
           lif := { s.lif with pendingDiscards := min (s.lif.pendingDiscards + 1) 65535 } }))
end

