-- ==== Sys2Proof/Laws/State.lean ====
section
/-! SUPPORT. Updates of one block of the state: one lemma for each field, true by definition. -/

namespace Sys2Proof.Machine

open Sys2Proof

/-! ## setPins -/

@[simp] theorem State.setPins_pins (s : State) (v : Pins) : (s.setPins v).pins = v := rfl
@[simp] theorem State.setPins_ltr (s : State) (v : Pins) : (s.setPins v).ltr = s.ltr := rfl
@[simp] theorem State.setPins_msu (s : State) (v : Pins) : (s.setPins v).msu = s.msu := rfl
@[simp] theorem State.setPins_ple (s : State) (v : Pins) : (s.setPins v).ple = s.ple := rfl
@[simp] theorem State.setPins_otu (s : State) (v : Pins) : (s.setPins v).otu = s.otu := rfl
@[simp] theorem State.setPins_fdp (s : State) (v : Pins) : (s.setPins v).fdp = s.fdp := rfl
@[simp] theorem State.setPins_pfc (s : State) (v : Pins) : (s.setPins v).pfc = s.pfc := rfl
@[simp] theorem State.setPins_tsc (s : State) (v : Pins) : (s.setPins v).tsc = s.tsc := rfl
@[simp] theorem State.setPins_srt (s : State) (v : Pins) : (s.setPins v).srt = s.srt := rfl
@[simp] theorem State.setPins_bdb (s : State) (v : Pins) : (s.setPins v).bdb = s.bdb := rfl
@[simp] theorem State.setPins_lcp (s : State) (v : Pins) : (s.setPins v).lcp = s.lcp := rfl
@[simp] theorem State.setPins_prq (s : State) (v : Pins) : (s.setPins v).prq = s.prq := rfl
@[simp] theorem State.setPins_lif (s : State) (v : Pins) : (s.setPins v).lif = s.lif := rfl
@[simp] theorem State.setPins_free (s : State) (v : Pins) : (s.setPins v).free = s.free := rfl
@[simp] theorem State.setPins_pending (s : State) (v : Pins) : (s.setPins v).pending = s.pending := rfl
@[simp] theorem State.setPins_self (s : State) : s.setPins s.pins = s := rfl
@[simp] theorem State.setPins_setPins (s : State) (v w : Pins) : (s.setPins v).setPins w = s.setPins w := rfl

/-! ## setLtr -/

@[simp] theorem State.setLtr_pins (s : State) (v : Ltr) : (s.setLtr v).pins = s.pins := rfl
@[simp] theorem State.setLtr_ltr (s : State) (v : Ltr) : (s.setLtr v).ltr = v := rfl
@[simp] theorem State.setLtr_msu (s : State) (v : Ltr) : (s.setLtr v).msu = s.msu := rfl
@[simp] theorem State.setLtr_ple (s : State) (v : Ltr) : (s.setLtr v).ple = s.ple := rfl
@[simp] theorem State.setLtr_otu (s : State) (v : Ltr) : (s.setLtr v).otu = s.otu := rfl
@[simp] theorem State.setLtr_fdp (s : State) (v : Ltr) : (s.setLtr v).fdp = s.fdp := rfl
@[simp] theorem State.setLtr_pfc (s : State) (v : Ltr) : (s.setLtr v).pfc = s.pfc := rfl
@[simp] theorem State.setLtr_tsc (s : State) (v : Ltr) : (s.setLtr v).tsc = s.tsc := rfl
@[simp] theorem State.setLtr_srt (s : State) (v : Ltr) : (s.setLtr v).srt = s.srt := rfl
@[simp] theorem State.setLtr_bdb (s : State) (v : Ltr) : (s.setLtr v).bdb = s.bdb := rfl
@[simp] theorem State.setLtr_lcp (s : State) (v : Ltr) : (s.setLtr v).lcp = s.lcp := rfl
@[simp] theorem State.setLtr_prq (s : State) (v : Ltr) : (s.setLtr v).prq = s.prq := rfl
@[simp] theorem State.setLtr_lif (s : State) (v : Ltr) : (s.setLtr v).lif = s.lif := rfl
@[simp] theorem State.setLtr_free (s : State) (v : Ltr) : (s.setLtr v).free = s.free := rfl
@[simp] theorem State.setLtr_pending (s : State) (v : Ltr) : (s.setLtr v).pending = s.pending := rfl
@[simp] theorem State.setLtr_self (s : State) : s.setLtr s.ltr = s := rfl
@[simp] theorem State.setLtr_setLtr (s : State) (v w : Ltr) : (s.setLtr v).setLtr w = s.setLtr w := rfl

/-! ## setMsu -/

@[simp] theorem State.setMsu_pins (s : State) (v : Msu) : (s.setMsu v).pins = s.pins := rfl
@[simp] theorem State.setMsu_ltr (s : State) (v : Msu) : (s.setMsu v).ltr = s.ltr := rfl
@[simp] theorem State.setMsu_msu (s : State) (v : Msu) : (s.setMsu v).msu = v := rfl
@[simp] theorem State.setMsu_ple (s : State) (v : Msu) : (s.setMsu v).ple = s.ple := rfl
@[simp] theorem State.setMsu_otu (s : State) (v : Msu) : (s.setMsu v).otu = s.otu := rfl
@[simp] theorem State.setMsu_fdp (s : State) (v : Msu) : (s.setMsu v).fdp = s.fdp := rfl
@[simp] theorem State.setMsu_pfc (s : State) (v : Msu) : (s.setMsu v).pfc = s.pfc := rfl
@[simp] theorem State.setMsu_tsc (s : State) (v : Msu) : (s.setMsu v).tsc = s.tsc := rfl
@[simp] theorem State.setMsu_srt (s : State) (v : Msu) : (s.setMsu v).srt = s.srt := rfl
@[simp] theorem State.setMsu_bdb (s : State) (v : Msu) : (s.setMsu v).bdb = s.bdb := rfl
@[simp] theorem State.setMsu_lcp (s : State) (v : Msu) : (s.setMsu v).lcp = s.lcp := rfl
@[simp] theorem State.setMsu_prq (s : State) (v : Msu) : (s.setMsu v).prq = s.prq := rfl
@[simp] theorem State.setMsu_lif (s : State) (v : Msu) : (s.setMsu v).lif = s.lif := rfl
@[simp] theorem State.setMsu_free (s : State) (v : Msu) : (s.setMsu v).free = s.free := rfl
@[simp] theorem State.setMsu_pending (s : State) (v : Msu) : (s.setMsu v).pending = s.pending := rfl
@[simp] theorem State.setMsu_self (s : State) : s.setMsu s.msu = s := rfl
@[simp] theorem State.setMsu_setMsu (s : State) (v w : Msu) : (s.setMsu v).setMsu w = s.setMsu w := rfl

/-! ## setPle -/

@[simp] theorem State.setPle_pins (s : State) (v : Ple) : (s.setPle v).pins = s.pins := rfl
@[simp] theorem State.setPle_ltr (s : State) (v : Ple) : (s.setPle v).ltr = s.ltr := rfl
@[simp] theorem State.setPle_msu (s : State) (v : Ple) : (s.setPle v).msu = s.msu := rfl
@[simp] theorem State.setPle_ple (s : State) (v : Ple) : (s.setPle v).ple = v := rfl
@[simp] theorem State.setPle_otu (s : State) (v : Ple) : (s.setPle v).otu = s.otu := rfl
@[simp] theorem State.setPle_fdp (s : State) (v : Ple) : (s.setPle v).fdp = s.fdp := rfl
@[simp] theorem State.setPle_pfc (s : State) (v : Ple) : (s.setPle v).pfc = s.pfc := rfl
@[simp] theorem State.setPle_tsc (s : State) (v : Ple) : (s.setPle v).tsc = s.tsc := rfl
@[simp] theorem State.setPle_srt (s : State) (v : Ple) : (s.setPle v).srt = s.srt := rfl
@[simp] theorem State.setPle_bdb (s : State) (v : Ple) : (s.setPle v).bdb = s.bdb := rfl
@[simp] theorem State.setPle_lcp (s : State) (v : Ple) : (s.setPle v).lcp = s.lcp := rfl
@[simp] theorem State.setPle_prq (s : State) (v : Ple) : (s.setPle v).prq = s.prq := rfl
@[simp] theorem State.setPle_lif (s : State) (v : Ple) : (s.setPle v).lif = s.lif := rfl
@[simp] theorem State.setPle_free (s : State) (v : Ple) : (s.setPle v).free = s.free := rfl
@[simp] theorem State.setPle_pending (s : State) (v : Ple) : (s.setPle v).pending = s.pending := rfl
@[simp] theorem State.setPle_self (s : State) : s.setPle s.ple = s := rfl
@[simp] theorem State.setPle_setPle (s : State) (v w : Ple) : (s.setPle v).setPle w = s.setPle w := rfl

/-! ## setOtu -/

@[simp] theorem State.setOtu_pins (s : State) (v : Otu) : (s.setOtu v).pins = s.pins := rfl
@[simp] theorem State.setOtu_ltr (s : State) (v : Otu) : (s.setOtu v).ltr = s.ltr := rfl
@[simp] theorem State.setOtu_msu (s : State) (v : Otu) : (s.setOtu v).msu = s.msu := rfl
@[simp] theorem State.setOtu_ple (s : State) (v : Otu) : (s.setOtu v).ple = s.ple := rfl
@[simp] theorem State.setOtu_otu (s : State) (v : Otu) : (s.setOtu v).otu = v := rfl
@[simp] theorem State.setOtu_fdp (s : State) (v : Otu) : (s.setOtu v).fdp = s.fdp := rfl
@[simp] theorem State.setOtu_pfc (s : State) (v : Otu) : (s.setOtu v).pfc = s.pfc := rfl
@[simp] theorem State.setOtu_tsc (s : State) (v : Otu) : (s.setOtu v).tsc = s.tsc := rfl
@[simp] theorem State.setOtu_srt (s : State) (v : Otu) : (s.setOtu v).srt = s.srt := rfl
@[simp] theorem State.setOtu_bdb (s : State) (v : Otu) : (s.setOtu v).bdb = s.bdb := rfl
@[simp] theorem State.setOtu_lcp (s : State) (v : Otu) : (s.setOtu v).lcp = s.lcp := rfl
@[simp] theorem State.setOtu_prq (s : State) (v : Otu) : (s.setOtu v).prq = s.prq := rfl
@[simp] theorem State.setOtu_lif (s : State) (v : Otu) : (s.setOtu v).lif = s.lif := rfl
@[simp] theorem State.setOtu_free (s : State) (v : Otu) : (s.setOtu v).free = s.free := rfl
@[simp] theorem State.setOtu_pending (s : State) (v : Otu) : (s.setOtu v).pending = s.pending := rfl
@[simp] theorem State.setOtu_self (s : State) : s.setOtu s.otu = s := rfl
@[simp] theorem State.setOtu_setOtu (s : State) (v w : Otu) : (s.setOtu v).setOtu w = s.setOtu w := rfl

/-! ## setFdp -/

@[simp] theorem State.setFdp_pins (s : State) (v : Fdp) : (s.setFdp v).pins = s.pins := rfl
@[simp] theorem State.setFdp_ltr (s : State) (v : Fdp) : (s.setFdp v).ltr = s.ltr := rfl
@[simp] theorem State.setFdp_msu (s : State) (v : Fdp) : (s.setFdp v).msu = s.msu := rfl
@[simp] theorem State.setFdp_ple (s : State) (v : Fdp) : (s.setFdp v).ple = s.ple := rfl
@[simp] theorem State.setFdp_otu (s : State) (v : Fdp) : (s.setFdp v).otu = s.otu := rfl
@[simp] theorem State.setFdp_fdp (s : State) (v : Fdp) : (s.setFdp v).fdp = v := rfl
@[simp] theorem State.setFdp_pfc (s : State) (v : Fdp) : (s.setFdp v).pfc = s.pfc := rfl
@[simp] theorem State.setFdp_tsc (s : State) (v : Fdp) : (s.setFdp v).tsc = s.tsc := rfl
@[simp] theorem State.setFdp_srt (s : State) (v : Fdp) : (s.setFdp v).srt = s.srt := rfl
@[simp] theorem State.setFdp_bdb (s : State) (v : Fdp) : (s.setFdp v).bdb = s.bdb := rfl
@[simp] theorem State.setFdp_lcp (s : State) (v : Fdp) : (s.setFdp v).lcp = s.lcp := rfl
@[simp] theorem State.setFdp_prq (s : State) (v : Fdp) : (s.setFdp v).prq = s.prq := rfl
@[simp] theorem State.setFdp_lif (s : State) (v : Fdp) : (s.setFdp v).lif = s.lif := rfl
@[simp] theorem State.setFdp_free (s : State) (v : Fdp) : (s.setFdp v).free = s.free := rfl
@[simp] theorem State.setFdp_pending (s : State) (v : Fdp) : (s.setFdp v).pending = s.pending := rfl
@[simp] theorem State.setFdp_self (s : State) : s.setFdp s.fdp = s := rfl
@[simp] theorem State.setFdp_setFdp (s : State) (v w : Fdp) : (s.setFdp v).setFdp w = s.setFdp w := rfl

/-! ## setPfc -/

@[simp] theorem State.setPfc_pins (s : State) (v : Pfc) : (s.setPfc v).pins = s.pins := rfl
@[simp] theorem State.setPfc_ltr (s : State) (v : Pfc) : (s.setPfc v).ltr = s.ltr := rfl
@[simp] theorem State.setPfc_msu (s : State) (v : Pfc) : (s.setPfc v).msu = s.msu := rfl
@[simp] theorem State.setPfc_ple (s : State) (v : Pfc) : (s.setPfc v).ple = s.ple := rfl
@[simp] theorem State.setPfc_otu (s : State) (v : Pfc) : (s.setPfc v).otu = s.otu := rfl
@[simp] theorem State.setPfc_fdp (s : State) (v : Pfc) : (s.setPfc v).fdp = s.fdp := rfl
@[simp] theorem State.setPfc_pfc (s : State) (v : Pfc) : (s.setPfc v).pfc = v := rfl
@[simp] theorem State.setPfc_tsc (s : State) (v : Pfc) : (s.setPfc v).tsc = s.tsc := rfl
@[simp] theorem State.setPfc_srt (s : State) (v : Pfc) : (s.setPfc v).srt = s.srt := rfl
@[simp] theorem State.setPfc_bdb (s : State) (v : Pfc) : (s.setPfc v).bdb = s.bdb := rfl
@[simp] theorem State.setPfc_lcp (s : State) (v : Pfc) : (s.setPfc v).lcp = s.lcp := rfl
@[simp] theorem State.setPfc_prq (s : State) (v : Pfc) : (s.setPfc v).prq = s.prq := rfl
@[simp] theorem State.setPfc_lif (s : State) (v : Pfc) : (s.setPfc v).lif = s.lif := rfl
@[simp] theorem State.setPfc_free (s : State) (v : Pfc) : (s.setPfc v).free = s.free := rfl
@[simp] theorem State.setPfc_pending (s : State) (v : Pfc) : (s.setPfc v).pending = s.pending := rfl
@[simp] theorem State.setPfc_self (s : State) : s.setPfc s.pfc = s := rfl
@[simp] theorem State.setPfc_setPfc (s : State) (v w : Pfc) : (s.setPfc v).setPfc w = s.setPfc w := rfl

/-! ## setTsc -/

@[simp] theorem State.setTsc_pins (s : State) (v : Tsc) : (s.setTsc v).pins = s.pins := rfl
@[simp] theorem State.setTsc_ltr (s : State) (v : Tsc) : (s.setTsc v).ltr = s.ltr := rfl
@[simp] theorem State.setTsc_msu (s : State) (v : Tsc) : (s.setTsc v).msu = s.msu := rfl
@[simp] theorem State.setTsc_ple (s : State) (v : Tsc) : (s.setTsc v).ple = s.ple := rfl
@[simp] theorem State.setTsc_otu (s : State) (v : Tsc) : (s.setTsc v).otu = s.otu := rfl
@[simp] theorem State.setTsc_fdp (s : State) (v : Tsc) : (s.setTsc v).fdp = s.fdp := rfl
@[simp] theorem State.setTsc_pfc (s : State) (v : Tsc) : (s.setTsc v).pfc = s.pfc := rfl
@[simp] theorem State.setTsc_tsc (s : State) (v : Tsc) : (s.setTsc v).tsc = v := rfl
@[simp] theorem State.setTsc_srt (s : State) (v : Tsc) : (s.setTsc v).srt = s.srt := rfl
@[simp] theorem State.setTsc_bdb (s : State) (v : Tsc) : (s.setTsc v).bdb = s.bdb := rfl
@[simp] theorem State.setTsc_lcp (s : State) (v : Tsc) : (s.setTsc v).lcp = s.lcp := rfl
@[simp] theorem State.setTsc_prq (s : State) (v : Tsc) : (s.setTsc v).prq = s.prq := rfl
@[simp] theorem State.setTsc_lif (s : State) (v : Tsc) : (s.setTsc v).lif = s.lif := rfl
@[simp] theorem State.setTsc_free (s : State) (v : Tsc) : (s.setTsc v).free = s.free := rfl
@[simp] theorem State.setTsc_pending (s : State) (v : Tsc) : (s.setTsc v).pending = s.pending := rfl
@[simp] theorem State.setTsc_self (s : State) : s.setTsc s.tsc = s := rfl
@[simp] theorem State.setTsc_setTsc (s : State) (v w : Tsc) : (s.setTsc v).setTsc w = s.setTsc w := rfl

/-! ## setSrt -/

@[simp] theorem State.setSrt_pins (s : State) (v : Srt) : (s.setSrt v).pins = s.pins := rfl
@[simp] theorem State.setSrt_ltr (s : State) (v : Srt) : (s.setSrt v).ltr = s.ltr := rfl
@[simp] theorem State.setSrt_msu (s : State) (v : Srt) : (s.setSrt v).msu = s.msu := rfl
@[simp] theorem State.setSrt_ple (s : State) (v : Srt) : (s.setSrt v).ple = s.ple := rfl
@[simp] theorem State.setSrt_otu (s : State) (v : Srt) : (s.setSrt v).otu = s.otu := rfl
@[simp] theorem State.setSrt_fdp (s : State) (v : Srt) : (s.setSrt v).fdp = s.fdp := rfl
@[simp] theorem State.setSrt_pfc (s : State) (v : Srt) : (s.setSrt v).pfc = s.pfc := rfl
@[simp] theorem State.setSrt_tsc (s : State) (v : Srt) : (s.setSrt v).tsc = s.tsc := rfl
@[simp] theorem State.setSrt_srt (s : State) (v : Srt) : (s.setSrt v).srt = v := rfl
@[simp] theorem State.setSrt_bdb (s : State) (v : Srt) : (s.setSrt v).bdb = s.bdb := rfl
@[simp] theorem State.setSrt_lcp (s : State) (v : Srt) : (s.setSrt v).lcp = s.lcp := rfl
@[simp] theorem State.setSrt_prq (s : State) (v : Srt) : (s.setSrt v).prq = s.prq := rfl
@[simp] theorem State.setSrt_lif (s : State) (v : Srt) : (s.setSrt v).lif = s.lif := rfl
@[simp] theorem State.setSrt_free (s : State) (v : Srt) : (s.setSrt v).free = s.free := rfl
@[simp] theorem State.setSrt_pending (s : State) (v : Srt) : (s.setSrt v).pending = s.pending := rfl
@[simp] theorem State.setSrt_self (s : State) : s.setSrt s.srt = s := rfl
@[simp] theorem State.setSrt_setSrt (s : State) (v w : Srt) : (s.setSrt v).setSrt w = s.setSrt w := rfl

/-! ## setBdb -/

@[simp] theorem State.setBdb_pins (s : State) (v : Bdb) : (s.setBdb v).pins = s.pins := rfl
@[simp] theorem State.setBdb_ltr (s : State) (v : Bdb) : (s.setBdb v).ltr = s.ltr := rfl
@[simp] theorem State.setBdb_msu (s : State) (v : Bdb) : (s.setBdb v).msu = s.msu := rfl
@[simp] theorem State.setBdb_ple (s : State) (v : Bdb) : (s.setBdb v).ple = s.ple := rfl
@[simp] theorem State.setBdb_otu (s : State) (v : Bdb) : (s.setBdb v).otu = s.otu := rfl
@[simp] theorem State.setBdb_fdp (s : State) (v : Bdb) : (s.setBdb v).fdp = s.fdp := rfl
@[simp] theorem State.setBdb_pfc (s : State) (v : Bdb) : (s.setBdb v).pfc = s.pfc := rfl
@[simp] theorem State.setBdb_tsc (s : State) (v : Bdb) : (s.setBdb v).tsc = s.tsc := rfl
@[simp] theorem State.setBdb_srt (s : State) (v : Bdb) : (s.setBdb v).srt = s.srt := rfl
@[simp] theorem State.setBdb_bdb (s : State) (v : Bdb) : (s.setBdb v).bdb = v := rfl
@[simp] theorem State.setBdb_lcp (s : State) (v : Bdb) : (s.setBdb v).lcp = s.lcp := rfl
@[simp] theorem State.setBdb_prq (s : State) (v : Bdb) : (s.setBdb v).prq = s.prq := rfl
@[simp] theorem State.setBdb_lif (s : State) (v : Bdb) : (s.setBdb v).lif = s.lif := rfl
@[simp] theorem State.setBdb_free (s : State) (v : Bdb) : (s.setBdb v).free = s.free := rfl
@[simp] theorem State.setBdb_pending (s : State) (v : Bdb) : (s.setBdb v).pending = s.pending := rfl
@[simp] theorem State.setBdb_self (s : State) : s.setBdb s.bdb = s := rfl
@[simp] theorem State.setBdb_setBdb (s : State) (v w : Bdb) : (s.setBdb v).setBdb w = s.setBdb w := rfl

/-! ## setLcp -/

@[simp] theorem State.setLcp_pins (s : State) (v : Lcp) : (s.setLcp v).pins = s.pins := rfl
@[simp] theorem State.setLcp_ltr (s : State) (v : Lcp) : (s.setLcp v).ltr = s.ltr := rfl
@[simp] theorem State.setLcp_msu (s : State) (v : Lcp) : (s.setLcp v).msu = s.msu := rfl
@[simp] theorem State.setLcp_ple (s : State) (v : Lcp) : (s.setLcp v).ple = s.ple := rfl
@[simp] theorem State.setLcp_otu (s : State) (v : Lcp) : (s.setLcp v).otu = s.otu := rfl
@[simp] theorem State.setLcp_fdp (s : State) (v : Lcp) : (s.setLcp v).fdp = s.fdp := rfl
@[simp] theorem State.setLcp_pfc (s : State) (v : Lcp) : (s.setLcp v).pfc = s.pfc := rfl
@[simp] theorem State.setLcp_tsc (s : State) (v : Lcp) : (s.setLcp v).tsc = s.tsc := rfl
@[simp] theorem State.setLcp_srt (s : State) (v : Lcp) : (s.setLcp v).srt = s.srt := rfl
@[simp] theorem State.setLcp_bdb (s : State) (v : Lcp) : (s.setLcp v).bdb = s.bdb := rfl
@[simp] theorem State.setLcp_lcp (s : State) (v : Lcp) : (s.setLcp v).lcp = v := rfl
@[simp] theorem State.setLcp_prq (s : State) (v : Lcp) : (s.setLcp v).prq = s.prq := rfl
@[simp] theorem State.setLcp_lif (s : State) (v : Lcp) : (s.setLcp v).lif = s.lif := rfl
@[simp] theorem State.setLcp_free (s : State) (v : Lcp) : (s.setLcp v).free = s.free := rfl
@[simp] theorem State.setLcp_pending (s : State) (v : Lcp) : (s.setLcp v).pending = s.pending := rfl
@[simp] theorem State.setLcp_self (s : State) : s.setLcp s.lcp = s := rfl
@[simp] theorem State.setLcp_setLcp (s : State) (v w : Lcp) : (s.setLcp v).setLcp w = s.setLcp w := rfl

/-! ## setPrq -/

@[simp] theorem State.setPrq_pins (s : State) (v : Prq) : (s.setPrq v).pins = s.pins := rfl
@[simp] theorem State.setPrq_ltr (s : State) (v : Prq) : (s.setPrq v).ltr = s.ltr := rfl
@[simp] theorem State.setPrq_msu (s : State) (v : Prq) : (s.setPrq v).msu = s.msu := rfl
@[simp] theorem State.setPrq_ple (s : State) (v : Prq) : (s.setPrq v).ple = s.ple := rfl
@[simp] theorem State.setPrq_otu (s : State) (v : Prq) : (s.setPrq v).otu = s.otu := rfl
@[simp] theorem State.setPrq_fdp (s : State) (v : Prq) : (s.setPrq v).fdp = s.fdp := rfl
@[simp] theorem State.setPrq_pfc (s : State) (v : Prq) : (s.setPrq v).pfc = s.pfc := rfl
@[simp] theorem State.setPrq_tsc (s : State) (v : Prq) : (s.setPrq v).tsc = s.tsc := rfl
@[simp] theorem State.setPrq_srt (s : State) (v : Prq) : (s.setPrq v).srt = s.srt := rfl
@[simp] theorem State.setPrq_bdb (s : State) (v : Prq) : (s.setPrq v).bdb = s.bdb := rfl
@[simp] theorem State.setPrq_lcp (s : State) (v : Prq) : (s.setPrq v).lcp = s.lcp := rfl
@[simp] theorem State.setPrq_prq (s : State) (v : Prq) : (s.setPrq v).prq = v := rfl
@[simp] theorem State.setPrq_lif (s : State) (v : Prq) : (s.setPrq v).lif = s.lif := rfl
@[simp] theorem State.setPrq_free (s : State) (v : Prq) : (s.setPrq v).free = s.free := rfl
@[simp] theorem State.setPrq_pending (s : State) (v : Prq) : (s.setPrq v).pending = s.pending := rfl
@[simp] theorem State.setPrq_self (s : State) : s.setPrq s.prq = s := rfl
@[simp] theorem State.setPrq_setPrq (s : State) (v w : Prq) : (s.setPrq v).setPrq w = s.setPrq w := rfl

/-! ## setLif -/

@[simp] theorem State.setLif_pins (s : State) (v : Lif) : (s.setLif v).pins = s.pins := rfl
@[simp] theorem State.setLif_ltr (s : State) (v : Lif) : (s.setLif v).ltr = s.ltr := rfl
@[simp] theorem State.setLif_msu (s : State) (v : Lif) : (s.setLif v).msu = s.msu := rfl
@[simp] theorem State.setLif_ple (s : State) (v : Lif) : (s.setLif v).ple = s.ple := rfl
@[simp] theorem State.setLif_otu (s : State) (v : Lif) : (s.setLif v).otu = s.otu := rfl
@[simp] theorem State.setLif_fdp (s : State) (v : Lif) : (s.setLif v).fdp = s.fdp := rfl
@[simp] theorem State.setLif_pfc (s : State) (v : Lif) : (s.setLif v).pfc = s.pfc := rfl
@[simp] theorem State.setLif_tsc (s : State) (v : Lif) : (s.setLif v).tsc = s.tsc := rfl
@[simp] theorem State.setLif_srt (s : State) (v : Lif) : (s.setLif v).srt = s.srt := rfl
@[simp] theorem State.setLif_bdb (s : State) (v : Lif) : (s.setLif v).bdb = s.bdb := rfl
@[simp] theorem State.setLif_lcp (s : State) (v : Lif) : (s.setLif v).lcp = s.lcp := rfl
@[simp] theorem State.setLif_prq (s : State) (v : Lif) : (s.setLif v).prq = s.prq := rfl
@[simp] theorem State.setLif_lif (s : State) (v : Lif) : (s.setLif v).lif = v := rfl
@[simp] theorem State.setLif_free (s : State) (v : Lif) : (s.setLif v).free = s.free := rfl
@[simp] theorem State.setLif_pending (s : State) (v : Lif) : (s.setLif v).pending = s.pending := rfl
@[simp] theorem State.setLif_self (s : State) : s.setLif s.lif = s := rfl
@[simp] theorem State.setLif_setLif (s : State) (v w : Lif) : (s.setLif v).setLif w = s.setLif w := rfl

/-! ## setPending -/

@[simp] theorem State.setPending_pins (s : State) (q : List Instr) : (s.setPending q).pins = s.pins := rfl
@[simp] theorem State.setPending_ltr (s : State) (q : List Instr) : (s.setPending q).ltr = s.ltr := rfl
@[simp] theorem State.setPending_msu (s : State) (q : List Instr) : (s.setPending q).msu = s.msu := rfl
@[simp] theorem State.setPending_ple (s : State) (q : List Instr) : (s.setPending q).ple = s.ple := rfl
@[simp] theorem State.setPending_otu (s : State) (q : List Instr) : (s.setPending q).otu = s.otu := rfl
@[simp] theorem State.setPending_fdp (s : State) (q : List Instr) : (s.setPending q).fdp = s.fdp := rfl
@[simp] theorem State.setPending_pfc (s : State) (q : List Instr) : (s.setPending q).pfc = s.pfc := rfl
@[simp] theorem State.setPending_tsc (s : State) (q : List Instr) : (s.setPending q).tsc = s.tsc := rfl
@[simp] theorem State.setPending_srt (s : State) (q : List Instr) : (s.setPending q).srt = s.srt := rfl
@[simp] theorem State.setPending_bdb (s : State) (q : List Instr) : (s.setPending q).bdb = s.bdb := rfl
@[simp] theorem State.setPending_lcp (s : State) (q : List Instr) : (s.setPending q).lcp = s.lcp := rfl
@[simp] theorem State.setPending_prq (s : State) (q : List Instr) : (s.setPending q).prq = s.prq := rfl
@[simp] theorem State.setPending_lif (s : State) (q : List Instr) : (s.setPending q).lif = s.lif := rfl
@[simp] theorem State.setPending_free (s : State) (q : List Instr) : (s.setPending q).free = s.free := rfl
@[simp] theorem State.setPending_pending (s : State) (q : List Instr) : (s.setPending q).pending = q := rfl

end Sys2Proof.Machine
end

