-- ==== Sys2Proof/Laws/Frames.lean ====
section
/-! SUPPORT. What each shared operation leaves alone: one lemma an operation, the blocks it never changes. -/

namespace Sys2Proof.Machine

open Sys2Proof

/-! ## Notices, replies -/

/-- `State.raise` changes no block but lif. -/
@[simp] theorem State.raise_frame (s : State) (n : Notice) :
    (s.raise n).pins = s.pins
      ∧ (s.raise n).ltr = s.ltr
      ∧ (s.raise n).msu = s.msu
      ∧ (s.raise n).ple = s.ple
      ∧ (s.raise n).otu = s.otu
      ∧ (s.raise n).fdp = s.fdp
      ∧ (s.raise n).pfc = s.pfc
      ∧ (s.raise n).tsc = s.tsc
      ∧ (s.raise n).srt = s.srt
      ∧ (s.raise n).bdb = s.bdb
      ∧ (s.raise n).lcp = s.lcp
      ∧ (s.raise n).prq = s.prq
      ∧ (s.raise n).free = s.free
      ∧ (s.raise n).pending = s.pending := by simp [State.raise]

/-- `State.setReply` changes no block but lif. -/
@[simp] theorem State.setReply_frame (s : State) (k t : Byte) (c : ResultCode) (d : List Byte) (a : Bool) :
    (s.setReply k t c d a).pins = s.pins
      ∧ (s.setReply k t c d a).ltr = s.ltr
      ∧ (s.setReply k t c d a).msu = s.msu
      ∧ (s.setReply k t c d a).ple = s.ple
      ∧ (s.setReply k t c d a).otu = s.otu
      ∧ (s.setReply k t c d a).fdp = s.fdp
      ∧ (s.setReply k t c d a).pfc = s.pfc
      ∧ (s.setReply k t c d a).tsc = s.tsc
      ∧ (s.setReply k t c d a).srt = s.srt
      ∧ (s.setReply k t c d a).bdb = s.bdb
      ∧ (s.setReply k t c d a).lcp = s.lcp
      ∧ (s.setReply k t c d a).prq = s.prq
      ∧ (s.setReply k t c d a).free = s.free
      ∧ (s.setReply k t c d a).pending = s.pending := by simp [State.setReply]

/-- `State.frameWhilePending` changes no block but lif. -/
@[simp] theorem State.frameWhilePending_frame (s : State) (r : Reply) :
    (s.frameWhilePending r).pins = s.pins
      ∧ (s.frameWhilePending r).ltr = s.ltr
      ∧ (s.frameWhilePending r).msu = s.msu
      ∧ (s.frameWhilePending r).ple = s.ple
      ∧ (s.frameWhilePending r).otu = s.otu
      ∧ (s.frameWhilePending r).fdp = s.fdp
      ∧ (s.frameWhilePending r).pfc = s.pfc
      ∧ (s.frameWhilePending r).tsc = s.tsc
      ∧ (s.frameWhilePending r).srt = s.srt
      ∧ (s.frameWhilePending r).bdb = s.bdb
      ∧ (s.frameWhilePending r).lcp = s.lcp
      ∧ (s.frameWhilePending r).prq = s.prq
      ∧ (s.frameWhilePending r).free = s.free
      ∧ (s.frameWhilePending r).pending = s.pending := by unfold State.frameWhilePending; split <;> simp

/-! ## Entries of tables and queues -/

/-- `State.modLine` changes no block but otu. -/
@[simp] theorem State.modLine_frame (s : State) (k : Nat) (f : OrderLine → OrderLine) :
    (s.modLine k f).pins = s.pins
      ∧ (s.modLine k f).ltr = s.ltr
      ∧ (s.modLine k f).msu = s.msu
      ∧ (s.modLine k f).ple = s.ple
      ∧ (s.modLine k f).fdp = s.fdp
      ∧ (s.modLine k f).pfc = s.pfc
      ∧ (s.modLine k f).tsc = s.tsc
      ∧ (s.modLine k f).srt = s.srt
      ∧ (s.modLine k f).bdb = s.bdb
      ∧ (s.modLine k f).lcp = s.lcp
      ∧ (s.modLine k f).prq = s.prq
      ∧ (s.modLine k f).lif = s.lif
      ∧ (s.modLine k f).free = s.free
      ∧ (s.modLine k f).pending = s.pending := by simp [State.modLine]

/-- `State.modSlot` changes no block but prq. -/
@[simp] theorem State.modSlot_frame (s : State) (k : Nat) (f : Slot → Slot) :
    (s.modSlot k f).pins = s.pins
      ∧ (s.modSlot k f).ltr = s.ltr
      ∧ (s.modSlot k f).msu = s.msu
      ∧ (s.modSlot k f).ple = s.ple
      ∧ (s.modSlot k f).otu = s.otu
      ∧ (s.modSlot k f).fdp = s.fdp
      ∧ (s.modSlot k f).pfc = s.pfc
      ∧ (s.modSlot k f).tsc = s.tsc
      ∧ (s.modSlot k f).srt = s.srt
      ∧ (s.modSlot k f).bdb = s.bdb
      ∧ (s.modSlot k f).lcp = s.lcp
      ∧ (s.modSlot k f).lif = s.lif
      ∧ (s.modSlot k f).free = s.free
      ∧ (s.modSlot k f).pending = s.pending := by simp [State.modSlot]

/-- `State.modBin` changes no block but bdb. -/
@[simp] theorem State.modBin_frame (s : State) (b : Nat) (f : Bin → Bin) :
    (s.modBin b f).pins = s.pins
      ∧ (s.modBin b f).ltr = s.ltr
      ∧ (s.modBin b f).msu = s.msu
      ∧ (s.modBin b f).ple = s.ple
      ∧ (s.modBin b f).otu = s.otu
      ∧ (s.modBin b f).fdp = s.fdp
      ∧ (s.modBin b f).pfc = s.pfc
      ∧ (s.modBin b f).tsc = s.tsc
      ∧ (s.modBin b f).srt = s.srt
      ∧ (s.modBin b f).lcp = s.lcp
      ∧ (s.modBin b f).prq = s.prq
      ∧ (s.modBin b f).lif = s.lif
      ∧ (s.modBin b f).free = s.free
      ∧ (s.modBin b f).pending = s.pending := by simp [State.modBin]

/-- `State.modManifest` changes no block but bdb. -/
@[simp] theorem State.modManifest_frame (s : State) (n : Nat) (f : Manifest → Manifest) :
    (s.modManifest n f).pins = s.pins
      ∧ (s.modManifest n f).ltr = s.ltr
      ∧ (s.modManifest n f).msu = s.msu
      ∧ (s.modManifest n f).ple = s.ple
      ∧ (s.modManifest n f).otu = s.otu
      ∧ (s.modManifest n f).fdp = s.fdp
      ∧ (s.modManifest n f).pfc = s.pfc
      ∧ (s.modManifest n f).tsc = s.tsc
      ∧ (s.modManifest n f).srt = s.srt
      ∧ (s.modManifest n f).lcp = s.lcp
      ∧ (s.modManifest n f).prq = s.prq
      ∧ (s.modManifest n f).lif = s.lif
      ∧ (s.modManifest n f).free = s.free
      ∧ (s.modManifest n f).pending = s.pending := by simp [State.modManifest]

/-- `State.modStrip` changes no block but ltr. -/
@[simp] theorem State.modStrip_frame (s : State) (t : Nat) (f : Strip → Strip) :
    (s.modStrip t f).pins = s.pins
      ∧ (s.modStrip t f).msu = s.msu
      ∧ (s.modStrip t f).ple = s.ple
      ∧ (s.modStrip t f).otu = s.otu
      ∧ (s.modStrip t f).fdp = s.fdp
      ∧ (s.modStrip t f).pfc = s.pfc
      ∧ (s.modStrip t f).tsc = s.tsc
      ∧ (s.modStrip t f).srt = s.srt
      ∧ (s.modStrip t f).bdb = s.bdb
      ∧ (s.modStrip t f).lcp = s.lcp
      ∧ (s.modStrip t f).prq = s.prq
      ∧ (s.modStrip t f).lif = s.lif
      ∧ (s.modStrip t f).free = s.free
      ∧ (s.modStrip t f).pending = s.pending := by simp [State.modStrip]

/-- `State.modPiece` changes no block but srt. -/
@[simp] theorem State.modPiece_frame (s : State) (t i : Nat) (f : Piece → Piece) :
    (s.modPiece t i f).pins = s.pins
      ∧ (s.modPiece t i f).ltr = s.ltr
      ∧ (s.modPiece t i f).msu = s.msu
      ∧ (s.modPiece t i f).ple = s.ple
      ∧ (s.modPiece t i f).otu = s.otu
      ∧ (s.modPiece t i f).fdp = s.fdp
      ∧ (s.modPiece t i f).pfc = s.pfc
      ∧ (s.modPiece t i f).tsc = s.tsc
      ∧ (s.modPiece t i f).bdb = s.bdb
      ∧ (s.modPiece t i f).lcp = s.lcp
      ∧ (s.modPiece t i f).prq = s.prq
      ∧ (s.modPiece t i f).lif = s.lif
      ∧ (s.modPiece t i f).free = s.free
      ∧ (s.modPiece t i f).pending = s.pending := by simp [State.modPiece]

/-- `State.modCuts` changes no block but tsc. -/
@[simp] theorem State.modCuts_frame (s : State) (t : Nat) (f : CutList → CutList) :
    (s.modCuts t f).pins = s.pins
      ∧ (s.modCuts t f).ltr = s.ltr
      ∧ (s.modCuts t f).msu = s.msu
      ∧ (s.modCuts t f).ple = s.ple
      ∧ (s.modCuts t f).otu = s.otu
      ∧ (s.modCuts t f).fdp = s.fdp
      ∧ (s.modCuts t f).pfc = s.pfc
      ∧ (s.modCuts t f).srt = s.srt
      ∧ (s.modCuts t f).bdb = s.bdb
      ∧ (s.modCuts t f).lcp = s.lcp
      ∧ (s.modCuts t f).prq = s.prq
      ∧ (s.modCuts t f).lif = s.lif
      ∧ (s.modCuts t f).free = s.free
      ∧ (s.modCuts t f).pending = s.pending := by simp [State.modCuts]

/-! ## Reservations (R72 to R77) -/

/-- `reserve` changes no block but otu. -/
@[simp] theorem reserve_frame (s : State) (l : Option Nat) (n : Nat) :
    (reserve l n s).pins = s.pins
      ∧ (reserve l n s).ltr = s.ltr
      ∧ (reserve l n s).msu = s.msu
      ∧ (reserve l n s).ple = s.ple
      ∧ (reserve l n s).fdp = s.fdp
      ∧ (reserve l n s).pfc = s.pfc
      ∧ (reserve l n s).tsc = s.tsc
      ∧ (reserve l n s).srt = s.srt
      ∧ (reserve l n s).bdb = s.bdb
      ∧ (reserve l n s).lcp = s.lcp
      ∧ (reserve l n s).prq = s.prq
      ∧ (reserve l n s).lif = s.lif
      ∧ (reserve l n s).free = s.free
      ∧ (reserve l n s).pending = s.pending := by cases l <;> simp [reserve]

/-- `drainLine` changes no block but otu, lif. -/
@[simp] theorem drainLine_frame (s : State) (k : Nat) :
    (drainLine k s).pins = s.pins
      ∧ (drainLine k s).ltr = s.ltr
      ∧ (drainLine k s).msu = s.msu
      ∧ (drainLine k s).ple = s.ple
      ∧ (drainLine k s).fdp = s.fdp
      ∧ (drainLine k s).pfc = s.pfc
      ∧ (drainLine k s).tsc = s.tsc
      ∧ (drainLine k s).srt = s.srt
      ∧ (drainLine k s).bdb = s.bdb
      ∧ (drainLine k s).lcp = s.lcp
      ∧ (drainLine k s).prq = s.prq
      ∧ (drainLine k s).free = s.free
      ∧ (drainLine k s).pending = s.pending := by unfold drainLine; dsimp only; split <;> simp

/-- `release` changes no block but otu, lif. -/
@[simp] theorem release_frame (s : State) (l : Option Nat) (n : Nat) :
    (release l n s).pins = s.pins
      ∧ (release l n s).ltr = s.ltr
      ∧ (release l n s).msu = s.msu
      ∧ (release l n s).ple = s.ple
      ∧ (release l n s).fdp = s.fdp
      ∧ (release l n s).pfc = s.pfc
      ∧ (release l n s).tsc = s.tsc
      ∧ (release l n s).srt = s.srt
      ∧ (release l n s).bdb = s.bdb
      ∧ (release l n s).lcp = s.lcp
      ∧ (release l n s).prq = s.prq
      ∧ (release l n s).free = s.free
      ∧ (release l n s).pending = s.pending := by cases l <;> simp [release]

/-- `fillLine` changes no block but otu, lif. -/
@[simp] theorem fillLine_frame (s : State) (k : Nat) (c : FillCause) :
    (fillLine k c s).pins = s.pins
      ∧ (fillLine k c s).ltr = s.ltr
      ∧ (fillLine k c s).msu = s.msu
      ∧ (fillLine k c s).ple = s.ple
      ∧ (fillLine k c s).fdp = s.fdp
      ∧ (fillLine k c s).pfc = s.pfc
      ∧ (fillLine k c s).tsc = s.tsc
      ∧ (fillLine k c s).srt = s.srt
      ∧ (fillLine k c s).bdb = s.bdb
      ∧ (fillLine k c s).lcp = s.lcp
      ∧ (fillLine k c s).prq = s.prq
      ∧ (fillLine k c s).free = s.free
      ∧ (fillLine k c s).pending = s.pending := by unfold fillLine; dsimp only; split <;> simp

/-- `credit` changes no block but otu, lif. -/
@[simp] theorem credit_frame (s : State) (l : Option Nat) (n : Nat) :
    (credit l n s).pins = s.pins
      ∧ (credit l n s).ltr = s.ltr
      ∧ (credit l n s).msu = s.msu
      ∧ (credit l n s).ple = s.ple
      ∧ (credit l n s).fdp = s.fdp
      ∧ (credit l n s).pfc = s.pfc
      ∧ (credit l n s).tsc = s.tsc
      ∧ (credit l n s).srt = s.srt
      ∧ (credit l n s).bdb = s.bdb
      ∧ (credit l n s).lcp = s.lcp
      ∧ (credit l n s).prq = s.prq
      ∧ (credit l n s).free = s.free
      ∧ (credit l n s).pending = s.pending := by cases l <;> simp [credit]

/-! ## The cutter group (section 7.7) -/

/-- `cutterTo` changes no block but tsc, lif. -/
@[simp] theorem cutterTo_frame (s : State) (c : Cutter) (u : CutterCause) :
    (cutterTo c u s).pins = s.pins
      ∧ (cutterTo c u s).ltr = s.ltr
      ∧ (cutterTo c u s).msu = s.msu
      ∧ (cutterTo c u s).ple = s.ple
      ∧ (cutterTo c u s).otu = s.otu
      ∧ (cutterTo c u s).fdp = s.fdp
      ∧ (cutterTo c u s).pfc = s.pfc
      ∧ (cutterTo c u s).srt = s.srt
      ∧ (cutterTo c u s).bdb = s.bdb
      ∧ (cutterTo c u s).lcp = s.lcp
      ∧ (cutterTo c u s).prq = s.prq
      ∧ (cutterTo c u s).free = s.free
      ∧ (cutterTo c u s).pending = s.pending := by simp [cutterTo]

/-- `enterSpinup` changes no block but tsc, lif. -/
@[simp] theorem enterSpinup_frame (s : State) (u : CutterCause) :
    (enterSpinup u s).pins = s.pins
      ∧ (enterSpinup u s).ltr = s.ltr
      ∧ (enterSpinup u s).msu = s.msu
      ∧ (enterSpinup u s).ple = s.ple
      ∧ (enterSpinup u s).otu = s.otu
      ∧ (enterSpinup u s).fdp = s.fdp
      ∧ (enterSpinup u s).pfc = s.pfc
      ∧ (enterSpinup u s).srt = s.srt
      ∧ (enterSpinup u s).bdb = s.bdb
      ∧ (enterSpinup u s).lcp = s.lcp
      ∧ (enterSpinup u s).prq = s.prq
      ∧ (enterSpinup u s).free = s.free
      ∧ (enterSpinup u s).pending = s.pending := by simp [enterSpinup]

/-- `cutterOff` changes no block but tsc, lif. -/
@[simp] theorem cutterOff_frame (s : State) (u : CutterCause) :
    (cutterOff u s).pins = s.pins
      ∧ (cutterOff u s).ltr = s.ltr
      ∧ (cutterOff u s).msu = s.msu
      ∧ (cutterOff u s).ple = s.ple
      ∧ (cutterOff u s).otu = s.otu
      ∧ (cutterOff u s).fdp = s.fdp
      ∧ (cutterOff u s).pfc = s.pfc
      ∧ (cutterOff u s).srt = s.srt
      ∧ (cutterOff u s).bdb = s.bdb
      ∧ (cutterOff u s).lcp = s.lcp
      ∧ (cutterOff u s).prq = s.prq
      ∧ (cutterOff u s).free = s.free
      ∧ (cutterOff u s).pending = s.pending := by unfold cutterOff; dsimp only; split <;> simp

/-- `idleTest` changes no block but tsc, lif. -/
@[simp] theorem idleTest_frame (s : State) :
    (idleTest s).pins = s.pins
      ∧ (idleTest s).ltr = s.ltr
      ∧ (idleTest s).msu = s.msu
      ∧ (idleTest s).ple = s.ple
      ∧ (idleTest s).otu = s.otu
      ∧ (idleTest s).fdp = s.fdp
      ∧ (idleTest s).pfc = s.pfc
      ∧ (idleTest s).srt = s.srt
      ∧ (idleTest s).bdb = s.bdb
      ∧ (idleTest s).lcp = s.lcp
      ∧ (idleTest s).prq = s.prq
      ∧ (idleTest s).free = s.free
      ∧ (idleTest s).pending = s.pending := by unfold idleTest; split <;> simp

/-- `activity` changes no block but tsc, lif. -/
@[simp] theorem activity_frame (s : State) :
    (activity s).pins = s.pins
      ∧ (activity s).ltr = s.ltr
      ∧ (activity s).msu = s.msu
      ∧ (activity s).ple = s.ple
      ∧ (activity s).otu = s.otu
      ∧ (activity s).fdp = s.fdp
      ∧ (activity s).pfc = s.pfc
      ∧ (activity s).srt = s.srt
      ∧ (activity s).bdb = s.bdb
      ∧ (activity s).lcp = s.lcp
      ∧ (activity s).prq = s.prq
      ∧ (activity s).free = s.free
      ∧ (activity s).pending = s.pending := by unfold activity; split <;> simp

/-- `wakeReport` changes no block but tsc, lif. -/
@[simp] theorem wakeReport_frame (s : State) :
    (wakeReport s).pins = s.pins
      ∧ (wakeReport s).ltr = s.ltr
      ∧ (wakeReport s).msu = s.msu
      ∧ (wakeReport s).ple = s.ple
      ∧ (wakeReport s).otu = s.otu
      ∧ (wakeReport s).fdp = s.fdp
      ∧ (wakeReport s).pfc = s.pfc
      ∧ (wakeReport s).srt = s.srt
      ∧ (wakeReport s).bdb = s.bdb
      ∧ (wakeReport s).lcp = s.lcp
      ∧ (wakeReport s).prq = s.prq
      ∧ (wakeReport s).free = s.free
      ∧ (wakeReport s).pending = s.pending := by unfold wakeReport; split <;> (try split) <;> simp

/-! ## The line, the gauge and the changeover -/

/-- `lineTo` changes no block but ltr, lif. -/
@[simp] theorem lineTo_frame (s : State) (l : LineState) (c : LineCause) :
    (lineTo l c s).pins = s.pins
      ∧ (lineTo l c s).msu = s.msu
      ∧ (lineTo l c s).ple = s.ple
      ∧ (lineTo l c s).otu = s.otu
      ∧ (lineTo l c s).fdp = s.fdp
      ∧ (lineTo l c s).pfc = s.pfc
      ∧ (lineTo l c s).tsc = s.tsc
      ∧ (lineTo l c s).srt = s.srt
      ∧ (lineTo l c s).bdb = s.bdb
      ∧ (lineTo l c s).lcp = s.lcp
      ∧ (lineTo l c s).prq = s.prq
      ∧ (lineTo l c s).free = s.free
      ∧ (lineTo l c s).pending = s.pending := by simp [lineTo]

/-- `gaugeCancel` changes no block but msu, lif. -/
@[simp] theorem gaugeCancel_frame (s : State) (c : GaugeCause) :
    (gaugeCancel c s).pins = s.pins
      ∧ (gaugeCancel c s).ltr = s.ltr
      ∧ (gaugeCancel c s).ple = s.ple
      ∧ (gaugeCancel c s).otu = s.otu
      ∧ (gaugeCancel c s).fdp = s.fdp
      ∧ (gaugeCancel c s).pfc = s.pfc
      ∧ (gaugeCancel c s).tsc = s.tsc
      ∧ (gaugeCancel c s).srt = s.srt
      ∧ (gaugeCancel c s).bdb = s.bdb
      ∧ (gaugeCancel c s).lcp = s.lcp
      ∧ (gaugeCancel c s).prq = s.prq
      ∧ (gaugeCancel c s).free = s.free
      ∧ (gaugeCancel c s).pending = s.pending := by unfold gaugeCancel; split <;> simp

/-- `profileTo` changes no block but pfc, lif. -/
@[simp] theorem profileTo_frame (s : State) (c : Changeover) (u : ProfileCause) :
    (profileTo c u s).pins = s.pins
      ∧ (profileTo c u s).ltr = s.ltr
      ∧ (profileTo c u s).msu = s.msu
      ∧ (profileTo c u s).ple = s.ple
      ∧ (profileTo c u s).otu = s.otu
      ∧ (profileTo c u s).fdp = s.fdp
      ∧ (profileTo c u s).tsc = s.tsc
      ∧ (profileTo c u s).srt = s.srt
      ∧ (profileTo c u s).bdb = s.bdb
      ∧ (profileTo c u s).lcp = s.lcp
      ∧ (profileTo c u s).prq = s.prq
      ∧ (profileTo c u s).free = s.free
      ∧ (profileTo c u s).pending = s.pending := by simp [profileTo]

/-- `endStopping` changes no block but ltr, tsc, lif. -/
@[simp] theorem endStopping_frame (s : State) :
    (endStopping s).pins = s.pins
      ∧ (endStopping s).msu = s.msu
      ∧ (endStopping s).ple = s.ple
      ∧ (endStopping s).otu = s.otu
      ∧ (endStopping s).fdp = s.fdp
      ∧ (endStopping s).pfc = s.pfc
      ∧ (endStopping s).srt = s.srt
      ∧ (endStopping s).bdb = s.bdb
      ∧ (endStopping s).lcp = s.lcp
      ∧ (endStopping s).prq = s.prq
      ∧ (endStopping s).free = s.free
      ∧ (endStopping s).pending = s.pending := by unfold endStopping; split <;> simp

/-! ## Renderings, closings and discharges (R131 to R143, R158) -/

/-- `renderStart` changes no block but lcp, prq. -/
@[simp] theorem renderStart_frame (s : State) (k : Nat) (m : Manifest) :
    (renderStart k m s).pins = s.pins
      ∧ (renderStart k m s).ltr = s.ltr
      ∧ (renderStart k m s).msu = s.msu
      ∧ (renderStart k m s).ple = s.ple
      ∧ (renderStart k m s).otu = s.otu
      ∧ (renderStart k m s).fdp = s.fdp
      ∧ (renderStart k m s).pfc = s.pfc
      ∧ (renderStart k m s).tsc = s.tsc
      ∧ (renderStart k m s).srt = s.srt
      ∧ (renderStart k m s).bdb = s.bdb
      ∧ (renderStart k m s).lif = s.lif
      ∧ (renderStart k m s).free = s.free
      ∧ (renderStart k m s).pending = s.pending := by simp [renderStart]

/-- `dischargeStart` changes no block but bdb. -/
@[simp] theorem dischargeStart_frame (s : State) (b : Nat) :
    (dischargeStart b s).pins = s.pins
      ∧ (dischargeStart b s).ltr = s.ltr
      ∧ (dischargeStart b s).msu = s.msu
      ∧ (dischargeStart b s).ple = s.ple
      ∧ (dischargeStart b s).otu = s.otu
      ∧ (dischargeStart b s).fdp = s.fdp
      ∧ (dischargeStart b s).pfc = s.pfc
      ∧ (dischargeStart b s).tsc = s.tsc
      ∧ (dischargeStart b s).srt = s.srt
      ∧ (dischargeStart b s).lcp = s.lcp
      ∧ (dischargeStart b s).prq = s.prq
      ∧ (dischargeStart b s).lif = s.lif
      ∧ (dischargeStart b s).free = s.free
      ∧ (dischargeStart b s).pending = s.pending := by unfold dischargeStart; dsimp only; split <;> simp

/-- `closeComplete` changes no block but bdb, lcp, prq, lif. -/
@[simp] theorem closeComplete_frame (s : State) (b k : Nat) :
    (closeComplete b k s).pins = s.pins
      ∧ (closeComplete b k s).ltr = s.ltr
      ∧ (closeComplete b k s).msu = s.msu
      ∧ (closeComplete b k s).ple = s.ple
      ∧ (closeComplete b k s).otu = s.otu
      ∧ (closeComplete b k s).fdp = s.fdp
      ∧ (closeComplete b k s).pfc = s.pfc
      ∧ (closeComplete b k s).tsc = s.tsc
      ∧ (closeComplete b k s).srt = s.srt
      ∧ (closeComplete b k s).free = s.free
      ∧ (closeComplete b k s).pending = s.pending := by simp [closeComplete]

/-- `attempts` changes no block but bdb, lcp, prq, lif. -/
@[simp] theorem attempts_frame (s : State) (n : Nat) :
    (attempts n s).pins = s.pins
      ∧ (attempts n s).ltr = s.ltr
      ∧ (attempts n s).msu = s.msu
      ∧ (attempts n s).ple = s.ple
      ∧ (attempts n s).otu = s.otu
      ∧ (attempts n s).fdp = s.fdp
      ∧ (attempts n s).pfc = s.pfc
      ∧ (attempts n s).tsc = s.tsc
      ∧ (attempts n s).srt = s.srt
      ∧ (attempts n s).free = s.free
      ∧ (attempts n s).pending = s.pending := by
  induction n generalizing s with
  | zero => simp [attempts]
  | succ n ih =>
    unfold attempts
    split
    · split
      · simp [ih]
      · simp
    · simp

/-- `attempt` changes no block but bdb, lcp, prq, lif. -/
@[simp] theorem attempt_frame (s : State) :
    (attempt s).pins = s.pins
      ∧ (attempt s).ltr = s.ltr
      ∧ (attempt s).msu = s.msu
      ∧ (attempt s).ple = s.ple
      ∧ (attempt s).otu = s.otu
      ∧ (attempt s).fdp = s.fdp
      ∧ (attempt s).pfc = s.pfc
      ∧ (attempt s).tsc = s.tsc
      ∧ (attempt s).srt = s.srt
      ∧ (attempt s).free = s.free
      ∧ (attempt s).pending = s.pending := by simp [attempt]

/-- `closingEntry` changes no block but bdb, lcp, prq, lif. -/
@[simp] theorem closingEntry_frame (s : State) (b : Nat) :
    (closingEntry b s).pins = s.pins
      ∧ (closingEntry b s).ltr = s.ltr
      ∧ (closingEntry b s).msu = s.msu
      ∧ (closingEntry b s).ple = s.ple
      ∧ (closingEntry b s).otu = s.otu
      ∧ (closingEntry b s).fdp = s.fdp
      ∧ (closingEntry b s).pfc = s.pfc
      ∧ (closingEntry b s).tsc = s.tsc
      ∧ (closingEntry b s).srt = s.srt
      ∧ (closingEntry b s).free = s.free
      ∧ (closingEntry b s).pending = s.pending := by simp [closingEntry]

/-- `settlePending` changes no block but bdb, lcp, prq, lif. -/
@[simp] theorem settlePending_frame (s : State) (b : Nat) :
    (settlePending b s).pins = s.pins
      ∧ (settlePending b s).ltr = s.ltr
      ∧ (settlePending b s).msu = s.msu
      ∧ (settlePending b s).ple = s.ple
      ∧ (settlePending b s).otu = s.otu
      ∧ (settlePending b s).fdp = s.fdp
      ∧ (settlePending b s).pfc = s.pfc
      ∧ (settlePending b s).tsc = s.tsc
      ∧ (settlePending b s).srt = s.srt
      ∧ (settlePending b s).free = s.free
      ∧ (settlePending b s).pending = s.pending := by unfold settlePending; split <;> simp

/-- `closeRequest` changes no block but bdb, lcp, prq, lif. -/
@[simp] theorem closeRequest_frame (s : State) (b : Nat) (r : CloseReason) :
    (closeRequest b r s).pins = s.pins
      ∧ (closeRequest b r s).ltr = s.ltr
      ∧ (closeRequest b r s).msu = s.msu
      ∧ (closeRequest b r s).ple = s.ple
      ∧ (closeRequest b r s).otu = s.otu
      ∧ (closeRequest b r s).fdp = s.fdp
      ∧ (closeRequest b r s).pfc = s.pfc
      ∧ (closeRequest b r s).tsc = s.tsc
      ∧ (closeRequest b r s).srt = s.srt
      ∧ (closeRequest b r s).free = s.free
      ∧ (closeRequest b r s).pending = s.pending := by unfold closeRequest; split <;> simp

/-- `profileClose` changes no block but bdb, lcp, prq, lif. -/
@[simp] theorem profileClose_frame (s : State) (b : Nat) :
    (profileClose s b).pins = s.pins
      ∧ (profileClose s b).ltr = s.ltr
      ∧ (profileClose s b).msu = s.msu
      ∧ (profileClose s b).ple = s.ple
      ∧ (profileClose s b).otu = s.otu
      ∧ (profileClose s b).fdp = s.fdp
      ∧ (profileClose s b).pfc = s.pfc
      ∧ (profileClose s b).tsc = s.tsc
      ∧ (profileClose s b).srt = s.srt
      ∧ (profileClose s b).free = s.free
      ∧ (profileClose s b).pending = s.pending := by unfold profileClose; split <;> simp

/-- Bundles closed for a changeover: what the whole pass over bins leaves alone (R90). -/
@[simp] theorem profileClose_foldl_frame (bs : List Nat) (s : State) :
    (bs.foldl profileClose s).pins = s.pins
      ∧ (bs.foldl profileClose s).ltr = s.ltr
      ∧ (bs.foldl profileClose s).msu = s.msu
      ∧ (bs.foldl profileClose s).ple = s.ple
      ∧ (bs.foldl profileClose s).otu = s.otu
      ∧ (bs.foldl profileClose s).fdp = s.fdp
      ∧ (bs.foldl profileClose s).pfc = s.pfc
      ∧ (bs.foldl profileClose s).tsc = s.tsc
      ∧ (bs.foldl profileClose s).srt = s.srt
      ∧ (bs.foldl profileClose s).free = s.free
      ∧ (bs.foldl profileClose s).pending = s.pending := by
  induction bs generalizing s with
  | nil => simp
  | cons b bs ih => simp [ih]

/-- `drainTest` changes no block but pfc, bdb, lcp, prq, lif. -/
@[simp] theorem drainTest_frame (s : State) :
    (drainTest s).pins = s.pins
      ∧ (drainTest s).ltr = s.ltr
      ∧ (drainTest s).msu = s.msu
      ∧ (drainTest s).ple = s.ple
      ∧ (drainTest s).otu = s.otu
      ∧ (drainTest s).fdp = s.fdp
      ∧ (drainTest s).tsc = s.tsc
      ∧ (drainTest s).srt = s.srt
      ∧ (drainTest s).free = s.free
      ∧ (drainTest s).pending = s.pending := by unfold drainTest; split <;> simp

/-- `afterPiece` changes no block but ltr, tsc, pfc, bdb, lcp, prq, lif. -/
@[simp] theorem afterPiece_frame (s : State) :
    (afterPiece s).pins = s.pins
      ∧ (afterPiece s).msu = s.msu
      ∧ (afterPiece s).ple = s.ple
      ∧ (afterPiece s).otu = s.otu
      ∧ (afterPiece s).fdp = s.fdp
      ∧ (afterPiece s).srt = s.srt
      ∧ (afterPiece s).free = s.free
      ∧ (afterPiece s).pending = s.pending := by simp [afterPiece]

/-- `afterStrip` changes no block but ltr, tsc, pfc, bdb, lcp, prq, lif. -/
@[simp] theorem afterStrip_frame (s : State) :
    (afterStrip s).pins = s.pins
      ∧ (afterStrip s).msu = s.msu
      ∧ (afterStrip s).ple = s.ple
      ∧ (afterStrip s).otu = s.otu
      ∧ (afterStrip s).fdp = s.fdp
      ∧ (afterStrip s).srt = s.srt
      ∧ (afterStrip s).free = s.free
      ∧ (afterStrip s).pending = s.pending := by simp [afterStrip]

/-! ## The Plan Engine (R48, R61, R62) -/

/-- `takeUp` changes no block but ltr, ple. -/
@[simp] theorem takeUp_frame (s : State) :
    (takeUp s).pins = s.pins
      ∧ (takeUp s).msu = s.msu
      ∧ (takeUp s).otu = s.otu
      ∧ (takeUp s).fdp = s.fdp
      ∧ (takeUp s).pfc = s.pfc
      ∧ (takeUp s).tsc = s.tsc
      ∧ (takeUp s).srt = s.srt
      ∧ (takeUp s).bdb = s.bdb
      ∧ (takeUp s).lcp = s.lcp
      ∧ (takeUp s).prq = s.prq
      ∧ (takeUp s).lif = s.lif
      ∧ (takeUp s).free = s.free
      ∧ (takeUp s).pending = s.pending := by unfold takeUp; split <;> simp

/-- `abandon` changes no block but ltr, ple. -/
@[simp] theorem abandon_frame (s : State) (t : Nat) :
    (abandon t s).pins = s.pins
      ∧ (abandon t s).msu = s.msu
      ∧ (abandon t s).otu = s.otu
      ∧ (abandon t s).fdp = s.fdp
      ∧ (abandon t s).pfc = s.pfc
      ∧ (abandon t s).tsc = s.tsc
      ∧ (abandon t s).srt = s.srt
      ∧ (abandon t s).bdb = s.bdb
      ∧ (abandon t s).lcp = s.lcp
      ∧ (abandon t s).prq = s.prq
      ∧ (abandon t s).lif = s.lif
      ∧ (abandon t s).free = s.free
      ∧ (abandon t s).pending = s.pending := by unfold abandon; split <;> simp

/-- `planLate` changes no block but ltr, ple, lif. -/
@[simp] theorem planLate_frame (s : State) (t : Nat) (r : UncutReason) (a : Bool) :
    (planLate t r a s).pins = s.pins
      ∧ (planLate t r a s).msu = s.msu
      ∧ (planLate t r a s).otu = s.otu
      ∧ (planLate t r a s).fdp = s.fdp
      ∧ (planLate t r a s).pfc = s.pfc
      ∧ (planLate t r a s).tsc = s.tsc
      ∧ (planLate t r a s).srt = s.srt
      ∧ (planLate t r a s).bdb = s.bdb
      ∧ (planLate t r a s).lcp = s.lcp
      ∧ (planLate t r a s).prq = s.prq
      ∧ (planLate t r a s).free = s.free
      ∧ (planLate t r a s).pending = s.pending := by simp [planLate]

/-! ## Strips and pieces -/

/-- `allocateStrip` changes no block but ltr. -/
@[simp] theorem allocateStrip_frame (s : State) (r : Strip) :
    (allocateStrip r s).pins = s.pins
      ∧ (allocateStrip r s).msu = s.msu
      ∧ (allocateStrip r s).ple = s.ple
      ∧ (allocateStrip r s).otu = s.otu
      ∧ (allocateStrip r s).fdp = s.fdp
      ∧ (allocateStrip r s).pfc = s.pfc
      ∧ (allocateStrip r s).tsc = s.tsc
      ∧ (allocateStrip r s).srt = s.srt
      ∧ (allocateStrip r s).bdb = s.bdb
      ∧ (allocateStrip r s).lcp = s.lcp
      ∧ (allocateStrip r s).prq = s.prq
      ∧ (allocateStrip r s).lif = s.lif
      ∧ (allocateStrip r s).free = s.free
      ∧ (allocateStrip r s).pending = s.pending := by simp [allocateStrip]

/-- `forgetStrip` changes no block but ltr, tsc. -/
@[simp] theorem forgetStrip_frame (s : State) (t : Nat) :
    (forgetStrip t s).pins = s.pins
      ∧ (forgetStrip t s).msu = s.msu
      ∧ (forgetStrip t s).ple = s.ple
      ∧ (forgetStrip t s).otu = s.otu
      ∧ (forgetStrip t s).fdp = s.fdp
      ∧ (forgetStrip t s).pfc = s.pfc
      ∧ (forgetStrip t s).srt = s.srt
      ∧ (forgetStrip t s).bdb = s.bdb
      ∧ (forgetStrip t s).lcp = s.lcp
      ∧ (forgetStrip t s).prq = s.prq
      ∧ (forgetStrip t s).lif = s.lif
      ∧ (forgetStrip t s).free = s.free
      ∧ (forgetStrip t s).pending = s.pending := by simp [forgetStrip]

/-- `dropPiece` changes no block but srt. -/
@[simp] theorem dropPiece_frame (s : State) (t i : Nat) :
    (dropPiece t i s).pins = s.pins
      ∧ (dropPiece t i s).ltr = s.ltr
      ∧ (dropPiece t i s).msu = s.msu
      ∧ (dropPiece t i s).ple = s.ple
      ∧ (dropPiece t i s).otu = s.otu
      ∧ (dropPiece t i s).fdp = s.fdp
      ∧ (dropPiece t i s).pfc = s.pfc
      ∧ (dropPiece t i s).tsc = s.tsc
      ∧ (dropPiece t i s).bdb = s.bdb
      ∧ (dropPiece t i s).lcp = s.lcp
      ∧ (dropPiece t i s).prq = s.prq
      ∧ (dropPiece t i s).lif = s.lif
      ∧ (dropPiece t i s).free = s.free
      ∧ (dropPiece t i s).pending = s.pending := by simp [dropPiece]

/-- `addBin0` changes no block but srt. -/
@[simp] theorem addBin0_frame (s : State) (n : Nat) :
    (addBin0 n s).pins = s.pins
      ∧ (addBin0 n s).ltr = s.ltr
      ∧ (addBin0 n s).msu = s.msu
      ∧ (addBin0 n s).ple = s.ple
      ∧ (addBin0 n s).otu = s.otu
      ∧ (addBin0 n s).fdp = s.fdp
      ∧ (addBin0 n s).pfc = s.pfc
      ∧ (addBin0 n s).tsc = s.tsc
      ∧ (addBin0 n s).bdb = s.bdb
      ∧ (addBin0 n s).lcp = s.lcp
      ∧ (addBin0 n s).prq = s.prq
      ∧ (addBin0 n s).lif = s.lif
      ∧ (addBin0 n s).free = s.free
      ∧ (addBin0 n s).pending = s.pending := by simp [addBin0]

/-- `enterPiece` changes no block but otu, srt, lif. -/
@[simp] theorem enterPiece_frame (s : State) (p : Piece) :
    (enterPiece p s).pins = s.pins
      ∧ (enterPiece p s).ltr = s.ltr
      ∧ (enterPiece p s).msu = s.msu
      ∧ (enterPiece p s).ple = s.ple
      ∧ (enterPiece p s).fdp = s.fdp
      ∧ (enterPiece p s).pfc = s.pfc
      ∧ (enterPiece p s).tsc = s.tsc
      ∧ (enterPiece p s).bdb = s.bdb
      ∧ (enterPiece p s).lcp = s.lcp
      ∧ (enterPiece p s).prq = s.prq
      ∧ (enterPiece p s).free = s.free
      ∧ (enterPiece p s).pending = s.pending := by unfold enterPiece; split <;> simp

/-- `markForced` changes no block but srt. -/
@[simp] theorem markForced_frame (s : State) (t : Nat) :
    (markForced t s).pins = s.pins
      ∧ (markForced t s).ltr = s.ltr
      ∧ (markForced t s).msu = s.msu
      ∧ (markForced t s).ple = s.ple
      ∧ (markForced t s).otu = s.otu
      ∧ (markForced t s).fdp = s.fdp
      ∧ (markForced t s).pfc = s.pfc
      ∧ (markForced t s).tsc = s.tsc
      ∧ (markForced t s).bdb = s.bdb
      ∧ (markForced t s).lcp = s.lcp
      ∧ (markForced t s).prq = s.prq
      ∧ (markForced t s).lif = s.lif
      ∧ (markForced t s).free = s.free
      ∧ (markForced t s).pending = s.pending := by simp [markForced]

/-- `countCreated` changes no block but tsc. -/
@[simp] theorem countCreated_frame (s : State) :
    (countCreated s).pins = s.pins
      ∧ (countCreated s).ltr = s.ltr
      ∧ (countCreated s).msu = s.msu
      ∧ (countCreated s).ple = s.ple
      ∧ (countCreated s).otu = s.otu
      ∧ (countCreated s).fdp = s.fdp
      ∧ (countCreated s).pfc = s.pfc
      ∧ (countCreated s).srt = s.srt
      ∧ (countCreated s).bdb = s.bdb
      ∧ (countCreated s).lcp = s.lcp
      ∧ (countCreated s).prq = s.prq
      ∧ (countCreated s).lif = s.lif
      ∧ (countCreated s).free = s.free
      ∧ (countCreated s).pending = s.pending := by simp [countCreated]

/-! ## Prints (R163 to R168) -/

/-- `printStart` changes no block but prq. -/
@[simp] theorem printStart_frame (s : State) (k : Nat) (r : List Nat) :
    (printStart k r s).pins = s.pins
      ∧ (printStart k r s).ltr = s.ltr
      ∧ (printStart k r s).msu = s.msu
      ∧ (printStart k r s).ple = s.ple
      ∧ (printStart k r s).otu = s.otu
      ∧ (printStart k r s).fdp = s.fdp
      ∧ (printStart k r s).pfc = s.pfc
      ∧ (printStart k r s).tsc = s.tsc
      ∧ (printStart k r s).srt = s.srt
      ∧ (printStart k r s).bdb = s.bdb
      ∧ (printStart k r s).lcp = s.lcp
      ∧ (printStart k r s).lif = s.lif
      ∧ (printStart k r s).free = s.free
      ∧ (printStart k r s).pending = s.pending := by simp [printStart]

/-- `startTest` changes no block but prq. -/
@[simp] theorem startTest_frame (s : State) :
    (startTest s).pins = s.pins
      ∧ (startTest s).ltr = s.ltr
      ∧ (startTest s).msu = s.msu
      ∧ (startTest s).ple = s.ple
      ∧ (startTest s).otu = s.otu
      ∧ (startTest s).fdp = s.fdp
      ∧ (startTest s).pfc = s.pfc
      ∧ (startTest s).tsc = s.tsc
      ∧ (startTest s).srt = s.srt
      ∧ (startTest s).bdb = s.bdb
      ∧ (startTest s).lcp = s.lcp
      ∧ (startTest s).lif = s.lif
      ∧ (startTest s).free = s.free
      ∧ (startTest s).pending = s.pending := by unfold startTest; split <;> (try split) <;> simp

/-- `printFail` changes no block but prq, lif. -/
@[simp] theorem printFail_frame (s : State) (c : PrintCause) :
    (printFail c s).pins = s.pins
      ∧ (printFail c s).ltr = s.ltr
      ∧ (printFail c s).msu = s.msu
      ∧ (printFail c s).ple = s.ple
      ∧ (printFail c s).otu = s.otu
      ∧ (printFail c s).fdp = s.fdp
      ∧ (printFail c s).pfc = s.pfc
      ∧ (printFail c s).tsc = s.tsc
      ∧ (printFail c s).srt = s.srt
      ∧ (printFail c s).bdb = s.bdb
      ∧ (printFail c s).lcp = s.lcp
      ∧ (printFail c s).free = s.free
      ∧ (printFail c s).pending = s.pending := by simp [printFail]

end Sys2Proof.Machine
end

