-- ==== Sys2Proof/Laws/Ops.lean ====
section
/-! SUPPORT. What each shared operation does, said once: tables, counters, positions, notices, requests. -/

namespace Sys2Proof.Machine

open Sys2Proof

/-! ## Tables numbered from 1 -/

/-- Entry k of a table whose entry k was changed. -/
theorem tabGet_tabMod_same {α : Type} {n : Nat} (v : Vector α n) (k : Nat) (f : α → α) :
    tabGet (tabMod v k f) k = (tabGet v k).map f := by
  unfold tabGet tabMod
  by_cases h0 : k = 0
  · simp [h0]
  · by_cases h : k - 1 < n
    · simp [h0, h]
    · simp [h0, h]

/-- Another entry is as it was. -/
theorem tabGet_tabMod_other {α : Type} {n : Nat} (v : Vector α n) (j k : Nat) (f : α → α) (h : j ≠ k) :
    tabGet (tabMod v k f) j = tabGet v j := by
  unfold tabGet tabMod
  by_cases hj : j = 0
  · simp [hj]
  · by_cases hk : k ≠ 0 ∧ k - 1 < n
    · have hne : k - 1 ≠ j - 1 := by omega
      simp [hj, hk, hne]
    · simp [hj, hk]

/-! ## Counters -/

/-- A diagnostic counter never passes 65,535. -/
theorem bump_le (n : Nat) : bump n ≤ 65535 := Nat.min_le_right _ _

/-- Below its stop a diagnostic counter counts up by 1. -/
theorem bump_eq (n : Nat) (h : n < 65535) : bump n = n + 1 := by unfold bump; omega

/-- The next tag is a tag. -/
theorem tagAfter_range (t : Nat) : 1 ≤ tagAfter t ∧ tagAfter t ≤ 65535 := by
  unfold tagAfter; split <;> omega

/-! ## Positions -/

/-- A counter has reached the position it stands at. -/
theorem reached_self (p : Pos) : reached p p = true := by simp [reached, signedDiff]

/-- A counter has not exceeded the position it stands at. -/
theorem exceeded_self (p : Pos) : exceeded p p = false := by simp [exceeded, signedDiff]

/-- A forward pulse and a reverse pulse of one scale cancel. -/
theorem pulse_reverse_forward (p : Pos) (n : Nat) : pulse (pulse p n .forward) n .reverse = p := by
  simp [pulse]

/-! ## Notices (R180, R181) -/

/-- A notice masked at its kind leaves no trace. -/
theorem raise_masked (l : Lif) (n : Notice) (h : l.masks.getLsbD n.code = false) : l.raise n = l := by
  simp [Lif.raise, h]

/-- An enabled notice finding room takes the next sequence number and joins the end of the queue. -/
theorem raise_queued (l : Lif) (n : Notice) (h : l.masks.getLsbD n.code = true)
    (hl : l.notices.length < 64) :
    l.raise n = { l with nextSeq := (l.nextSeq + 1) % 65536
                         notices := l.notices ++ [{ seq := l.nextSeq, notice := n }]
                         attention := true } := by
  simp [Lif.raise, h, Config.noticeCapacity, hl]

/-- An enabled notice finding 64 queued takes a sequence number and is discarded and counted. -/
theorem raise_overflow (l : Lif) (n : Notice) (h : l.masks.getLsbD n.code = true)
    (hl : 64 ≤ l.notices.length) :
    l.raise n = { l with nextSeq := (l.nextSeq + 1) % 65536
                         noticeOverflow := bump l.noticeOverflow } := by
  simp [Lif.raise, h, Config.noticeCapacity, Nat.not_lt.mpr hl]

/-- Raising a notice keeps the queue within 64. -/
theorem raise_length (l : Lif) (n : Notice) (h : l.notices.length ≤ 64) :
    (l.raise n).notices.length ≤ 64 := by
  unfold Lif.raise
  dsimp only
  split
  · split
    · next h2 => simp [Config.noticeCapacity] at h2 ⊢; omega
    · exact h
  · exact h

/-- Raising a notice keeps the attention output asserted exactly while a notice is queued. -/
theorem raise_attention (l : Lif) (n : Notice) (h : l.attention = !l.notices.isEmpty) :
    (l.raise n).attention = !(l.raise n).notices.isEmpty := by
  unfold Lif.raise
  dsimp only
  split
  · split <;> simp [h]
  · exact h

/-- Raising a notice leaves the pending reply, the announce queue and the date code alone. -/
@[simp] theorem raise_rest (l : Lif) (n : Notice) :
    (l.raise n).reply = l.reply ∧ (l.raise n).announceQueue = l.announceQueue
      ∧ (l.raise n).date = l.date ∧ (l.raise n).masks = l.masks := by
  unfold Lif.raise
  dsimp only
  split
  · split <;> simp
  · simp

/-- The raising of a notice, in the state, is the LIF's. -/
@[simp] theorem State.raise_lif (s : State) (n : Notice) : (s.raise n).lif = s.lif.raise n := rfl

/-! ## Requests (R173, R174) -/

/-- A request finding a reply pending is discarded. -/
theorem request_pending (k t : Byte) (o : State → Answer) (s : State) (r : Reply)
    (h : s.lif.reply = some r) : request k t o s = s.frameWhilePending r := by simp [request, h]

/-- A request taken: the owner's state, with the reply pending. -/
theorem request_taken (k t : Byte) (o : State → Answer) (s u : State) (d : List Byte)
    (h : s.lif.reply = none) (ho : o s = taken u d) :
    request k t o s = u.setReply k t .ok d false := by simp [request, h, ho, taken]

/-- A request refused: nothing but the pending reply changes. -/
theorem request_refused (k t : Byte) (o : State → Answer) (s : State) (c : ResultCode)
    (h : s.lif.reply = none) (ho : o s = .error c) :
    request k t o s = s.setReply k t c [] false := by simp [request, h, ho]

/-- A check that passes. -/
@[simp] theorem refuseIf_false (c : ResultCode) (a : Answer) : refuseIf false c a = a := rfl

/-- A check that fails. -/
@[simp] theorem refuseIf_true (c : ResultCode) (a : Answer) : refuseIf true c a = .error c := rfl

/-- Outside HALTED the check of R20 passes. -/
theorem refuseHalted_other (s : State) (a : Answer) (h : s.ltr.lineState ≠ .halted) :
    refuseHalted s a = a := by
  unfold refuseHalted
  rw [beq_false_of_ne h]
  rfl

/-- In HALTED the check of R20 refuses. -/
theorem refuseHalted_halted (s : State) (a : Answer) (h : s.ltr.lineState = .halted) :
    refuseHalted s a = .error .halted := by simp [refuseHalted, h]

/-- The pending reply written by `setReply`. -/
@[simp] theorem State.setReply_reply (s : State) (k t : Byte) (c : ResultCode) (d : List Byte) (a : Bool) :
    (s.setReply k t c d a).lif.reply
      = some { kind := k, tag := t, code := c, data := d, begun := false, resetAfter := a } := rfl

/-! ## Order lines (R74 to R77) -/

/-- A release of no line changes nothing. -/
@[simp] theorem release_none (n : Nat) (s : State) : release none n s = s := rfl

/-- A credit of no line changes nothing. -/
@[simp] theorem credit_none (n : Nat) (s : State) : credit none n s = s := rfl

/-! ## The queues -/

/-- The creation of a piece keeps the Piece Sort Queue within 64 (R114, R116). -/
theorem enterPiece_bounded (p : Piece) (s : State) (h : s.srt.pieces.length ≤ 64) :
    (enterPiece p s).srt.pieces.length ≤ 64 := by
  unfold enterPiece
  split
  · next h2 => simp [Config.pieceCapacity] at h2 ⊢; omega
  · simpa [addBin0] using h

/-- A length computed from two edges lies within 1 to 65,535 (R24). -/
theorem lengthOf_range (d c : Int) : 1 ≤ lengthOf d c ∧ lengthOf d c ≤ 65535 := by
  unfold lengthOf; omega

/-! ## Step -/

/-- With a command waiting, a step executes the first with the rest queued. -/
theorem step_command (s : State) (c : Instr) (rest : List Instr) :
    step (s.setPending (c :: rest)) = exec c (s.setPending rest) := rfl

/-- With none waiting, 1 ms passes. -/
theorem step_tick (s : State) (h : s.pending = []) : step s = .next (tick s) := by
  unfold step; rw [h]

end Sys2Proof.Machine
end

