-- ==== Sys2Proof/Laws/Closes.lean ====
section
/-! SUPPORT. What a close completion, an attempt at completion and a close request do (R131, R137 to R140), in the
words the statements use. -/

namespace Sys2Proof.Machine

open Sys2Proof

/-- Two states with equal blocks are equal. -/
theorem State.eq_of_blocks {s t : State} (h : s.pins = t.pins ∧ s.ltr = t.ltr ∧ s.msu = t.msu ∧ s.ple = t.ple
    ∧ s.otu = t.otu ∧ s.fdp = t.fdp ∧ s.pfc = t.pfc ∧ s.tsc = t.tsc ∧ s.srt = t.srt ∧ s.bdb = t.bdb
    ∧ s.lcp = t.lcp ∧ s.prq = t.prq ∧ s.lif = t.lif ∧ s.free = t.free ∧ s.pending = t.pending) : s = t := by
  cases s; cases t; simpa using h

/-- An entry that exists is that of a number from 1 to the table's length. -/
theorem tabGet_range {α : Type} {n : Nat} (v : Vector α n) (k : Nat) :
    (tabGet v k).isSome = true ↔ 1 ≤ k ∧ k ≤ n := by
  unfold tabGet
  by_cases h0 : k = 0
  · simp [h0]
  · simp [h0]; omega

/-- Bin j after a change of bin b: only bins 1 to 14 exist. -/
theorem binAt_modBin (s : State) (j b : Nat) (f : Bin → Bin) :
    binAt (s.modBin b f) j = if j = b ∧ 1 ≤ b ∧ b ≤ 14 then f (binAt s b) else binAt s j := by
  unfold binAt State.modBin
  rw [State.setBdb_bdb]
  by_cases hj : j = b
  · subst hj
    rw [tabGet_tabMod_same]
    by_cases hr : 1 ≤ j ∧ j ≤ 14
    · obtain ⟨x, hx⟩ := Option.isSome_iff_exists.mp ((tabGet_range s.bdb.bins j).mpr hr)
      simp [hx, hr]
    · have : tabGet s.bdb.bins j = none := by
        rw [← Option.not_isSome_iff_eq_none]; exact fun h => hr ((tabGet_range _ _).mp h)
      simp [this, hr]
  · rw [tabGet_tabMod_other _ _ _ _ hj, if_neg (fun h => hj h.1)]

/-- Slot j after a change of slot k: only slots 1 to 4 exist. -/
theorem slotAt_modSlot (s : State) (j k : Nat) (f : Slot → Slot) :
    slotAt (s.modSlot k f) j = if j = k ∧ 1 ≤ k ∧ k ≤ 4 then f (slotAt s k) else slotAt s j := by
  unfold slotAt State.modSlot
  rw [State.setPrq_prq]
  by_cases hj : j = k
  · subst hj
    rw [tabGet_tabMod_same]
    by_cases hr : 1 ≤ j ∧ j ≤ 4
    · obtain ⟨x, hx⟩ := Option.isSome_iff_exists.mp ((tabGet_range s.prq.slots j).mpr hr)
      simp [hx, hr]
    · have : tabGet s.prq.slots j = none := by
        rw [← Option.not_isSome_iff_eq_none]; exact fun h => hr ((tabGet_range _ _).mp h)
      simp [this, hr]
  · rw [tabGet_tabMod_other _ _ _ _ hj, if_neg (fun h => hj h.1)]

/-- A bin that is not DISABLED is one of bins 1 to 14. -/
theorem bin_exists (s : State) (b : Nat) (h : (binAt s b).state ≠ .disabled) : 1 ≤ b ∧ b ≤ 14 := by
  by_contra hr
  have : tabGet s.bdb.bins b = none := by
    rw [← Option.not_isSome_iff_eq_none]; exact fun h => hr ((tabGet_range _ _).mp h)
  exact h (by simp [binAt, this, Bin.initial])

/-! ## Close completions (R138 to R140) -/

/-- The manifest of a close completion (R140). -/
theorem manifestWritten_newManifest (s : State) (b : Nat) : s.manifestWritten b (newManifest s b) := by
  have hc : (newManifest s b).check = crc16 (newManifest s b).checkFields := by
    unfold newManifest
    generalize crc16 = f
    rfl
  refine ⟨rfl, rfl, rfl, rfl, rfl, rfl, rfl, rfl, rfl, rfl, rfl, rfl, rfl, fun r h => ?_, rfl, rfl, rfl, hc⟩
  simp [newManifest, h]

/-- The start of a discharge, bin by bin (R143). -/
theorem binAt_dischargeStart (s : State) (j b : Nat) (hb : 1 ≤ b ∧ b ≤ 14) :
    binAt (dischargeStart b s) j = if j = b ∧ (binAt s b).state = .waitCart ∧ tabGet s.pins.carts b = some true
        ∧ s.ltr.lineState ≠ .halted ∧ (binAt s b).discharge = none then
      { binAt s b with discharge := some (binAt s b).settings.dischargePulse } else binAt s j := by
  have hc : cartPresent s b = true ↔ tabGet s.pins.carts b = some true := by
    unfold cartPresent
    cases h : tabGet s.pins.carts b with
    | none => simp
    | some c => simp
  unfold dischargeStart
  dsimp only
  by_cases h : (binAt s b).state = .waitCart ∧ tabGet s.pins.carts b = some true
      ∧ s.ltr.lineState ≠ .halted ∧ (binAt s b).discharge = none
  · rw [if_pos (by
      simp only [Bool.and_eq_true, beq_iff_eq, bne_iff_ne, hc, Option.isNone_iff_eq_none]; tauto), binAt_modBin]
    by_cases hj : j = b
    · rw [if_pos ⟨hj, hb⟩, if_pos ⟨hj, h⟩]
    · rw [if_neg (fun e => hj e.1), if_neg (fun e => hj e.1)]
  · rw [if_neg (by
      simp only [Bool.and_eq_true, beq_iff_eq, bne_iff_ne, hc, Option.isNone_iff_eq_none]; tauto),
      if_neg (fun e => h e.2)]

/-- Bins that do not exist stay as they are. -/
theorem dischargeStart_outside (s : State) (b : Nat) (hb : ¬ (1 ≤ b ∧ b ≤ 14)) (j : Nat) :
    binAt (dischargeStart b s) j = binAt s j := by
  unfold dischargeStart
  dsimp only
  split
  · rw [binAt_modBin, if_neg (fun e => hb e.2)]
  · rfl

/-- The close completion of the first bin of the closing order (R139). -/
theorem completesClose_closeComplete (s : State) (b k : Nat) (rest : List Nat)
    (ho : s.bdb.closingOrder = b :: rest) (hk : 1 ≤ k ∧ k ≤ 4) : s.completesClose b k (closeComplete b k s) := by
  have hbins : ∀ j, binAt (closeComplete b k s) j
      = if j = b ∧ 1 ≤ b ∧ b ≤ 14 then { binAt s b with
          state := .waitCart
          discharge := if tabGet s.pins.carts b = some true ∧ s.ltr.lineState ≠ .halted
                          ∧ (binAt s b).discharge = none then some (binAt s b).settings.dischargePulse
                       else (binAt s b).discharge } else binAt s j := by
    intro j
    unfold closeComplete
    dsimp only
    generalize hu : (State.setBdb _ _) = u
    have hu' : ∀ j, binAt u j = binAt s j := by intro j; rw [← hu]; simp [binAt, renderStart]
    have hp : u.pins = s.pins := by rw [← hu]; simp
    have hl : u.ltr = s.ltr := by rw [← hu]; simp
    by_cases hb : 1 ≤ b ∧ b ≤ 14
    · rw [binAt_dischargeStart _ _ _ hb, binAt_modBin, binAt_modBin]
      simp only [hu', State.modBin_frame, hp, hl, hb, and_self, and_true, if_true, true_and]
      by_cases hj : j = b
      · simp only [hj, true_and, if_true]
        split <;> rfl
      · simp only [hj, false_and, if_false]
    · rw [dischargeStart_outside _ _ hb, binAt_modBin, if_neg (fun e => hb e.2), if_neg (fun e => hb e.2), hu']
  have hslots : ∀ j, slotAt (closeComplete b k s) j = if j = k then
      { slotAt s k with state := .rendering, bundle := some s.bdb.nextBundle, attempts := 0 } else slotAt s j := by
    intro j
    have e : (closeComplete b k s).prq = (s.modSlot k (fun x =>
        { x with state := .rendering, bundle := some (newManifest s b).number, attempts := 0 })).prq := by
      simp [closeComplete, renderStart, State.modSlot]
    have e' : slotAt (closeComplete b k s) j = slotAt (s.modSlot k (fun x =>
        { x with state := .rendering, bundle := some (newManifest s b).number, attempts := 0 })) j := by
      unfold slotAt; rw [e]
    rw [e', slotAt_modSlot]
    by_cases hj : j = k
    · rw [if_pos ⟨hj, hk⟩, if_pos hj]; rfl
    · rw [if_neg (fun e => hj e.1), if_neg hj]
  have hlcp : (closeComplete b k s).lcp = Lcp.takeUp { s.lcp with
      renderOrder := s.lcp.renderOrder ++ [renderRecord s k (newManifest s b)] } := by
    simp [closeComplete, renderStart, renderRecord]
  have hre : Lcp.takeUp { s.lcp with renderOrder := s.lcp.renderOrder ++ [renderRecord s k (newManifest s b)] }
      = { s.lcp with
          renderOrder := s.lcp.renderOrder ++ [renderRecord s k (newManifest s b)]
          engine := (Lcp.takeUp { s.lcp with
            renderOrder := s.lcp.renderOrder ++ [renderRecord s k (newManifest s b)] }).engine } := by
    unfold Lcp.takeUp
    split <;> rfl
  refine ⟨newManifest s b, renderRecord s k (newManifest s b), manifestWritten_newManifest s b, ?_,
    fun j hj => by rw [hbins, if_neg (fun e => hj e.1)],
    fun h1 h2 => ⟨_, by rw [hbins, if_pos ⟨rfl, h1, h2⟩], fun h => by simp [h]⟩,
    fun j hj => by rw [hslots, if_neg hj], by rw [hslots, if_pos rfl]; rfl, rfl, rfl, rfl, ?_, ?_, ?_, ?_, ?_⟩
  · have hbdb : (closeComplete b k s).bdb = { s.bdb with
        bins := (closeComplete b k s).bdb.bins, manifests := s.bdb.manifests ++ [newManifest s b]
        closingOrder := s.bdb.closingOrder.tail
        nextBundle := if s.bdb.nextBundle < 4294967295 then s.bdb.nextBundle + 1 else 1 } := by
      simp only [closeComplete, dischargeStart]
      split <;> simp [State.modBin, renderStart, ho, bundleAfter]
    have hprq : (closeComplete b k s).prq = { s.prq with slots := (closeComplete b k s).prq.slots } := by
      simp [closeComplete, renderStart, State.modSlot]
    have hlif : (closeComplete b k s).lif = s.lif.raise (.bundleClosed (newManifest s b).number b
        (newManifest s b).reason (newManifest s b).pieces (newManifest s b).lineal (newManifest s b).worst) := by
      simp [closeComplete, renderStart]
    exact State.eq_of_blocks ⟨by simp, by simp, by simp, by simp, by simp, by simp, by simp, by simp, by simp, hbdb,
      hlcp.trans (hre.trans (by rw [hlcp])), hprq, hlif, by simp, by simp⟩
  · intro row h1 h2
    have h0 : (newManifest s b).worst ≠ 0 := by omega
    simp [renderRecord, h0, h2]
  · intro p h; simp [renderRecord, h]
  · intro h
    unfold renderRecord
    dsimp only
    split
    · next p hp => exact absurd hp (h p)
    · exact ⟨rfl, rfl⟩
  · intro h; rw [hlcp]; obtain ⟨c, hc⟩ := Option.isSome_iff_exists.mp h; simp [Lcp.takeUp, hc]
  · intro h; rw [hlcp]
    cases ho : s.lcp.renderOrder <;> simp [Lcp.takeUp, h]

/-! ## Attempts at completion (R138) -/

/-- The lowest FREE slot (R139). -/
theorem freeSlot_some (s : State) (k : Nat) : freeSlot s = some k ↔
    1 ≤ k ∧ k ≤ 4 ∧ (slotAt s k).state = .free ∧ ∀ j, 1 ≤ j → j < k → (slotAt s j).state ≠ .free := by
  have hf : ∀ j, ((slotAt s j).state == .free) = true ↔ (slotAt s j).state = .free := fun j => beq_iff_eq
  unfold freeSlot slotNumbers
  rw [List.find?_eq_some_iff_getElem]
  simp only [Bool.not_eq_true', ← Bool.not_eq_true, hf, List.length_cons, List.length_nil]
  constructor
  · rintro ⟨h, i, hi, rfl, hl⟩
    have at_ : ∀ (j : Nat) (hj : j < 4), [1, 2, 3, 4][j]'(by simp; omega) = j + 1 := fun j hj => by
      interval_cases j <;> rfl
    rw [at_ i (by omega)] at h ⊢
    refine ⟨by omega, by omega, h, fun j h1 h2 => ?_⟩
    have := hl (j - 1) (by omega)
    rwa [at_ _ (by omega), Nat.sub_add_cancel h1] at this
  · rintro ⟨h1, h4, h, hl⟩
    refine ⟨h, k - 1, by omega, by interval_cases k <;> rfl, fun j hj => ?_⟩
    have : [1, 2, 3, 4][j]'(by simp; omega) = j + 1 := by
      have : j < 4 := by omega
      interval_cases j <;> rfl
    rw [this]; exact hl (j + 1) (by omega) (by omega)

/-- At most n close completions (R138). -/
theorem attempted_attempts (n : Nat) (s : State) : s.attempted n (attempts n s) := by
  induction n generalizing s with
  | zero => rfl
  | succ n ih =>
    refine ⟨fun h => ?_, fun b rest k ho hm hh h1 h4 hf hl => ?_⟩
    · unfold attempts
      split
      · next b rest k ho hk =>
        rw [freeSlot_some] at hk
        refine if_neg fun hr => ?_
        simp [closeResources, Config.manifestCapacity] at hr
        rcases h with h | h | h | h
        · rw [h] at ho; cases ho
        · have := of_decide_eq_true hr.1; omega
        · simp [h] at hr
        · exact h k hk.1 hk.2.1 hk.2.2.1
      · rfl
    · have hk : freeSlot s = some k := (freeSlot_some s k).mpr ⟨h1, h4, hf, hl⟩
      have hr : closeResources s = true := by simp [closeResources, Config.manifestCapacity, hm, hh]
      refine ⟨_, completesClose_closeComplete s b k rest ho ⟨h1, h4⟩, ?_⟩
      have : attempts (n + 1) s = attempts n (closeComplete b k s) := by simp [attempts, ho, hk, hr]
      rw [this]; exact ih _

/-- An attempt at completion (R138). -/
theorem closesWaiting_attempt (s : State) : s.closesWaiting (attempt s) := attempted_attempts _ s

/-! ## Close requests (R130, R131, R137) -/

/-- A bin in CLOSE_PENDING with nothing incoming passes to CLOSING (R130, R137). -/
theorem settles_settlePending (s : State) (b : Nat) : s.settles b (settlePending b s) := by
  unfold settlePending
  refine ⟨fun h h0 => ?_, fun h => if_neg ?_⟩
  · have hb := bin_exists s b (by rw [h]; simp)
    rw [if_pos (by simp [h, h0])]
    refine ⟨_, ?_, fun j hj => ?_, ?_, closesWaiting_attempt _⟩
    · exact State.eq_of_blocks (by simp [State.modBin])
    · exact (binAt_modBin s j b _).trans (if_neg (fun e => hj e.1))
    · exact (binAt_modBin s b b _).trans (if_pos ⟨rfl, hb⟩)
  · simp only [Bool.and_eq_true, beq_iff_eq]; tauto

/-- A close request (R131). -/
theorem requestsClose_closeRequest (s : State) (b : Nat) (r : CloseReason) :
    s.requestsClose b r (closeRequest b r s) := by
  unfold closeRequest
  refine ⟨fun h => ?_, fun h => if_neg (by simpa using h)⟩
  have hb := bin_exists s b (by rw [h]; simp)
  rw [if_pos (by simp [h])]
  refine ⟨_, ?_, fun j hj => ?_, ?_, settles_settlePending _ b⟩
  · exact State.eq_of_blocks (by simp [State.modBin])
  · exact (binAt_modBin s j b _).trans (if_neg (fun e => hj e.1))
  · exact (binAt_modBin s b b _).trans (if_pos ⟨rfl, hb⟩)

/-- The bundles closed for a changeover, bin by bin (R90). -/
theorem profileCloses_foldl (bs : List Nat) (s : State) : s.profileCloses bs (bs.foldl profileClose s) := by
  induction bs generalizing s with
  | nil => rfl
  | cons b bs ih =>
    refine ⟨profileClose s b, fun h h' => ?_, fun h => if_neg ?_, ih _⟩
    · have ha : (binAt s b).bundle.allocated = true := by simp [Bundle.allocated, h']
      rw [profileClose, if_pos (by simp [h, ha])]
      exact requestsClose_closeRequest s b .profile
    · simp only [Bool.and_eq_true, beq_iff_eq, Bundle.allocated, Bool.not_eq_true', List.isEmpty_eq_false_iff]
      tauto

end Sys2Proof.Machine
end

