-- ==== Sys2Proof/Laws/Removals.lean ====
section
/-! SUPPORT. What the shared operations of a removal do, in the words the statements use: releases of reservations,
the taking up of the next strip, and the three tests after a removal. -/

namespace Sys2Proof.Machine

open Sys2Proof

/-! ## The engine (R48 to R50) -/

/-- The factor table's entries are the factors of the lookup (R50, R56). -/
theorem factor_eq (n : Snapshot) (f : Nat → Nat → Nat) (gs cs g c : Nat)
    (h : n.factors = (List.range gs).map fun g => (List.range cs).map fun c => f (g + 1) (c + 1))
    (hg : 1 ≤ g ∧ g ≤ gs) (hc : 1 ≤ c ∧ c ≤ cs) : n.factor g c = f g c := by
  have h1 : g - 1 < gs := by omega
  have h2 : c - 1 < cs := by omega
  have e1 : g - 1 + 1 = g := by omega
  have e2 : c - 1 + 1 = c := by omega
  simp [Snapshot.factor, h, List.getD, h1, h2, e1, e2]

/-- The snapshot copies what R50 names. -/
theorem copies_snapshotOf (s : State) (r : Strip) : s.copies r (snapshotOf s r) := by
  refine ⟨rfl, rfl, rfl, rfl, rfl, fun p h => by simp [snapshotOf, h], fun g c hg1 hg2 hc1 hc2 => ?_⟩
  rw [factor_eq _ (fun g c => orderFactor s g c ((r.scan.map (·.colour)).getD 0)) _ _ g c rfl ⟨hg1, hg2⟩ ⟨hc1, hc2⟩]
  refine ⟨fun h => by simp [orderFactor, h], fun k h => ?_⟩
  have e : orderFactor s g c ((r.scan.map (·.colour)).getD 0)
      = if 0 < (lineAt s k).remaining then 100 else s.ple.options.overrunPct := by simp [orderFactor, h]
  rw [e]
  exact ⟨fun hp => if_pos hp, fun hp => if_neg (Int.not_lt.mpr hp)⟩

/-- An IDLE engine takes up the oldest eligible record (R48, R49). -/
theorem takesUp_takeUp (s : State) (h : s.ple.engine = none) : s.takesUp (takeUp s) := by
  have none_of : ∀ l : List Strip, (∀ x ∈ l, x.eligible = false) → l.filter Strip.eligible = [] :=
    fun l hl => List.filter_eq_nil_iff.mpr fun a ha => by simp [hl a ha]
  refine ⟨fun hx => by simp [takeUp, waitOrder, none_of _ hx], fun older younger r hs ho hr => ?_⟩
  have head : (waitOrder s).head? = some r := by
    simp [waitOrder, hs, List.filter_append, none_of _ ho, hr]
  exact ⟨_, copies_snapshotOf s r, by simp [takeUp, h, head, State.setPle, State.modStrip, State.setLtr]⟩

/-- A BUSY engine takes nothing up (R49). -/
theorem takeUp_busy (s : State) (h : s.ple.engine.isSome = true) : takeUp s = s := by
  obtain ⟨c, hc⟩ := Option.isSome_iff_exists.mp h
  simp [takeUp, hc]

/-- An abandonment of another strip's computation does nothing (R61, R62). -/
theorem abandon_other (tag : Nat) (s : State) (h : ∀ c, s.ple.engine = some c → c.tag ≠ tag) :
    abandon tag s = s := by
  unfold abandon
  cases he : s.ple.engine with
  | none => simp
  | some c => simp [h c he]

/-- An abandoned computation leaves the engine IDLE, which takes up the next eligible record (R61, R62). -/
theorem takesUp_abandon (tag : Nat) (s : State) (c : Computation) (he : s.ple.engine = some c) (hc : c.tag = tag) :
    { s with ple := { s.ple with engine := none } }.takesUp (abandon tag s) := by
  have : abandon tag s = takeUp { s with ple := { s.ple with engine := none } } := by
    simp [abandon, he, hc, State.setPle]
  rw [this]
  exact takesUp_takeUp _ rfl

/-! ## After a removal (R18, R106, R90) -/

/-- The end of STOPPING (R18). -/
theorem stopsWhenEmpty_endStopping (s : State) : s.stopsWhenEmpty (endStopping s) := by
  refine ⟨fun h he => ?_, fun h => ?_⟩
  · have hb : bothEmpty s = true := by simp [bothEmpty, he.1, he.2]
    by_cases hc : s.tsc.cutter = .off <;>
      simp [endStopping, h, hb, cutterOff, lineTo, cutterTo, hc, State.setLtr, State.setTsc, State.raise,
        State.setLif, Tsc.switchedOff, Cutter.driven]
  · refine if_neg fun hb => ?_
    simp only [bothEmpty, Bool.and_eq_true, beq_iff_eq, List.isEmpty_iff] at hb
    exact h.elim (fun h => h hb.1) (fun h => h hb.2)

/-- The test of the idle condition (R106). -/
theorem idlesWhenEmpty_idleTest (s : State) : s.idlesWhenEmpty (idleTest s) := by
  refine ⟨fun h h1 h2 h3 => by
    simp [idleTest, idle, h, h1, h2, h3, cutterTo, State.setTsc, State.raise, State.setLif, Cutter.driven],
    fun h => if_neg fun hb => ?_⟩
  simp only [idle, Bool.and_eq_true, beq_iff_eq, List.isEmpty_iff, Bool.not_eq_true', decide_eq_true_eq] at hb
  obtain ⟨⟨h1, h2, h3⟩, h4⟩ := hb
  rcases h with h | h | h | h
  · exact h h1
  · exact h h2
  · simp [h3] at h
  · omega

/-- With nothing to close the closes for a changeover do nothing (R90). -/
theorem profileClose_nothing (s : State) (h : s.nothingOpen) (bs : List Nat) : bs.foldl profileClose s = s := by
  have one : ∀ b, profileClose s b = s := fun b => if_neg fun hb => by
    simp only [Bool.and_eq_true, beq_iff_eq, Bundle.allocated, Bool.not_eq_true'] at hb
    have := h b hb.1
    simp [this] at hb
  induction bs with
  | nil => rfl
  | cons b bs ih => rw [List.foldl_cons, one b, ih]

/-- The tooling limit of the target, in ms (R90, R93). -/
theorem toolingMs_of (s : State) (n : Nat) (x : ProfileSet) (h : tabGet s.pfc.sets n = some (some x)) :
    toolingMs s (some n) = x.toolingLimit * 1000 := by simp [toolingMs, h]

/-- The drain test (R90). -/
theorem toolsWhenEmpty_drainTest (s : State) : s.toolsWhenEmpty (drainTest s) := by
  refine ⟨fun h he => ?_, fun h => if_neg fun hb => ?_⟩
  · have hb : bothEmpty s = true := by simp [bothEmpty, he.1, he.2]
    have e : drainTest s = profileTo .tooling .drained
        ((binNumbers.foldl profileClose s).setPfc
          { s.pfc with toolingRequest := true, timer := some (toolingMs s s.pfc.target) }) := by
      have ht : toolingMs (binNumbers.foldl profileClose s) s.pfc.target = toolingMs s s.pfc.target := by
        simp [toolingMs]
      simp [drainTest, h, hb, ht]
    have ep : (drainTest s).pfc = { s.pfc with changeover := .tooling, toolingRequest := true
                                               timer := some (toolingMs s s.pfc.target) } := by
      rw [e]; simp [profileTo]
    refine ⟨⟨by rw [ep], fun n x hn hx => by rw [ep]; simp [hn, toolingMs_of s n x hx]⟩,
      State.eq_of_blocks (by simp), ⟨_, profileCloses_foldl binNumbers s, ?_⟩, fun hno => ?_⟩
    · rw [ep, e]
      exact State.eq_of_blocks (by simp [profileTo, h])
    rw [ep, e, profileClose_nothing s hno]
    simp [profileTo, h, State.setPfc, State.raise, State.setLif]
  · simp only [bothEmpty, Bool.and_eq_true, beq_iff_eq, List.isEmpty_iff] at hb
    exact h.elim (fun h => h hb.1) (fun h => h hb.2)

/-- What follows the removal of a strip record (R18, R106, R90). -/
theorem afterRemoval_afterStrip (s : State) : s.afterRemoval (afterStrip s) :=
  ⟨_, _, stopsWhenEmpty_endStopping s, idlesWhenEmpty_idleTest _, toolsWhenEmpty_drainTest _⟩

/-- What follows the landing or removal of a piece (R18, R90). -/
theorem afterPieceRemoval_afterPiece (s : State) : s.afterPieceRemoval (afterPiece s) :=
  ⟨_, stopsWhenEmpty_endStopping s, toolsWhenEmpty_drainTest _⟩

/-! ## Releases (R74, R77) -/

/-- What one more release takes from a number. -/
theorem takenFrom_append (k : Nat) (rs : List (Nat × Nat)) (r : Nat × Nat) :
    takenFrom k (rs ++ [r]) = takenFrom k rs + if r.1 = k then r.2 else 0 := by
  by_cases h : r.1 = k <;> simp [takenFrom, h]

/-- One more release empties at most its own number. -/
theorem emptied_append (w : Nat → Bool) (held : Nat → Nat) (rs : List (Nat × Nat)) (r : Nat × Nat) :
    emptied w held (rs ++ [r]) = emptied w held rs ++
      if w r.1 = true ∧ held r.1 ≤ takenFrom r.1 rs + r.2
          ∧ (r.1 ∈ rs.map (·.1) → takenFrom r.1 rs < held r.1) then [r.1] else [] := by
  have old : ∀ i ∈ List.range rs.length, ((rs ++ [r])[i]?).bind (fun x =>
        if w x.1 = true ∧ held x.1 ≤ takenFrom x.1 ((rs ++ [r]).take (i + 1))
          ∧ (x.1 ∈ ((rs ++ [r]).take i).map (·.1) → takenFrom x.1 ((rs ++ [r]).take i) < held x.1)
          then some x.1 else none)
      = (rs[i]?).bind (fun x =>
        if w x.1 = true ∧ held x.1 ≤ takenFrom x.1 (rs.take (i + 1))
          ∧ (x.1 ∈ (rs.take i).map (·.1) → takenFrom x.1 (rs.take i) < held x.1) then some x.1 else none) := by
    intro i hi
    have hi : i < rs.length := List.mem_range.mp hi
    rw [List.getElem?_append_left hi, List.take_append_of_le_length (by omega),
      List.take_append_of_le_length (by omega)]
  have new : (rs ++ [r]).take (rs.length + 1) = rs ++ [r] := List.take_of_length_le (by simp)
  unfold emptied
  rw [List.length_append, List.length_singleton, List.range_succ, List.filterMap_append,
    List.filterMap_congr old]
  congr 1
  simp only [List.filterMap_cons, List.filterMap_nil, List.getElem?_concat_length, Option.bind_some, new,
    List.take_left, takenFrom_append, if_true]
  by_cases h : w r.1 = true ∧ held r.1 ≤ takenFrom r.1 rs + r.2 ∧ (r.1 ∈ rs.map (·.1) → takenFrom r.1 rs < held r.1)
  · rw [if_pos h, if_pos h]
  · rw [if_neg h, if_neg h]

/-- Order line k after a change of line k, and every other line as it was; only lines 1 to 32 exist. -/
theorem lineAt_modLine (s : State) (j k : Nat) (f : OrderLine → OrderLine) :
    lineAt (s.modLine k f) j = if j = k ∧ 1 ≤ k ∧ k ≤ 32 then f (lineAt s k) else lineAt s j := by
  unfold lineAt State.modLine
  by_cases hj : j = k
  · subst hj
    rw [State.setOtu_otu, tabGet_tabMod_same]
    unfold tabGet
    by_cases hk : 1 ≤ j ∧ j ≤ 32
    · simp [hk, show j ≠ 0 by omega, show j - 1 < 32 by omega]
    · by_cases h0 : j = 0
      · simp [h0]
      · simp [h0, hk, show ¬ j - 1 < 32 by omega]
  · rw [State.setOtu_otu, tabGet_tabMod_other _ _ _ _ hj, if_neg (fun h => hj h.1)]

/-- A line that does not exist reads as a line after reset. -/
theorem lineAt_outside (s : State) (k : Nat) (h : ¬ (1 ≤ k ∧ k ≤ 32)) : lineAt s k = .initial := by
  unfold lineAt tabGet
  by_cases h0 : k = 0
  · simp [h0]
  · simp [h0, show 32 ≤ k - 1 by omega]

/-- A release of another line changes nothing of line k. -/
theorem released_other (l : OrderLine) (k : Nat) (rs : List (Nat × Nat)) (r : Nat × Nat) (h : r.1 ≠ k) :
    l.released k (rs ++ [r]) = l.released k rs := by
  have : k ≠ r.1 := Ne.symm h
  simp only [OrderLine.released, takenFrom_append, List.map_append, List.mem_append, List.map_cons, List.map_nil,
    List.mem_singleton, h, this, or_false, if_false, Nat.add_zero]

/-- Releases of line k one after another. -/
theorem released_append (l : OrderLine) (rs : List (Nat × Nat)) (r : Nat × Nat) :
    l.released r.1 (rs ++ [r]) = (l.released r.1 rs).released r.1 [r] := by
  have e : takenFrom r.1 [r] = r.2 := by simp [takenFrom]
  unfold OrderLine.released
  rw [takenFrom_append, e, if_pos rfl]
  congr 1
  · by_cases hd : l.state = .draining
    · by_cases hm : r.1 ∈ rs.map (·.1) ∧ l.reserved ≤ takenFrom r.1 rs
      · rw [if_pos ⟨hd, by simp, by omega⟩]; simp [hd, hm]
      · by_cases hn : l.reserved ≤ takenFrom r.1 rs + r.2
        · rw [if_pos ⟨hd, by simp, hn⟩]; simp only [hd, hm, true_and, if_false]
          rw [if_pos ⟨by simp, by omega⟩]
        · rw [if_neg (fun h => hn h.2.2)]; simp only [hd, hm, true_and, if_false]
          rw [if_neg (fun h => hn (by omega))]
    · simp [hd]
  · simp only; omega

/-- One release (R74, R77): the line's account, and ORDER_DONE where it empties a DRAINING line. -/
theorem release_spec (k n : Nat) (s : State) :
    (∀ j, lineAt (release (some k) n s) j
        = if j = k then (lineAt s k).released k [(k, n)] else lineAt s j)
      ∧ (release (some k) n s).lif
        = if (lineAt s k).state = .draining ∧ (lineAt s k).reserved ≤ n then
            s.lif.raise (orderDone k (lineAt s k)) else s.lif := by
  have e : takenFrom k [(k, n)] = n := by simp [takenFrom]
  have hmod := fun (f : OrderLine → OrderLine) (s : State) j => lineAt_modLine s j k f
  by_cases hk : 1 ≤ k ∧ k ≤ 32
  · have hself : lineAt (s.modLine k (fun l => { l with reserved := l.reserved - n })) k
        = { lineAt s k with reserved := (lineAt s k).reserved - n } := by rw [hmod, if_pos ⟨rfl, hk⟩]
    simp only [release, drainLine, hself]
    by_cases hc : (lineAt s k).state = .draining ∧ (lineAt s k).reserved ≤ n
    · rw [if_pos (by simp only [hc.1, Bool.and_eq_true, beq_iff_eq]; exact ⟨trivial, by omega⟩), if_pos hc]
      refine ⟨fun j => ?_, by simp [State.raise, orderDone]⟩
      change lineAt (State.modLine (s.modLine k _) k _) j = _
      rw [hmod, hself, hmod]
      by_cases hj : j = k
      · rw [if_pos ⟨hj, hk⟩, if_pos hj]; simp [OrderLine.released, e, hc]
      · rw [if_neg (fun h => hj h.1), if_neg (fun h => hj h.1), if_neg hj]
    · rw [if_neg (by
        simp only [Bool.and_eq_true, beq_iff_eq]; exact fun h => hc ⟨h.1, by omega⟩), if_neg hc]
      refine ⟨fun j => ?_, rfl⟩
      rw [hmod]
      by_cases hj : j = k
      · rw [if_pos ⟨hj, hk⟩, if_pos hj]
        unfold OrderLine.released
        rw [e, if_neg (fun h => hc ⟨h.1, h.2.2⟩)]
      · rw [if_neg (fun h => hj h.1), if_neg hj]
  · have h0 := lineAt_outside s k hk
    have hsame : ∀ j, lineAt (s.modLine k (fun l => { l with reserved := l.reserved - n })) j = lineAt s j :=
      fun j => by rw [hmod, if_neg (fun h => hk h.2)]
    simp only [release, drainLine, hsame, h0]
    rw [if_neg (by simp [OrderLine.initial]), if_neg (by simp [OrderLine.initial])]
    refine ⟨fun j => ?_, rfl⟩
    rw [hsame]
    by_cases hj : j = k
    · subst hj; rw [if_pos rfl, h0]; simp [OrderLine.released, OrderLine.initial]
    · rw [if_neg hj]

/-- Releases taken in order. -/
def releaseAll (rs : List (Nat × Nat)) (s : State) : State :=
  rs.foldl (fun s r => release (some r.1) r.2 s) s

/-- Releases change the order lines and queue notices, and nothing else. -/
theorem releaseAll_frame (rs : List (Nat × Nat)) (s : State) :
    releaseAll rs s = { s with otu := (releaseAll rs s).otu, lif := (releaseAll rs s).lif } := by
  refine State.eq_of_blocks ?_
  induction rs generalizing s with
  | nil => simp [releaseAll]
  | cons r rs ih => simpa [releaseAll] using ih (release (some r.1) r.2 s)

/-- Releases taken in order: what they leave of every order line, and the notices they queue (R74, R77). -/
theorem releaseAll_spec (rs : List (Nat × Nat)) (s : State) :
    (∀ k, lineAt (releaseAll rs s) k = (lineAt s k).released k rs)
      ∧ (releaseAll rs s).lif = (s.ordersDone rs).foldl Lif.raise s.lif := by
  induction rs using List.reverseRecOn with
  | nil => simp [releaseAll, OrderLine.released, takenFrom, State.ordersDone, emptied]
  | append_singleton rs r ih =>
    have e : releaseAll (rs ++ [r]) s = release (some r.1) r.2 (releaseAll rs s) := by simp [releaseAll]
    obtain ⟨hl, hn⟩ := release_spec r.1 r.2 (releaseAll rs s)
    rw [e]
    refine ⟨fun k => ?_, ?_⟩
    · rw [hl k]
      by_cases hk : k = r.1
      · rw [if_pos hk, ih.1, hk, released_append]
      · rw [if_neg hk, ih.1, released_other _ _ _ _ (Ne.symm hk)]
    · rw [hn, ih.1, ih.2]
      unfold State.ordersDone
      rw [emptied_append, List.map_append, List.foldl_append]
      have iff_ : ((OrderLine.released (lineAt s r.1) r.1 rs).state = .draining
            ∧ (OrderLine.released (lineAt s r.1) r.1 rs).reserved ≤ r.2)
          ↔ (((lineAt s r.1).state == .draining) = true ∧ (lineAt s r.1).reserved ≤ takenFrom r.1 rs + r.2
            ∧ (r.1 ∈ rs.map (·.1) → takenFrom r.1 rs < (lineAt s r.1).reserved)) := by
        unfold OrderLine.released
        by_cases hd : (lineAt s r.1).state = .draining
        · by_cases hm : r.1 ∈ rs.map (·.1) ∧ (lineAt s r.1).reserved ≤ takenFrom r.1 rs
          · rw [if_pos ⟨hd, hm⟩]
            refine ⟨fun h => by simp at h, fun h => absurd (h.2.2 hm.1) (by omega)⟩
          · rw [if_neg (fun h => hm h.2)]
            refine ⟨fun h => ⟨by simp [hd], ?_, fun a => ?_⟩, fun h => ⟨hd, ?_⟩⟩
            · have := h.2; simp only at this; omega
            · by_contra hlt; exact hm ⟨a, by omega⟩
            · simp only; have := h.2.1; omega
        · simp [hd]
      by_cases hc : ((OrderLine.released (lineAt s r.1) r.1 rs).state = .draining
            ∧ (OrderLine.released (lineAt s r.1) r.1 rs).reserved ≤ r.2)
      · rw [if_pos hc, if_pos (iff_.mp hc)]; simp [orderDone, OrderLine.released]
      · rw [if_neg hc, if_neg (fun h => hc (iff_.mpr h))]; simp

/-- The release of a record's plan is the release of its reservations (R74). -/
theorem releasePlan_eq (r : Strip) (s : State) : releasePlan r s = releaseAll r.reservations s := by
  unfold releasePlan Strip.reservations releaseAll
  by_cases h : r.status = .ready
  · simp only [h, beq_self_eq_true, if_true]
    generalize r.plan.getD [] = ps
    induction ps generalizing s with
    | nil => rfl
    | cons p ps ih =>
      rw [List.foldl_cons, ih]
      cases hc : p.created <;> cases hl : p.line <;> simp [hc, hl, release]
  · simp [h]

/-! ## The lines of a plan's pieces (R60, R72) -/

/-- The lookup reads order lines 1 to 32 and nothing else. -/
theorem lookup_congr (s t : State) (g c colour : Nat) (h : ∀ k, 1 ≤ k → k ≤ 32 → lineAt s k = lineAt t k) :
    lookup s g c colour = lookup t g c colour := by
  have same : ∀ p : OrderLine → Bool, lineNumbers.find? (fun k => p (lineAt s k))
      = lineNumbers.find? (fun k => p (lineAt t k)) := fun p => by
    apply List.find?_congr
    intro k hk
    simp only [lineNumbers, List.mem_map, List.mem_range] at hk
    obtain ⟨i, hi, rfl⟩ := hk
    rw [h (i + 1) (by omega) (by omega)]
  unfold lookup
  rw [same (fun l => l.fits g c colour && decide (0 < l.remaining)), same (fun l => l.fits g c colour)]

/-- Reservations of the pieces of a list on line k. -/
def reservedBy (k : Nat) (ps : List PlannedPiece) : Nat := ((ps.filter (fun p => p.line = some k)).map (·.net)).sum

theorem reservedBy_cons (k : Nat) (p : PlannedPiece) (ps : List PlannedPiece) :
    reservedBy k (p :: ps) = (if p.line = some k then p.net else 0) + reservedBy k ps := by
  by_cases h : p.line = some k <;> simp [reservedBy, h]

theorem lineAt_reserve (s : State) (line : Option Nat) (n k : Nat) (hk : 1 ≤ k ∧ k ≤ 32) :
    lineAt (reserve line n s) k
      = { lineAt s k with reserved := (lineAt s k).reserved + if line = some k then n else 0 } := by
  cases line with
  | none => simp [reserve]
  | some j =>
    rw [reserve, lineAt_modLine]
    by_cases h : k = j
    · subst h; simp [hk]
    · simp [h, Ne.symm h]

/-- The pieces of a plan given their order lines one after another: the pieces are otherwise the plan's, each has
the line of the lookup with the reservations of those before it added, and every line's reserved grows by the
lengths of the pieces given it (R60, R72). -/
theorem reservePieces_spec (colour : Nat) (ps : List PlannedPiece) (s : State) :
    (reservePieces colour ps s).2.map (fun p => { p with line := none }) = ps.map (fun p => { p with line := none })
      ∧ (∀ i p, (reservePieces colour ps s).2[i]? = some p → ∀ w : State,
          (∀ k, 1 ≤ k → k ≤ 32 → lineAt w k = { lineAt s k with
              reserved := (lineAt s k).reserved + reservedBy k ((reservePieces colour ps s).2.take i) }) →
          p.line = lookup w p.grade p.cls colour)
      ∧ (∀ k, 1 ≤ k → k ≤ 32 → lineAt (reservePieces colour ps s).1 k = { lineAt s k with
          reserved := (lineAt s k).reserved + reservedBy k (reservePieces colour ps s).2 })
      ∧ (reservePieces colour ps s).1 = { s with otu := (reservePieces colour ps s).1.otu } := by
  induction ps generalizing s with
  | nil => simp [reservePieces, reservedBy]
  | cons p ps ih =>
    have hline := lineAt_reserve s (lookup s p.grade p.cls colour) p.net
    obtain ⟨h1, h2, h3, h4⟩ := ih (reserve (lookup s p.grade p.cls colour) p.net s)
    refine ⟨by simp [reservePieces, h1], fun i q hq w hw => ?_, fun k ha hb => ?_, ?_⟩
    · cases i with
      | zero =>
        simp only [reservePieces, List.getElem?_cons_zero, Option.some.injEq] at hq
        subst hq
        refine lookup_congr s w _ _ _ (fun k ha hb => ?_)
        rw [hw k ha hb]; simp [reservedBy]
      | succ i =>
        simp only [reservePieces, List.getElem?_cons_succ] at hq
        refine h2 i q hq w (fun k ha hb => ?_)
        rw [hw k ha hb, hline k ⟨ha, hb⟩]
        simp only [reservePieces, List.take_succ_cons, reservedBy_cons, Nat.add_assoc]
    · simp only [reservePieces]
      rw [h3 k ha hb, hline k ⟨ha, hb⟩]
      simp only [reservedBy_cons, Nat.add_assoc]
    · simp only [reservePieces]
      rw [h4]
      exact State.eq_of_blocks (by simp)

end Sys2Proof.Machine
end

