-- ==== Sys2Proof/Laws/Events.lean ====
section
/-! SUPPORT. What the operations behind slots, cuts, pieces and landings do, in the words the statements use. -/

namespace Sys2Proof.Machine

open Sys2Proof

/-! ## Releases of one piece (R74, R77) -/

/-- The release of a piece's reservation. -/
theorem release_piece (p : Piece) (s : State) : release p.line p.net s = releaseAll p.reservations s := by
  cases h : p.line <;> simp [Piece.reservations, releaseAll, h]

/-- What the release of a piece's reservation leaves: the lines and the notices. -/
theorem release_piece_spec (p : Piece) (s : State) :
    release p.line p.net s = { s with
        otu := (release p.line p.net s).otu, lif := (s.ordersDone p.reservations).foldl Lif.raise s.lif }
      ∧ ∀ k, lineAt (release p.line p.net s) k = (lineAt s k).released k p.reservations := by
  rw [release_piece]
  refine ⟨?_, (releaseAll_spec p.reservations s).1⟩
  rw [← (releaseAll_spec p.reservations s).2]
  exact releaseAll_frame p.reservations s

/-! ## Strip records (R12, R14, R102) -/

/-- A strip record's removal. -/
theorem removesStrip_removeStrip (r : Strip) (s : State) : s.removesStrip r (removeStrip r s) := by
  have hs := (releaseAll_spec r.reservations (forgetStrip r.tag s)).2
  have hf := releaseAll_frame r.reservations (forgetStrip r.tag s)
  have hl : (releaseAll r.reservations (forgetStrip r.tag s)).ltr = (forgetStrip r.tag s).ltr := by rw [hf]
  have hp : (releaseAll r.reservations (forgetStrip r.tag s)).ple = s.ple := by rw [hf]; rfl
  refine ⟨releaseAll r.reservations (forgetStrip r.tag s),
    abandon r.tag (releaseAll r.reservations (forgetStrip r.tag s)), ?_, fun e => ?_, fun k => ?_, fun h => ?_,
    fun c h hc => ?_, ?_⟩
  · refine hf.trans ?_
    rw [hs, hl]
    simp only [forgetStrip, State.setLtr, State.setTsc, ne_eq, decide_not]
    rfl
  · rw [hl]
    have hd : ∀ h : Option Nat, dropHolder r.tag h = if h = some r.tag then none else h := fun h => by
      by_cases hh : h = some r.tag <;> simp [dropHolder, hh]
    cases e <;> exact hd _
  · exact (releaseAll_spec r.reservations _).1 k
  · exact abandon_other _ _ (by rw [hp]; exact h)
  · exact takesUp_abandon _ _ c (by rw [hp]; exact h) hc
  · have : removeStrip r s = afterStrip (abandon r.tag (releaseAll r.reservations (forgetStrip r.tag s))) := by
      rw [removeStrip, releasePlan_eq]
    rw [this]; exact afterRemoval_afterStrip _

/-- The test of a strip's end at the saw (R102). -/
theorem doneAtSaw_doneTest (s : State) (tag : Nat) (c : CutList) (r : Strip) (hc : cutListOf s tag = some c)
    (hr : stripOf s tag = some r) : s.doneAtSaw tag (doneTest tag s) := by
  refine ⟨c, r, hc, hr, fun h1 h2 => ?_, fun h => ?_⟩
  · have : c.anyPending = false := by
      simp only [CutList.anyPending, List.any_eq_false, beq_iff_eq]; exact h2
    simp only [doneTest, hc, hr, h1, this]
    exact removesStrip_removeStrip r s
  · simp only [doneTest, hc, hr]
    refine if_neg ?_
    simp only [CutList.anyPending, Bool.and_eq_true, Bool.not_eq_true', List.any_eq_false, beq_iff_eq]
    rintro ⟨h1, h2⟩
    rcases h with h | ⟨k, hk, hp⟩
    · simp [h] at h1
    · exact h2 k hk hp

/-! ## Pieces (R99, R100, R116) -/

/-- A piece handed to the Sort Controller (R116). -/
theorem entersPiece_enterPiece (p : Piece) (s : State) : s.entersPiece p (enterPiece p s) := by
  unfold enterPiece
  refine ⟨fun h => if_pos h, fun h => ?_⟩
  rw [if_neg (by simp [Config.pieceCapacity]; omega)]
  obtain ⟨hf, hk⟩ := release_piece_spec p s
  refine ⟨?_, fun k => hk k⟩
  dsimp only
  rw [hf]; rfl

/-- Planned piece i of a strip created, once (R99). -/
theorem createsPlanned_createPlanned (c : CutList) (r : Strip) (i : Nat) (s : State) :
    s.createsPlanned c r i (createPlanned c r i s) := by
  refine ⟨fun h => by simp [createPlanned, h], fun p hp => ⟨fun h => by simp [createPlanned, hp, h], fun h => ?_⟩⟩
  have e : createPlanned c r i s
      = enterPiece (plannedPiece c r i p) (countCreated (s.modStrip r.tag (markCreated i))) := by
    simp [createPlanned, hp, h]
  rw [e]
  have := entersPiece_enterPiece (plannedPiece c r i p) (countCreated (s.modStrip r.tag (markCreated i)))
  convert this using 1
  · simp [countCreated, State.modStrip, State.setLtr, State.setTsc, bump, markCreated]
  · simp [plannedPiece, beq_eq_decide]

/-- The uncut piece of a strip created (R100). -/
theorem createsUncut_createUncut (c : CutList) (r : Strip) (s : State) : s.createsUncut c r (createUncut c r s) := by
  refine ⟨r.length.getD (c.length2.getD 0), fun l h => by simp [h], fun l h h' => by simp [h, h'], ?_⟩
  have := entersPiece_enterPiece (uncutPiece c r) (countCreated s)
  rw [show createUncut c r s = enterPiece (uncutPiece c r) (countCreated s) from rfl]
  simp only [uncutPiece, beq_eq_decide] at this ⊢
  exact this

/-- The piece that runs to the strip's end (R99, R101). -/
theorem endPiece_iff (c : CutList) (r : Strip) (j : Nat) : c.endPiece r j ↔ pieceAtEnd c r = some j := by
  unfold CutList.endPiece pieceAtEnd
  cases hl : r.length with
  | none => simp
  | some l =>
    have hf : ∀ q : PlannedPiece, (q.stop == l && !c.anyMissed && (q.start == 0 || c.madeAt q.start)) = true ↔
        q.stop = l ∧ (∀ k ∈ c.cuts, k.state ≠ .missed) ∧ (q.start = 0 ∨ ∃ k ∈ c.cuts, k.x = q.start ∧ k.state = .made) := by
      intro q
      simp [CutList.anyMissed, CutList.madeAt, and_assoc]
    simp only [Option.some.injEq, List.findIdx?_eq_some_iff_getElem, hf]
    constructor
    · rintro ⟨l', p, rfl, hj, hs, hmiss, hst, hlow⟩
      obtain ⟨hlt, rfl⟩ := List.getElem?_eq_some_iff.mp hj
      refine ⟨hlt, ⟨hs, hmiss, hst⟩, fun i hi => ?_⟩
      rintro ⟨h1, -, h2⟩
      obtain ⟨h3, h4⟩ := hlow i _ hi (List.getElem?_eq_getElem (by omega)) h1
      rcases h2 with h2 | ⟨k, hk, hkx, hks⟩
      · exact h3 h2
      · exact h4 k hk hkx hks
    · rintro ⟨hlt, ⟨hs, hmiss, hst⟩, hlow⟩
      refine ⟨l, _, rfl, List.getElem?_eq_getElem hlt, hs, hmiss, hst, fun i q hi hq hs' => ?_⟩
      obtain ⟨hlt', rfl⟩ := List.getElem?_eq_some_iff.mp hq
      have hn := hlow i hi
      exact ⟨fun h0 => hn ⟨hs', hmiss, .inl h0⟩, fun k hk hkx hks => hn ⟨hs', hmiss, .inr ⟨k, hk, hkx, hks⟩⟩⟩

/-! ## The bin search (R121, R122) -/

/-- A piece matches an entry (R121). -/
theorem matchesEntry_iff (e : SortEntry) (p : Piece) : matchesEntry e p = true ↔ entryTakes e p := by
  simp only [matchesEntry, entryTakes, inClassSet, Bool.and_eq_true, Bool.or_eq_true, beq_iff_eq, decide_eq_true_eq]
  tauto

/-- Bins that refuse a piece or are not offered it are passed over: the search goes on behind them, each OPEN bin that
matches having counted its refusal (R122, R134). -/
theorem searchBins_refusals (p : Piece) (pre post : List Nat) (s : State) (hr : ∀ b ∈ pre, 1 ≤ b ∧ b ≤ 14)
    (hn : pre.Nodup)
    (h : ∀ b ∈ pre, (binAt s b).state = .opened → entryTakes (entryAt s b) p →
      (offer (binAt s b) p.net p.profile (tallyKey s p.line)).2 = false) :
    ∃ t, searchBins p (pre ++ post) s = searchBins p post t ∧ t = { s with bdb := { s.bdb with bins := t.bdb.bins } }
      ∧ (∀ j, j ∈ pre → (binAt s j).state = .opened → entryTakes (entryAt s j) p →
        binAt t j = (offer (binAt s j) p.net p.profile (tallyKey s p.line)).1)
      ∧ (∀ j, (j ∉ pre ∨ (binAt s j).state ≠ .opened ∨ ¬ entryTakes (entryAt s j) p) → binAt t j = binAt s j) := by
  induction pre generalizing s with
  | nil => exact ⟨s, rfl, rfl, by simp, by simp⟩
  | cons b bs ih =>
    rw [List.nodup_cons] at hn
    simp only [List.cons_append, searchBins]
    by_cases hb : (binAt s b).state = .opened ∧ entryTakes (entryAt s b) p
    · rw [if_pos (by simp [hb.1, matchesEntry_iff, hb.2])]
      have hoff := h b (by simp) hb.1 hb.2
      rw [if_neg (by simp [hoff])]
      generalize hS : s.modBin b (fun _ => (offer (binAt s b) p.net p.profile (tallyKey s p.line)).1) = S
      have hbs : ∀ j, binAt S j
          = if j = b then (offer (binAt s b) p.net p.profile (tallyKey s p.line)).1 else binAt s j := by
        intro j; rw [← hS, binAt_modBin]; simp [hr b]
      have he : ∀ j, entryAt S j = entryAt s j := by intro j; rw [← hS]; rfl
      have hk : tallyKey S p.line = tallyKey s p.line := by rw [← hS]; rfl
      obtain ⟨t, e1, e2, e3, e4⟩ := ih S (fun b hb => hr b (by simp [hb])) hn.2 (fun j hj ho ht => by
        have : j ≠ b := fun e => hn.1 (e ▸ hj)
        rw [hbs, if_neg this] at ho ⊢
        rw [hk]; rw [he] at ht
        exact h j (by simp [hj]) ho ht)
      refine ⟨t, e1, ?_, fun j hj ho ht => ?_, fun j hj => ?_⟩
      · rw [e2, ← hS]; rfl
      · by_cases hjb : j = b
        · subst hjb
          rw [e4 j (.inl hn.1), hbs, if_pos rfl]
        · have hj' : j ∈ bs := by simpa [hjb] using hj
          have hx : binAt S j = binAt s j := by rw [hbs, if_neg hjb]
          rw [e3 j hj' (by rw [hx]; exact ho) (by rw [he]; exact ht), hx, hk]
      · have hjb : j ≠ b := by
          rintro rfl
          rcases hj with hj | hj | hj
          · exact hj (by simp)
          · exact hj hb.1
          · exact hj hb.2
        have hx : binAt S j = binAt s j := by rw [hbs, if_neg hjb]
        rw [e4 j (by rw [hx, he]; exact hj.imp_left (fun hj e => hj (by simp [e]))), hx]
    · rw [if_neg (by rw [Bool.and_eq_true, matchesEntry_iff]; simpa using hb)]
      obtain ⟨t, e1, e2, e3, e4⟩ := ih s (fun b hb => hr b (by simp [hb])) hn.2 (fun j hj => h j (by simp [hj]))
      refine ⟨t, e1, e2, fun j hj ho ht => ?_, fun j hj => ?_⟩
      · have : j ≠ b := by rintro rfl; exact hb ⟨ho, ht⟩
        exact e3 j (by simpa [this] using hj) ho ht
      · refine e4 j ?_
        rcases hj with hj | hj
        · exact .inl (fun e => hj (by simp [e]))
        · exact .inr hj

/-! ## The start test (R163) -/

/-- No slot is in FAULT. -/
theorem faultSlot_none (s : State) : faultSlot s = none ↔ ∀ x ∈ s.prq.slots.toList, x.state ≠ .fault := by
  have hj : ∀ k, (h1 : 1 ≤ k) → (h2 : k ≤ 4) → slotAt s k = s.prq.slots[k - 1]'(by omega) := by
    intro k h1 h2
    have : tabGet s.prq.slots k = some (s.prq.slots[k - 1]'(by omega)) := by
      unfold tabGet; rw [if_neg (by omega)]; exact Vector.getElem?_eq_getElem (by omega)
    simp [slotAt, this]
  unfold faultSlot slotNumbers
  simp only [List.find?_eq_none, beq_iff_eq, List.mem_cons, List.not_mem_nil, or_false]
  constructor
  · intro h x hx
    obtain ⟨i, hi, rfl⟩ := List.getElem_of_mem hx
    have hi' : i < 4 := by simpa using hi
    have := h (i + 1) (by omega)
    rwa [hj (i + 1) (by omega) (by omega)] at this
  · intro h k hk
    have h1 : 1 ≤ k := by omega
    have h2 : k ≤ 4 := by omega
    rw [hj k h1 h2]
    exact h _ (by simp)

/-- The start test (R163, R165). -/
theorem startsPrint_startTest (s : State) : s.startsPrint (startTest s) := by
  have hf : (faultSlot s).isNone = true ↔ ∀ x ∈ s.prq.slots.toList, x.state ≠ .fault := by
    rw [Option.isNone_iff_eq_none, faultSlot_none]
  refine ⟨fun h => ?_, fun k rest x h1 h2 h3 h4 h5 h6 => ?_⟩
  · unfold startTest
    split
    · rfl
    · next ho =>
      refine if_neg fun ha => ?_
      simp only [startAllowed, Bool.and_eq_true, beq_iff_eq, hf, Bool.not_eq_true'] at ha
      obtain ⟨⟨⟨a1, a2⟩, a3⟩, a4⟩ := ha
      rcases h with h | ⟨y, hy, h⟩ | h | h | h
      · exact h a1
      · exact a2 y hy h
      · rw [h] at ho; cases ho
      · rw [h] at a3; cases a3
      · rw [h] at a4; cases a4
  · have ha : startAllowed s = true := by
      simp only [startAllowed, Bool.and_eq_true, beq_iff_eq, hf, h1, h4, h5]; tauto
    have e : startTest s = printStart k rest s := by simp [startTest, h3, ha]
    refine ⟨tabMod s.prq.slots k (fun x => { x with state := .printing, attempts := min 255 (x.attempts + 1) }), ?_, ?_, ?_⟩
    · rw [e]; simp [printStart, State.modSlot, State.setPrq]
    · rw [tabGet_tabMod_same, h6]; rfl
    · intro j hj; exact tabGet_tabMod_other _ _ _ _ hj

/-! ## Landings (R75) -/

/-- An order line that is not FREE is one of lines 1 to 32. -/
theorem line_exists (s : State) (k : Nat) (h : (lineAt s k).state ≠ .free) : 1 ≤ k ∧ k ≤ 32 := by
  by_contra hr
  have : tabGet s.otu.lines k = none := by
    rw [← Option.not_isSome_iff_eq_none]; exact fun h => hr ((tabGet_range _ _).mp h)
  exact h (by simp [lineAt, this, OrderLine.initial])

/-- Queueing a notice changes no order line. -/
theorem lineAt_raise (s : State) (m : Notice) (j : Nat) : lineAt (s.raise m) j = lineAt s j := by simp [lineAt]

/-- The filled flag set and ORDER_FILLED (R76). -/
theorem fillLine_spec (k : Nat) (c : FillCause) (s : State) (hk : 1 ≤ k ∧ k ≤ 32) :
    (∀ j, lineAt (fillLine k c s) j = if j = k then { lineAt s k with
          filled := (lineAt s k).filled || decide ((lineAt s k).demand ≤ (lineAt s k).fulfilled) } else lineAt s j)
      ∧ (fillLine k c s).lif = if (lineAt s k).filled = false ∧ (lineAt s k).demand ≤ (lineAt s k).fulfilled then
          s.lif.raise (orderFilled k (lineAt s k) c) else s.lif := by
  unfold fillLine
  dsimp only
  generalize hl : lineAt s k = l
  by_cases h : l.filled = false ∧ l.demand ≤ l.fulfilled
  · rw [if_pos (by simp [h]), if_pos h]
    refine ⟨fun j => ?_, by simp⟩
    rw [lineAt_raise, lineAt_modLine]
    by_cases hj : j = k
    · simp [hj, hk, hl, h]
    · simp [hj]
  · rw [if_neg (by simpa using h), if_neg h]
    refine ⟨fun j => ?_, rfl⟩
    by_cases hj : j = k
    · subst hj
      have : (l.filled || decide (l.demand ≤ l.fulfilled)) = l.filled := by
        cases hf : l.filled <;> simp_all
      rw [if_pos rfl, this, hl]
    · rw [if_neg hj]

/-- A DRAINING line left with nothing reserved (R77). -/
theorem drainLine_spec (k : Nat) (s : State) (hk : 1 ≤ k ∧ k ≤ 32) :
    (∀ j, lineAt (drainLine k s) j = if j = k then { lineAt s k with
          state := if (lineAt s k).state = .draining ∧ (lineAt s k).reserved = 0 then .free else (lineAt s k).state }
        else lineAt s j)
      ∧ (drainLine k s).lif = if (lineAt s k).state = .draining ∧ (lineAt s k).reserved = 0 then
          s.lif.raise (orderDone k (lineAt s k)) else s.lif := by
  unfold drainLine
  dsimp only
  generalize hl : lineAt s k = l
  by_cases h : l.state = .draining ∧ l.reserved = 0
  · rw [if_pos (show (l.state == .draining && l.reserved == 0) = true by simp [h])]
    refine ⟨fun j => ?_, by rw [if_pos h]; simp⟩
    rw [lineAt_raise, lineAt_modLine]
    by_cases hj : j = k
    · simp [hj, hk, hl, h]
    · simp [hj]
  · rw [if_neg (show ¬ (l.state == .draining && l.reserved == 0) = true by simpa using h)]
    refine ⟨fun j => ?_, by rw [if_neg h]⟩
    by_cases hj : j = k
    · subst hj; rw [if_pos rfl, if_neg h, hl]
    · rw [if_neg hj]

/-- The credit of a landing (R75 to R77). -/
theorem credit_spec (k n : Nat) (s : State) (hk : 1 ≤ k ∧ k ≤ 32) :
    (∀ j, lineAt (credit (some k) n s) j = if j = k then (lineAt s k).credited n else lineAt s j)
      ∧ (credit (some k) n s).lif = ((lineAt s k).creditNotices k n).foldl Lif.raise s.lif := by
  have h0 : ∀ j, lineAt (s.modLine k (fun l => { l with
      reserved := l.reserved - n, fulfilled := addTotal l.fulfilled n, landed := bump l.landed })) j
      = if j = k then { lineAt s k with reserved := (lineAt s k).reserved - n
                                        fulfilled := addTotal (lineAt s k).fulfilled n
                                        landed := bump (lineAt s k).landed } else lineAt s j := by
    intro j
    rw [lineAt_modLine]
    simp [hk]
  obtain ⟨h1, h1'⟩ := fillLine_spec k .landing (s.modLine k (fun l => { l with
    reserved := l.reserved - n, fulfilled := addTotal l.fulfilled n, landed := bump l.landed })) hk
  obtain ⟨h2, h2'⟩ := drainLine_spec k (fillLine k .landing (s.modLine k (fun l => { l with
    reserved := l.reserved - n, fulfilled := addTotal l.fulfilled n, landed := bump l.landed }))) hk
  simp only [h0, if_true] at h1 h1'
  simp only [h1, h1', if_true] at h2 h2'
  have hsub : (lineAt s k).reserved - n = 0 ↔ (lineAt s k).reserved ≤ n := by omega
  have hor : ((lineAt s k).filled = false
        ∧ ((lineAt s k).credited n).filled = true)
      ↔ (lineAt s k).filled = false ∧ (lineAt s k).demand ≤ min ((lineAt s k).fulfilled + n) 4294967295 := by
    cases h : (lineAt s k).filled <;> simp [OrderLine.credited, h]
  by_cases hd : (lineAt s k).state = .draining ∧ (lineAt s k).reserved ≤ n
  · have hd0 : (lineAt s k).state = .draining ∧ (lineAt s k).reserved - n = 0 := ⟨hd.1, hsub.mpr hd.2⟩
    refine ⟨fun j => (h2 j).trans ?_, h2'.trans ?_⟩
    · by_cases hj : j = k
      · simp only [hj, if_true, if_pos hd0, OrderLine.credited, if_pos hd, addTotal, bump]; rfl
      · simp only [hj, if_false]
    · rw [if_pos hd0]
      unfold OrderLine.creditNotices
      rw [if_pos hd]
      by_cases hf : (lineAt s k).filled = false ∧ (lineAt s k).demand ≤ min ((lineAt s k).fulfilled + n) 4294967295
      · rw [if_pos (by exact hf), if_pos (hor.mpr hf)]; rfl
      · rw [if_neg (by exact hf), if_neg (fun h => hf (hor.mp h))]; rfl
  · have hd0 : ¬ ((lineAt s k).state = .draining ∧ (lineAt s k).reserved - n = 0) := fun h => hd ⟨h.1, hsub.mp h.2⟩
    refine ⟨fun j => (h2 j).trans ?_, h2'.trans ?_⟩
    · by_cases hj : j = k
      · simp only [hj, if_true, if_neg hd0, OrderLine.credited, if_neg hd, addTotal, bump]; rfl
      · simp only [hj, if_false]
    · rw [if_neg hd0]
      unfold OrderLine.creditNotices
      rw [if_neg hd]
      by_cases hf : (lineAt s k).filled = false ∧ (lineAt s k).demand ≤ min ((lineAt s k).fulfilled + n) 4294967295
      · rw [if_pos (by exact hf), if_pos (hor.mpr hf)]; rfl
      · rw [if_neg (by exact hf), if_neg (fun h => hf (hor.mp h))]; rfl

/-! ## Slots (R83) -/

/-- No hold of R82 (R82). -/
theorem feedFree_iff (s : State) : s.feedFree ↔ anyHold s = false := by
  have hc : cutterHold s = false ↔ (s.tsc.cutter = .run
      ∨ (s.tsc.cutter = .spinup ∧ s.tsc.spinTimer.getD 0 ≤ s.tsc.travelMs)) := by
    unfold cutterHold; cases s.tsc.cutter <;> simp
  have ht : trackingHold s = false ↔ s.ltr.strips.length < 32 := by
    simp [trackingHold, stripFree, Config.stripCapacity]; omega
  unfold State.feedFree
  simp only [anyHold, Bool.or_eq_false_iff, hc, ht, lineHold, profileHold, gaugeHold, bne_eq_false_iff_eq, and_assoc]

/-- CUTTER is the only hold (R83). -/
theorem onlyCutter_iff (s : State) : onlyCutter s = true ↔ ¬ s.feedFree ∧ s.ltr.lineState = .running
    ∧ s.ltr.strips.length < 32 ∧ s.pfc.changeover = .running ∧ verifying s = false := by
  have ht : trackingHold s = false ↔ s.ltr.strips.length < 32 := by
    simp [trackingHold, stripFree, Config.stripCapacity]; omega
  rw [feedFree_iff]
  simp only [onlyCutter, anyHold, Bool.and_eq_true, Bool.not_eq_true', Bool.not_eq_false, ht, lineHold, profileHold,
    gaugeHold, bne_eq_false_iff_eq, Bool.or_eq_true, bne_iff_ne]
  constructor
  · rintro ⟨⟨⟨⟨h1, h2⟩, h3⟩, h4⟩, h5⟩; exact ⟨.inr h1, h2, h3, h4, h5⟩
  · rintro ⟨h1, h2, h3, h4, h5⟩
    have h3' := ht.mpr h3
    exact ⟨⟨⟨⟨by simpa [h2, h3', h4, h5] using h1, h2⟩, h3⟩, h4⟩, h5⟩

/-- The counters of a HELD slot (R85). -/
theorem afterHold_eq (s : State) : s.fdp.afterHold s = { s.fdp with
    held := bump s.fdp.held, heldLine := bumpIf (lineHold s) s.fdp.heldLine
    heldTracking := bumpIf (trackingHold s) s.fdp.heldTracking, heldProfile := bumpIf (profileHold s) s.fdp.heldProfile
    heldGauge := bumpIf (gaugeHold s) s.fdp.heldGauge, heldCutter := bumpIf (cutterHold s) s.fdp.heldCutter } := by
  have hc : cutterHold s = true ↔ ¬ (s.tsc.cutter = .run
      ∨ (s.tsc.cutter = .spinup ∧ s.tsc.spinTimer.getD 0 ≤ s.tsc.travelMs)) := by
    unfold cutterHold; cases s.tsc.cutter <;> simp
  have ht : trackingHold s = true ↔ 32 ≤ s.ltr.strips.length := by
    simp [trackingHold, stripFree, Config.stripCapacity]; omega
  simp only [Fdp.afterHold, bumpIf, hc, ht, lineHold, profileHold, gaugeHold, bne_iff_ne, bump, ite_not]
  congr!

/-- A HELD slot (R83). -/
theorem heldSlot_eq (s : State) : heldSlot s = if (s.fdp.feedReady && onlyCutter s) = true then
    wakeReport { s with fdp := s.fdp.afterHold s } else { s with fdp := s.fdp.afterHold s } := by
  rw [afterHold_eq]; rfl

/-- The decision of the slot that begins (R83). -/
theorem slotDecided_decideSlot (s : State) : s.slotDecided (decideSlot s) := by
  intro gap other hgap hother
  have hg : isGap s.fdp.gapCount s.fdp.slotIndex = true ↔ gap := by rw [hgap]; simp [isGap]
  refine ⟨fun h => ?_, fun h hf hc => ?_, fun h hr ho hs => ?_, fun h hf hr => ?_, fun h hf hr => ?_⟩
  · simp [decideSlot, hg.mpr h, State.setFdp, bump]
  all_goals
    have hgf : ¬ (isGap s.fdp.gapCount s.fdp.slotIndex = true) := fun e => h (hg.mp e)
    unfold decideSlot
    rw [if_neg hgf]
  · have ha : anyHold s = true := by rw [feedFree_iff] at hf; simpa using hf
    rw [if_pos ha, heldSlot_eq]
    split
    · next hw =>
      simp only [Bool.and_eq_true, onlyCutter_iff] at hw
      obtain ⟨h1, -, h2, h3, h4, h5⟩ := hw
      have ho : ¬ other := by
        rw [hother]; simp [h2, h4, h5]; omega
      have hn : s.tsc.cutter ≠ .standby := by
        rcases hc with hc | hc | hc
        · rw [hc] at h1; cases h1
        · exact absurd hc ho
        · exact hc
      exact if_neg (by simpa using hn)
    · rfl
  · have hn : ¬ s.feedFree := by
      rintro ⟨-, -, -, -, h1 | ⟨h1, -⟩⟩ <;> rw [hs] at h1 <;> cases h1
    have ho' : s.ltr.lineState = .running ∧ s.ltr.strips.length < 32 ∧ s.pfc.changeover = .running
        ∧ verifying s = false := by
      rw [hother] at ho
      refine ⟨by_contra fun h => ho (.inl h), by_contra fun h => ho (.inr (.inl (by omega))),
        by_contra fun h => ho (.inr (.inr (.inl h))), by simpa using fun h => ho (.inr (.inr (.inr h)))⟩
    rw [if_pos (by rw [feedFree_iff] at hn; simpa using hn), heldSlot_eq,
      if_pos (by rw [Bool.and_eq_true, onlyCutter_iff]; exact ⟨hr, hn, ho'⟩)]
    unfold wakeReport
    rw [if_pos (by simp [hs])]
    refine ⟨fun m hm => by simp [hm, State.setTsc], fun hm => ?_⟩
    simp [hm, enterSpinup, cutterTo, State.setTsc, State.raise, State.setLif, Tsc.spinningUp, Cutter.driven, hs]
  · rw [if_neg (by rw [(feedFree_iff s).mp hf]; simp), hr]
    simp [State.setFdp, bump]
  · rw [if_neg (by rw [(feedFree_iff s).mp hf]; simp), hr, if_pos rfl]
    refine ⟨fedStrip s, by simp [fedSlot, allocateStrip, State.setLtr, State.setFdp, bump], rfl, rfl, rfl, rfl, rfl, rfl, rfl, rfl,
      rfl, rfl, rfl, rfl, rfl, rfl, _, rfl, rfl, rfl, reached_self _⟩

end Sys2Proof.Machine
end

