-- ==== Sys2Proof/Laws/Image.lean ====
section
/-! SUPPORT. The laws of a label image: a pixel read after it is plotted, and every other pixel. -/

namespace Sys2Proof.Machine

open Sys2Proof

/-- A pixel of the image has a bit of its own. -/
theorem pixelBit_lt (x y : Nat) (hx : x ≤ 447) (hy : y ≤ 255) : pixelBit x y < 114688 := by
  unfold pixelBit; omega

/-- Two pixels of one bit are one pixel. -/
theorem pixelBit_inj (x y u v : Nat) (hx : x ≤ 447) (hu : u ≤ 447) (h : pixelBit x y = pixelBit u v) :
    x = u ∧ y = v := by
  unfold pixelBit at h; omega

/-- Reading a plotted pixel gives the value plotted. -/
theorem pixel_plot_same (i : Image) (x y : Nat) (b : Bool) (hx : x ≤ 447) (hy : y ≤ 255) :
    Image.pixel (Image.plot i x y b) x y = b := by
  have h := pixelBit_lt x y hx hy
  unfold Image.pixel Image.plot
  cases b <;> simp [h]

/-- Plotting a pixel leaves every other pixel. -/
theorem pixel_plot_other (i : Image) (x y u v : Nat) (b : Bool) (hx : x ≤ 447) (hu : u ≤ 447)
    (h : (x, y) ≠ (u, v)) : Image.pixel (Image.plot i x y b) u v = Image.pixel i u v := by
  have hne : pixelBit x y ≠ pixelBit u v := fun he => h (by
    have := pixelBit_inj x y u v hx hu he; simp [this.1, this.2])
  unfold Image.pixel Image.plot
  cases b
  · by_cases hlt : pixelBit u v < 114688
    · simp [hlt, Ne.symm hne]
    · simp [BitVec.getLsbD_of_ge _ _ (Nat.not_lt.mp hlt)]
  · simp [BitVec.getLsbD_twoPow, hne]

/-- One advance of the address counter stays in the window (R147). -/
theorem advance_inside (w : Rect) (x y : Nat) (hx : w.x0 ≤ x ∧ x ≤ w.x1) (hy : w.y0 ≤ y ∧ y ≤ w.y1) :
    (w.x0 ≤ (advance w x y).1 ∧ (advance w x y).1 ≤ w.x1)
      ∧ (w.y0 ≤ (advance w x y).2 ∧ (advance w x y).2 ≤ w.y1) := by
  unfold advance
  split
  · exact ⟨⟨by dsimp only; omega, by dsimp only; omega⟩, hy⟩
  · split
    · exact ⟨⟨by dsimp only; omega, by dsimp only; omega⟩, ⟨by dsimp only; omega, by dsimp only; omega⟩⟩
    · exact ⟨⟨by dsimp only; omega, by dsimp only; omega⟩, ⟨by dsimp only; omega, by dsimp only; omega⟩⟩

end Sys2Proof.Machine
end

