-- ==== Sys2Proof/Laws/Fields.lean ====
section
/-! SUPPORT. What the fields of a label draw (R153, R155, R156, R158, R159): glyph pixels, bars, protect areas,
targets, and the entries of the Field Table one after another. -/

namespace Sys2Proof.Machine

open Sys2Proof

/-- An inked pixel of a character's glyph, read from the glyph tables (R153). -/
theorem inked_iff (l : Lcp) (set : Nat) (c : Byte) (column row : Nat) :
    l.inked set c column row ↔ glyphPixel l set c column row = true := by
  unfold Lcp.inked glyphPixel glyphIndex within
  constructor
  · rintro ⟨code, h1, h2, h3, h4⟩
    by_cases hc : 0x20 ≤ c.toNat ∧ c.toNat ≤ 0x7F
    · have := h1 hc; subst this
      by_cases h0 : set = 0
      · obtain ⟨g, hg, hb⟩ := h3 h0
        simp [hc, h0, hg, hb]
      · obtain ⟨g, hg, hb⟩ := h4 h0
        simp [hc, h0, hg, hb]
    · have := h2 hc; subst this
      have hc' : ¬ ((decide (32 ≤ c.toNat) && decide (c.toNat ≤ 127)) = true) := by simpa using hc
      by_cases h0 : set = 0
      · obtain ⟨g, hg, hb⟩ := h3 h0
        simp only [hc', h0]; simp at hg; simp [hg, hb]
      · obtain ⟨g, hg, hb⟩ := h4 h0
        simp only [hc', h0]; simp at hg; simp [hg, hb]
  · intro h
    by_cases hc : 0x20 ≤ c.toNat ∧ c.toNat ≤ 0x7F
    · refine ⟨c.toNat, fun _ => rfl, fun hn => absurd hc hn, fun h0 => ?_, fun h0 => ?_⟩
      · have : c.toNat - 32 < 96 := by omega
        simp [hc, h0, this] at h ⊢; exact h
      · have : c.toNat - 32 < 96 := by omega
        simp [hc, h0, this] at h ⊢; exact h
    · have hc' : ¬ ((decide (32 ≤ c.toNat) && decide (c.toNat ≤ 127)) = true) := by simpa using hc
      refine ⟨0x3F, fun hn => absurd hn hc, fun _ => rfl, fun h0 => ?_, fun h0 => ?_⟩
      · simp only [hc', h0] at h ⊢; simp at h ⊢; exact h
      · simp only [hc', h0] at h ⊢; simp at h ⊢; exact h

/-- The bars of a code strip and where they begin (R159): after the bars before, each with its space of 2. -/
theorem placeBars_mem (bs : List Nat) (at0 a w : Nat) : (a, w) ∈ placeBars at0 bs ↔
    ∃ k, bs[k]? = some w ∧ a = at0 + (bs.take k).sum + 2 * k := by
  induction bs generalizing at0 with
  | nil => simp [placeBars]
  | cons b bs ih =>
    simp only [placeBars, List.mem_cons, ih, Prod.mk.injEq]
    constructor
    · rintro (⟨rfl, rfl⟩ | ⟨k, h1, h2⟩)
      · exact ⟨0, by simp, by simp⟩
      · exact ⟨k + 1, by simpa using h1, by simp; omega⟩
    · rintro ⟨k, h1, h2⟩
      cases k with
      | zero => left; simp at h1 h2; exact ⟨h2, h1.symm⟩
      | succ k => right; exact ⟨k, by simpa using h1, by simp at h2; omega⟩

/-- A pixel inside a protect area (R155). -/
theorem isProtected_iff (areas : Vector (Option Rect) 4) (x y : Nat) :
    isProtected areas x y = true ↔
      ∃ a, some a ∈ areas.toList ∧ a.x0 ≤ x ∧ x ≤ a.x1 ∧ a.y0 ≤ y ∧ y ≤ a.y1 := by
  unfold isProtected inRect within
  rw [List.any_eq_true]
  constructor
  · rintro ⟨o, ho, h⟩
    cases o with
    | none => simp at h
    | some a => simp at h; exact ⟨a, ho, by omega⟩
  · rintro ⟨a, ha, h⟩
    exact ⟨some a, ha, by simp; omega⟩

/-- What the targets of a field draw over an image, one after another (R156): the ink at the targets on the label
outside the protect areas, nothing else; clipped where one lies past the label edge. -/
theorem drawTarget_fold (areas : Vector (Option Rect) 4) (ink : Bool) (ts : List Target) :
    ∀ (a : Image × Bool),
     ((ts.foldl (drawTarget areas ink) a).2 = true ↔ a.2 = true ∨ ∃ p ∈ ts, p.x < 0 ∨ 447 < p.x ∨ 255 < p.y)
     ∧ ∀ x y : Nat, x < 448 → y < 256 →
       (⟨x, y, true⟩ ∈ ts → isProtected areas x y = false →
         Image.pixel (ts.foldl (drawTarget areas ink) a).1 x y = ink)
       ∧ ((⟨x, y, true⟩ ∉ ts ∨ isProtected areas x y = true) →
         Image.pixel (ts.foldl (drawTarget areas ink) a).1 x y = Image.pixel a.1 x y) := by
  induction ts with
  | nil => intro a; simp
  | cons t ts ih =>
    intro a
    rw [List.foldl_cons]
    obtain ⟨h1, h2⟩ := ih (drawTarget areas ink a t)
    have key : ((drawTarget areas ink a t).2 = true ↔ a.2 = true ∨ (t.x < 0 ∨ 447 < t.x ∨ 255 < t.y))
      ∧ ∀ x y : Nat, x < 448 → y < 256 →
        ((⟨x, y, true⟩ : Target) = t → isProtected areas x y = false →
          Image.pixel (drawTarget areas ink a t).1 x y = ink)
        ∧ ((⟨x, y, true⟩ : Target) ≠ t ∨ isProtected areas x y = true →
          Image.pixel (drawTarget areas ink a t).1 x y = Image.pixel a.1 x y) := by
      unfold drawTarget
      obtain ⟨tx, ty, k⟩ := t
      by_cases hb : (tx < 0 || 447 < tx || 255 < ty) = true
      · rw [if_pos hb]
        simp at hb
        refine ⟨by simp; tauto, fun x y hx hy => ⟨fun h => ?_, fun _ => rfl⟩⟩
        simp at h; omega
      · rw [if_neg hb]
        simp at hb
        by_cases hp : (isProtected areas tx.toNat ty || !k) = true
        · rw [if_pos hp]
          refine ⟨by simp; omega, fun x y hx hy => ⟨fun h h' => ?_, fun _ => rfl⟩⟩
          simp at h; obtain ⟨rfl, rfl, rfl⟩ := h; simp at hp; rw [hp] at h'; cases h'
        · rw [if_neg hp]
          simp at hp
          obtain ⟨hp, rfl⟩ := hp
          refine ⟨by simp; omega, fun x y hx hy => ⟨fun h h' => ?_, fun h => ?_⟩⟩
          · simp at h; obtain ⟨rfl, rfl⟩ := h
            exact pixel_plot_same _ _ _ _ (by simp; omega) (by show y ≤ 255; omega)
          · have hne : (tx.toNat, ty) ≠ (x, y) := by
              intro e
              have e1 : tx.toNat = x := congrArg Prod.fst e
              have e2 : ty = y := congrArg Prod.snd e
              rcases h with h | h
              · exact h (by rw [← e1, ← e2]; congr 1; omega)
              · rw [e1, e2] at hp; rw [hp] at h; cases h
            have hl : tx.toNat ≤ 447 := by omega
            have hl2 : x ≤ 447 := by omega
            exact pixel_plot_other a.1 tx.toNat ty x y ink hl hl2 hne
    refine ⟨?_, fun x y hx hy => ?_⟩
    · rw [h1, key.1]; simp only [List.mem_cons, exists_eq_or_imp]; exact or_assoc
    · obtain ⟨g1, g2⟩ := h2 x y hx hy
      obtain ⟨k1, k2⟩ := key.2 x y hx hy
      refine ⟨fun hm hn => ?_, fun h => ?_⟩
      · by_cases hmt : (⟨x, y, true⟩ : Target) ∈ ts
        · exact g1 hmt hn
        · rw [g2 (.inl hmt)]
          rcases List.mem_cons.1 hm with h | h
          · exact k1 h hn
          · exact absurd h hmt
      · rw [g2 (by rcases h with h | h; exact .inl (fun h' => h (List.mem_cons_of_mem _ h')); exact .inr h)]
        apply k2
        rcases h with h | h
        · exact .inl (fun e => h (by rw [e]; exact List.mem_cons_self))
        · exact .inr h

/-- What the entries of the Field Table draw, in ascending order (R158): the list of the clipped ones, and at each
unprotected pixel the ink of the last entry that has it as a target. -/
theorem drawField_fold (l : Lcp) (m : Manifest) (r : RenderRecord) (fs : List (Option Field)) :
    ∀ (n : Nat) (a : Image × List Nat),
     ((fs.zipIdx n).foldl (drawField l m r) a).2 = a.2 ++ ((fs.zipIdx n).filterMap (fun e => e.1.bind (fun f =>
        if ∃ p ∈ fieldTargets l m r f, p.x < 0 ∨ 447 < p.x ∨ 255 < p.y then some (e.2 + 1) else none)))
     ∧ ∀ x y : Nat, x < 448 → y < 256 →
       (isProtected l.protect x y = false →
         (∀ (k : Nat) (f : Field), fs[k]? = some (some f) → ⟨x, y, true⟩ ∈ fieldTargets l m r f →
           (∀ (k' : Nat) (f' : Field), k < k' → fs[k']? = some (some f') → ⟨x, y, true⟩ ∉ fieldTargets l m r f') →
           Image.pixel ((fs.zipIdx n).foldl (drawField l m r) a).1 x y = decide (f.ink = 0))
         ∧ ((∀ (k : Nat) (f : Field), fs[k]? = some (some f) → ⟨x, y, true⟩ ∉ fieldTargets l m r f) →
           Image.pixel ((fs.zipIdx n).foldl (drawField l m r) a).1 x y = Image.pixel a.1 x y))
       ∧ (isProtected l.protect x y = true →
         Image.pixel ((fs.zipIdx n).foldl (drawField l m r) a).1 x y = Image.pixel a.1 x y) := by
  induction fs with
  | nil => intro n a; simp
  | cons o fs ih =>
    intro n a
    rw [List.zipIdx_cons, List.foldl_cons, List.filterMap_cons]
    obtain ⟨h1, h2⟩ := ih (n + 1) (drawField l m r a (o, n))
    cases o with
    | none =>
      have : drawField l m r a (none, n) = a := rfl
      rw [this] at h1 h2 ⊢
      refine ⟨by simpa using h1, fun x y hx hy => ⟨fun hp => ⟨fun k f hk hf hl => ?_, fun hn => ?_⟩,
        (h2 x y hx hy).2⟩⟩
      · cases k with
        | zero => simp at hk
        | succ k =>
          exact ((h2 x y hx hy).1 hp).1 k f (by simpa using hk) hf
            (fun k' f' hk' hf' => hl (k' + 1) f' (by omega) (by simpa using hf'))
      · exact ((h2 x y hx hy).1 hp).2 (fun k f hk => hn (k + 1) f (by simpa using hk))
    | some g =>
      obtain ⟨d1, d2⟩ := drawTarget_fold l.protect (g.ink == 0) (fieldTargets l m r g) (a.1, false)
      have e1 : (drawField l m r a (some g, n)).1 = (drawTargets l.protect (g.ink == 0) (fieldTargets l m r g) a.1).1 := rfl
      have e2 : (drawField l m r a (some g, n)).2
          = if (drawTargets l.protect (g.ink == 0) (fieldTargets l m r g) a.1).2 then a.2 ++ [n + 1] else a.2 := rfl
      refine ⟨?_, fun x y hx hy => ⟨fun hp => ⟨fun k f hk hf hl => ?_, fun hn => ?_⟩, fun hp => ?_⟩⟩
      · rw [h1, e2]
        unfold drawTargets
        by_cases hc : ∃ p ∈ fieldTargets l m r g, p.x < 0 ∨ 447 < p.x ∨ 255 < p.y
        · rw [if_pos (d1.2 (.inr hc))]; simp only [Option.bind_some, hc, if_true]; simp
        · rw [if_neg (fun h => hc (by simpa using d1.1 h))]; simp only [Option.bind_some, hc, if_false]
      · obtain ⟨g1, g2⟩ := (h2 x y hx hy).1 hp
        cases k with
        | zero =>
          simp at hk; subst hk
          rw [g2 (fun k' f' hk' => hl (k' + 1) f' (by omega) (by simpa using hk')), e1]
          unfold drawTargets
          rw [(d2 x y hx hy).1 hf hp]; rfl
        | succ k =>
          exact g1 k f (by simpa using hk) hf
            (fun k' f' hk' hf' => hl (k' + 1) f' (by omega) (by simpa using hf'))
      · obtain ⟨g1, g2⟩ := (h2 x y hx hy).1 hp
        rw [g2 (fun k f hk => hn (k + 1) f (by simpa using hk)), e1]
        unfold drawTargets
        exact (d2 x y hx hy).2 (.inl (hn 0 g rfl))
      · rw [(h2 x y hx hy).2 hp, e1]
        unfold drawTargets
        exact (d2 x y hx hy).2 (.inr hp)

end Sys2Proof.Machine
end

