-- ==== Sys2Proof/Laws/Plans.lean ====
section
/-! SUPPORT. What the parts of the selection of a plan do: boundaries, candidates, best records, the cut to eight. -/

namespace Sys2Proof.Machine

open Sys2Proof

/-! ## Boundaries (R54) -/

/-- What joining a list of points holds. -/
@[simp] theorem mem_insertPoint (x y : Nat) (ys : List Nat) : y ∈ insertPoint x ys ↔ y = x ∨ y ∈ ys := by
  induction ys with
  | nil => simp [insertPoint]
  | cons z zs ih =>
    rw [insertPoint]
    split
    · simp
    · split
      · rename_i h; subst h; simp
      · simp [ih, or_left_comm]

/-- A list of points stays ascending when one joins it. -/
theorem insertPoint_ascending (x : Nat) (ys : List Nat) (h : ys.Pairwise (· < ·)) :
    (insertPoint x ys).Pairwise (· < ·) := by
  induction ys with
  | nil => simp [insertPoint]
  | cons z zs ih =>
    rw [List.pairwise_cons] at h
    rw [insertPoint]
    split
    · rename_i hx
      exact List.pairwise_cons.mpr ⟨fun a ha => by
        rcases List.mem_cons.mp ha with rfl | ha
        · exact hx
        · exact lt_trans hx (h.1 a ha), List.pairwise_cons.mpr h⟩
    · split
      · exact List.pairwise_cons.mpr h
      · refine List.pairwise_cons.mpr ⟨fun a ha => ?_, ih h.2⟩
        rcases (mem_insertPoint x a zs).mp ha with rfl | ha
        · omega
        · exact h.1 a ha

/-- The points of a list, each joining in turn: ascending, and those of both lists. -/
theorem foldl_insertPoint (ps acc : List Nat) (h : acc.Pairwise (· < ·)) :
    (ps.foldl (fun acc p => insertPoint p acc) acc).Pairwise (· < ·)
      ∧ ∀ x, x ∈ ps.foldl (fun acc p => insertPoint p acc) acc ↔ x ∈ acc ∨ x ∈ ps := by
  induction ps generalizing acc with
  | nil => simp [h]
  | cons p ps ih =>
    obtain ⟨h1, h2⟩ := ih _ (insertPoint_ascending p acc h)
    refine ⟨h1, fun x => ?_⟩
    rw [List.foldl_cons, h2, mem_insertPoint, List.mem_cons]
    tauto

/-- The boundaries are ascending. -/
theorem boundaries_ascending (n : Snapshot) (l : Nat) (ds : List Defect) :
    (boundaries n l ds).Pairwise (· < ·) := (foldl_insertPoint _ [] .nil).1

/-- The boundaries are the points, held within the usable region. -/
theorem mem_boundaries (n : Snapshot) (l : Nat) (ds : List Defect) (x : Nat) :
    x ∈ boundaries n l ds ↔ ∃ p, x = min (l - n.endTrim) (max n.endTrim p) ∧
      (p = n.endTrim ∨ p = l - n.endTrim ∨ (∃ d ∈ ds, p ∈ defectPoints n.allowance d)
        ∨ n.lmaxUsed < l - 2 * n.endTrim ∧ (p = n.endTrim + n.lmaxUsed ∨ p = l - n.endTrim - n.lmaxUsed)) := by
  unfold boundaries
  rw [(foldl_insertPoint _ [] .nil).2]
  simp only [List.not_mem_nil, false_or, List.mem_map, List.mem_append, List.mem_flatMap, List.mem_cons, or_false]
  refine exists_congr fun p => ?_
  by_cases h : n.lmaxUsed < l - 2 * n.endTrim <;> simp [h, eq_comm, and_comm, or_assoc]

/-- There is always a boundary. -/
theorem boundaries_ne_nil (n : Snapshot) (l : Nat) (ds : List Defect) : boundaries n l ds ≠ [] := by
  intro h
  have := (mem_boundaries n l ds (min (l - n.endTrim) (max n.endTrim n.endTrim))).mpr ⟨n.endTrim, rfl, .inl rfl⟩
  simp [h] at this

/-! ## Candidates (R55, R56) -/

/-- When a candidate is admissible, and what piece it is. -/
theorem candidate_eq_some (e : Ple) (n : Snapshot) (ds : List Defect) (p q : Nat) (x : PlannedPiece) :
    candidate e n ds p q = some x ↔ n.lminUsed ≤ q - p ∧ q - p ≤ n.lmaxUsed
      ∧ gradeOf e p q ds = some x.grade ∧ classOf e.bounds (q - p) = some x.cls
      ∧ x = { start := p, stop := q, net := q - p, grade := x.grade, cls := x.cls
              value := n.value x.grade x.cls * (q - p) * n.factor x.grade x.cls / 100000
              line := none, created := false } := by
  unfold candidate
  by_cases h : q - p < n.lminUsed ∨ n.lmaxUsed < q - p
  · simp only [Bool.or_eq_true, decide_eq_true_eq, h, if_true, reduceCtorEq, false_iff]
    omega
  · simp only [Bool.or_eq_true, decide_eq_true_eq, h, if_false]
    cases hg : gradeOf e p q ds with
    | none => simp
    | some g =>
      cases hc : classOf e.bounds (q - p) with
      | none => simp
      | some c =>
        simp only [Option.some.injEq]
        constructor
        · rintro rfl; simp; omega
        · rintro ⟨-, -, rfl, rfl, h⟩; exact h.symm

/-! ## Best records (R57, R58) -/

/-- What it is for one record to be better than another. -/
theorem better_iff (a b : Best) : better a b = true ↔ a.over b := by
  simp only [better, Best.over, Bool.or_eq_true, Bool.and_eq_true, decide_eq_true_eq, beq_iff_eq]
  tauto

/-- A record better than one that is not worse than a third is better than the third. -/
theorem over_of_over (a b c : Best) (h : a.over b) (h' : ¬ c.over b) : a.over c := by
  unfold Best.over at *
  omega

/-- A record not better than a second, the second not better than a third: the first is not better than the third. -/
theorem not_over_trans (a b c : Best) (h : ¬ a.over b) (h' : ¬ b.over c) : ¬ a.over c := by
  unfold Best.over at *
  omega

/-- The best records after m steps, F(0) … F(m). -/
def bestsTo (e : Ple) (n : Snapshot) (ds : List Defect) (bs : List Nat) (m : Nat) : List Best :=
  (List.range m).foldl (fun f j => f ++ [bestAt e n ds bs f (j + 1)]) [Best.none]

/-- One more step adds one best record. -/
theorem bestsTo_succ (e : Ple) (n : Snapshot) (ds : List Defect) (bs : List Nat) (m : Nat) :
    bestsTo e n ds bs (m + 1) = bestsTo e n ds bs m ++ [bestAt e n ds bs (bestsTo e n ds bs m) (m + 1)] := by
  simp only [bestsTo, List.range_succ, List.foldl_append, List.foldl_cons, List.foldl_nil]

/-- There are m + 1 best records after m steps. -/
@[simp] theorem bestsTo_length (e : Ple) (n : Snapshot) (ds : List Defect) (bs : List Nat) (m : Nat) :
    (bestsTo e n ds bs m).length = m + 1 := by
  induction m with
  | zero => rfl
  | succ m ih => simp [bestsTo_succ, ih]

/-- Later steps leave the records of earlier ones. -/
theorem bestsTo_take (e : Ple) (n : Snapshot) (ds : List Defect) (bs : List Nat) (m k : Nat) :
    (bestsTo e n ds bs (m + k)).take (m + 1) = bestsTo e n ds bs m := by
  induction k with
  | zero => exact List.take_of_length_le (by simp)
  | succ k ih => rw [← Nat.add_assoc, bestsTo_succ, List.take_append_of_le_length (by simp), ih]

/-- The best records are those of a step for each boundary after the first. -/
theorem bests_eq (e : Ple) (n : Snapshot) (ds : List Defect) (bs : List Nat) :
    bests e n ds bs = bestsTo e n ds bs (bs.length - 1) := rfl

/-- There is a best record for each boundary. -/
theorem bests_length (e : Ple) (n : Snapshot) (ds : List Defect) (bs : List Nat) (h : bs ≠ []) :
    (bests e n ds bs).length = bs.length := by
  have := List.length_pos_iff.mpr h
  rw [bests_eq, bestsTo_length]; omega

/-- The records before a boundary, as they stand when its own is formed. -/
theorem bests_take (e : Ple) (n : Snapshot) (ds : List Defect) (bs : List Nat) (j : Nat) (hj : j < bs.length) :
    (bests e n ds bs).take (j + 1) = bestsTo e n ds bs j := by
  obtain ⟨k, hk⟩ : ∃ k, bs.length - 1 = j + k := ⟨bs.length - 1 - j, by omega⟩
  rw [bests_eq, hk, bestsTo_take]

/-- The first best record is empty. -/
theorem bests_zero (e : Ple) (n : Snapshot) (ds : List Defect) (bs : List Nat) (h : bs ≠ []) :
    (bests e n ds bs)[0]? = some Best.none := by
  have := congrArg (·[0]?) (bests_take e n ds bs 0 (List.length_pos_iff.mpr h))
  rwa [List.getElem?_take, if_pos Nat.one_pos] at this

/-- The best record of a boundary after the first, formed from the records before it. -/
theorem bests_succ (e : Ple) (n : Snapshot) (ds : List Defect) (bs : List Nat) (j : Nat) (hj : j + 1 < bs.length) :
    (bests e n ds bs)[j + 1]? = some (bestAt e n ds bs ((bests e n ds bs).take (j + 1)) (j + 1)) := by
  have := congrArg (·[j + 1]?) (bests_take e n ds bs (j + 1) hj)
  simp only [List.getElem?_take, Nat.lt_succ_self, if_true] at this
  rw [this, bests_take e n ds bs j (by omega), bestsTo_succ, List.getElem?_append_right (by simp)]
  simp

/-- Options tried in turn, each replacing the current record only if better: what is left is the first that no other is
better than (R57). -/
theorem foldl_better (opt : Nat → Option Best) (b0 : Best) (j : Nat) :
    let f := (List.range j).foldl (fun cur i => match opt i with
      | none => cur
      | some c => if better c cur then c else cur) b0
    (f = b0 ∧ ∀ i c, i < j → opt i = some c → ¬ c.over f)
      ∨ ∃ i, i < j ∧ opt i = some f ∧ f.over b0 ∧ (∀ i' c, i' < i → opt i' = some c → f.over c)
        ∧ ∀ i' c, i < i' → i' < j → opt i' = some c → ¬ c.over f := by
  induction j with
  | zero => exact .inl ⟨rfl, fun i c h => by omega⟩
  | succ j ih =>
    rw [List.range_succ, List.foldl_append]
    simp only [List.foldl_cons, List.foldl_nil]
    simp only at ih
    generalize (List.range j).foldl _ b0 = g at ih ⊢
    generalize hf : (match opt j with
      | none => g
      | some c => if better c g then c else g) = f
    replace hf := hf.symm
    cases ho : opt j with
    | none =>
      rw [ho] at hf; subst hf
      rcases ih with ⟨h1, h2⟩ | ⟨i, h1, h2, h3, h4, h5⟩
      · exact .inl ⟨h1, fun i c hi hc => h2 i c (by
          rcases Nat.lt_succ_iff_lt_or_eq.mp hi with h | h
          · exact h
          · subst h; simp [ho] at hc) hc⟩
      · exact .inr ⟨i, by omega, h2, h3, h4, fun i' c hi hj hc => h5 i' c hi (by
          rcases Nat.lt_succ_iff_lt_or_eq.mp hj with h | h
          · exact h
          · subst h; simp [ho] at hc) hc⟩
    | some c =>
      rw [ho] at hf
      by_cases hb : better c g = true
      · simp only [hb, if_true] at hf; subst hf
        have hb := (better_iff _ _).mp hb
        refine .inr ⟨j, by omega, ho, ?_, fun i' c' hi hc => ?_, fun i' c' hi hj => by omega⟩
        · rcases ih with ⟨h1, h2⟩ | ⟨i, h1, h2, h3, h4, h5⟩
          · rw [← h1]; exact hb
          · unfold Best.over at *; omega
        · rcases ih with ⟨h1, h2⟩ | ⟨i, h1, h2, h3, h4, h5⟩
          · exact over_of_over _ _ _ hb (h2 i' c' hi hc)
          · rcases Nat.lt_trichotomy i' i with h | h | h
            · have := h4 i' c' h hc
              unfold Best.over at *; omega
            · subst h; rw [h2] at hc; cases hc; exact hb
            · exact over_of_over _ _ _ hb (h5 i' c' h hi hc)
      · simp only [hb, Bool.false_eq_true, if_false] at hf; subst hf
        have hb := fun h => hb ((better_iff _ _).mpr h)
        rcases ih with ⟨h1, h2⟩ | ⟨i, h1, h2, h3, h4, h5⟩
        · exact .inl ⟨h1, fun i c' hi hc => by
            rcases Nat.lt_succ_iff_lt_or_eq.mp hi with h | h
            · exact h2 i c' h hc
            · subst h; rw [ho] at hc; cases hc; exact hb⟩
        · exact .inr ⟨i, by omega, h2, h3, h4, fun i' c' hi hj hc => by
            rcases Nat.lt_succ_iff_lt_or_eq.mp hj with h | h
            · exact h5 i' c' hi h hc
            · subst h; rw [ho] at hc; cases hc; exact hb⟩

/-- Boundaries ascend with their index. -/
theorem getD_lt_getD (bs : List Nat) (h : bs.Pairwise (· < ·)) (i j : Nat) (hj : j < bs.length) (hij : i < j) :
    bs.getD i 0 < bs.getD j 0 := by
  rw [List.pairwise_iff_getElem] at h
  have := h i j (by omega) hj hij
  simpa [List.getD_eq_getElem?_getD, hj, show i < bs.length by omega] using this

/-- The largest index below m of a kind, and when there is none. -/
theorem getLast?_filter_range (m : Nat) (p : Nat → Bool) :
    (∀ h, ((List.range m).filter p).getLast? = some h ↔ h < m ∧ p h = true ∧ ∀ h', h < h' → h' < m → p h' = false)
    ∧ (((List.range m).filter p).getLast? = none ↔ ∀ h, h < m → p h = false) := by
  induction m with
  | zero => simp
  | succ m ih =>
    rw [List.range_succ, List.filter_append]
    cases hp : p m with
    | true =>
      simp only [List.filter_cons, hp, if_true, List.filter_nil, List.getLast?_append, List.getLast?_singleton,
        Option.some_or, Option.some.injEq, reduceCtorEq, false_iff]
      refine ⟨fun h => ⟨fun e => by subst e; exact ⟨by omega, hp, fun h' _ _ => by omega⟩,
        fun ⟨h1, h2, h3⟩ => ?_⟩, fun h => ?_⟩
      · by_contra hne
        have := h3 m (by omega) (by omega)
        simp [hp] at this
      · have := h m (by omega); simp [hp] at this
    | false =>
      simp only [List.filter_cons, hp, Bool.false_eq_true, if_false, List.filter_nil, List.append_nil]
      refine ⟨fun h => ?_, ?_⟩
      · rw [ih.1]
        constructor
        · rintro ⟨h1, h2, h3⟩
          exact ⟨by omega, h2, fun h' ha hb => by
            rcases Nat.lt_succ_iff_lt_or_eq.mp hb with hh | hh
            · exact h3 h' ha hh
            · subst hh; exact hp⟩
        · rintro ⟨h1, h2, h3⟩
          have : h ≠ m := fun e => by subst e; simp [hp] at h2
          exact ⟨by omega, h2, fun h' ha hb => h3 h' ha (by omega)⟩
      · rw [ih.2]
        constructor
        · intro h k hk
          rcases Nat.lt_succ_iff_lt_or_eq.mp hk with hh | hh
          · exact h k hh
          · subst hh; exact hp
        · exact fun h k hk => h k (by omega)

/-- An element at an index of a list. -/
theorem getElem?_eq_getD (bs : List Nat) (h : Nat) (hh : h < bs.length) : bs[h]? = some (bs.getD h 0) := by
  simp [List.getD_eq_getElem?_getD, hh]

/-- There is one predecessor, the one the selection takes (R57). -/
theorem precedes_iff (k : Nat) (bs : List Nat) (F : List Best) (bi : Nat) (g : Best) (hF : F.length = bs.length) :
    precedes k bs F bi g ↔ g = predecessor k bs F bi := by
  unfold precedes predecessor
  have hs := getLast?_filter_range bs.length (fun h => decide (bs.getD h 0 + k ≤ bi))
  cases hl : ((List.range bs.length).filter (fun h => decide (bs.getD h 0 + k ≤ bi))).getLast? with
  | none =>
    have := hs.2.mp hl
    simp only [decide_eq_false_iff_not, not_le] at this
    constructor
    · rintro ⟨-, h⟩
      exact h (fun bh hbh => by
        obtain ⟨h, hh, rfl⟩ := List.mem_iff_getElem.mp hbh
        have := this h hh
        simpa [List.getD_eq_getElem?_getD, hh] using this)
    · rintro rfl
      refine ⟨fun h bh hb hle => ?_, fun _ => rfl⟩
      obtain ⟨hh, rfl⟩ := List.getElem?_eq_some_iff.mp hb
      have := this h hh
      simp [List.getD_eq_getElem?_getD, hh] at this
      omega
  | some h =>
    obtain ⟨h1, h2, h3⟩ := (hs.1 h).mp hl
    simp only [decide_eq_true_eq] at h2
    simp only [decide_eq_false_iff_not, not_le] at h3
    have hF' : F[h]? = some (F.getD h Best.none) := by
      simp [List.getD_eq_getElem?_getD, show h < F.length by omega]
    constructor
    · rintro ⟨hp, -⟩
      have := hp h _ (getElem?_eq_getD bs h h1) h2 (fun h' bh' hlt hb => by
        obtain ⟨hh, rfl⟩ := List.getElem?_eq_some_iff.mp hb
        simpa [List.getD_eq_getElem?_getD, hh] using h3 h' hlt hh)
      rw [hF'] at this
      exact (Option.some.inj this).symm
    · rintro rfl
      refine ⟨fun h' bh hb hle hmax => ?_, fun hno => ?_⟩
      · obtain ⟨hh, rfl⟩ := List.getElem?_eq_some_iff.mp hb
        have : h' = h := by
          rcases Nat.lt_trichotomy h' h with hlt | he | hgt
          · have := hmax h _ hlt (getElem?_eq_getD bs h h1); omega
          · exact he
          · have := h3 h' hgt hh
            simp [List.getD_eq_getElem?_getD, hh] at this; omega
        subst this
        exact hF'
      · have := hno (bs.getD h 0) (List.mem_of_getElem? (getElem?_eq_getD bs h h1)); omega

/-- A predecessor stands before the boundary whose record is formed. -/
theorem predecessor_take (k : Nat) (bs : List Nat) (F : List Best) (i j : Nat) (hb : bs.Pairwise (· < ·))
    (hi : i < j) :
    predecessor k bs (F.take j) (bs.getD i 0) = predecessor k bs F (bs.getD i 0) := by
  unfold predecessor
  have hs := getLast?_filter_range bs.length (fun h => decide (bs.getD h 0 + k ≤ bs.getD i 0))
  cases hl : ((List.range bs.length).filter (fun h => decide (bs.getD h 0 + k ≤ bs.getD i 0))).getLast? with
  | none => rfl
  | some h =>
    obtain ⟨h1, h2, h3⟩ := (hs.1 h).mp hl
    simp only [decide_eq_true_eq] at h2
    have : h ≤ i := by
      by_contra hc
      have := getD_lt_getD bs hb i h h1 (by omega); omega
    simp [List.getD_eq_getElem?_getD, show h < j by omega]

/-- What a candidate is worth: the predecessor with its piece added (R57). -/
theorem worth_iff (e : Ple) (n : Snapshot) (ds : List Defect) (bs : List Nat) (F : List Best) (i j : Nat) (c : Best)
    (hF : F.length = bs.length) (hi : i < bs.length) (hj : j < bs.length) :
    worth e n ds bs F i j c ↔ ∃ p, candidate e n ds (bs.getD i 0) (bs.getD j 0) = some p
      ∧ c = (predecessor n.allowance bs F (bs.getD i 0)).add p := by
  unfold worth
  constructor
  · rintro ⟨bi, bj, p, g, h1, h2, h3, h4, h5⟩
    rw [getElem?_eq_getD bs i hi] at h1; cases h1
    rw [getElem?_eq_getD bs j hj] at h2; cases h2
    rw [precedes_iff _ _ _ _ _ hF] at h4; subst h4
    exact ⟨p, h3, h5⟩
  · rintro ⟨p, h3, h5⟩
    exact ⟨_, _, p, _, getElem?_eq_getD bs i hi, getElem?_eq_getD bs j hj, h3,
      (precedes_iff _ _ _ _ _ hF).mpr rfl, h5⟩

/-- Each best record after the first is the first, of SKIP and the candidates, that no other is better than (R57). -/
theorem bestRecord_bests (e : Ple) (n : Snapshot) (ds : List Defect) (bs : List Nat)
    (hb : bs.Pairwise (· < ·)) (hne : bs ≠ []) (j : Nat) (f : Best) (h1 : 1 ≤ j) (hf : (bests e n ds bs)[j]? = some f) :
    bestRecord e n ds bs (bests e n ds bs) j f := by
  have hF := bests_length e n ds bs hne
  obtain ⟨j, rfl⟩ : ∃ m, j = m + 1 := ⟨j - 1, by omega⟩
  have hj : j + 1 < bs.length := by rw [← hF]; exact (List.getElem?_eq_some_iff.mp hf).1
  rw [bests_succ e n ds bs j hj] at hf
  have hf := Option.some.inj hf
  have hw : ∀ i c, i < j + 1 → (worth e n ds bs (bests e n ds bs) i (j + 1) c ↔
      (candidate e n ds (bs.getD i 0) (bs.getD (j + 1) 0)).map
        (fun p => (predecessor n.allowance bs ((bests e n ds bs).take (j + 1)) (bs.getD i 0)).add p) = some c) := by
    intro i c hi
    rw [worth_iff _ _ _ _ _ _ _ _ hF (by omega) hj, predecessor_take _ _ _ _ _ hb hi]
    simp [eq_comm]
  have key := foldl_better (fun i => (candidate e n ds (bs.getD i 0) (bs.getD (j + 1) 0)).map
        (fun p => (predecessor n.allowance bs ((bests e n ds bs).take (j + 1)) (bs.getD i 0)).add p))
        (((bests e n ds bs).take (j + 1)).getD j Best.none) (j + 1)
  have hsk : (bests e n ds bs)[j + 1 - 1]? = some (((bests e n ds bs).take (j + 1)).getD j Best.none) := by
    simp [List.getD_eq_getElem?_getD, show j < (bests e n ds bs).length by omega]
  have he : (List.range (j + 1)).foldl (fun cur i =>
      match (candidate e n ds (bs.getD i 0) (bs.getD (j + 1) 0)).map
        (fun p => (predecessor n.allowance bs ((bests e n ds bs).take (j + 1)) (bs.getD i 0)).add p) with
      | none => cur
      | some c => if better c cur then c else cur) (((bests e n ds bs).take (j + 1)).getD j Best.none) = f := by
    rw [← hf]
    unfold bestAt
    congr 1
    funext cur i
    cases candidate e n ds (bs.getD i 0) (bs.getD (j + 1) 0) <;> rfl
  simp only [he] at key
  rcases key with ⟨k1, k2⟩ | ⟨i, k1, k2, k3, k4, k5⟩
  · left
    exact ⟨by rw [hsk, k1], fun i c hi h => k2 i c hi ((hw i c hi).mp h)⟩
  · right
    refine ⟨i, _, k1, hsk, (hw i f k1).mpr k2, k3, fun i' c hi h => k4 i' c hi ((hw i' c (by omega)).mp h),
      fun i' c hi hj' h => k5 i' c hi hj' ((hw i' c hj').mp h)⟩

/-! ## The cut to eight (R59) -/

/-- What it is for one piece to be kept before another. -/
theorem keptBefore_iff (a b : PlannedPiece) :
    keptBefore a b = true ↔ b.value < a.value ∨ (a.value = b.value ∧ a.start < b.start) := by
  simp [keptBefore]

/-- A piece is kept when fewer than eight go before it. -/
theorem mem_keepEight (ps : List PlannedPiece) (a : PlannedPiece) :
    a ∈ keepEight ps ↔ a ∈ ps ∧ ps.countP (fun q => keptBefore q a) < 8 := by
  rw [keepEight, List.mem_filter, decide_eq_true_eq]; rfl

/-- The cut to eight of pieces in ascending start: all of at most eight, else eight of them in their order, each of
higher value than one dropped, or of equal value and lower start (R59). -/
theorem keepEight_spec (ps : List PlannedPiece) (h : ps.Pairwise (fun a b => a.start < b.start)) :
    (ps.length ≤ 8 → keepEight ps = ps)
    ∧ (8 < ps.length → (keepEight ps).length = 8 ∧ (keepEight ps).Sublist ps
       ∧ ∀ a ∈ keepEight ps, ∀ b ∈ ps, b ∉ keepEight ps →
         b.value < a.value ∨ (b.value = a.value ∧ a.start < b.start)) := by
  have inj : ∀ a ∈ ps, ∀ b ∈ ps, a.start = b.start → a = b := by
    intro a ha b hb hab
    by_contra hne
    obtain ⟨i, hi, rfl⟩ := List.mem_iff_getElem.mp ha
    obtain ⟨j, hj, rfl⟩ := List.mem_iff_getElem.mp hb
    rw [List.pairwise_iff_getElem] at h
    rcases Nat.lt_trichotomy i j with h' | h' | h'
    · have := h i j hi hj h'; omega
    · subst h'; exact hne rfl
    · have := h j i hj hi h'; omega
  have hlt : ∀ a ∈ ps, ps.countP (fun q => keptBefore q a) < ps.length := by
    intro a ha
    rcases Nat.lt_or_ge (ps.countP (fun q => keptBefore q a)) ps.length with h | h
    · exact h
    · have := List.countP_eq_length.mp (le_antisymm List.countP_le_length h) a ha
      simp [keptBefore] at this
  have mono : ∀ a ∈ ps, ∀ b ∈ ps, keptBefore a b = true →
      ps.countP (fun q => keptBefore q a) < ps.countP (fun q => keptBefore q b) := by
    intro a ha b hb hab
    rw [keptBefore_iff] at hab
    have hle : ∀ q, keptBefore q a = true → keptBefore q b = true := by
      intro q hq
      rw [keptBefore_iff] at *; omega
    rcases Nat.lt_or_ge (ps.countP (fun q => keptBefore q a)) (ps.countP (fun q => keptBefore q b)) with h | h
    · exact h
    · exfalso
      have : ps.countP (fun q => keptBefore q a) = ps.countP (fun q => keptBefore q b) :=
        le_antisymm (List.countP_mono_left (fun q _ => hle q)) h
      have hsub : (ps.filter (fun q => keptBefore q a)).Sublist (ps.filter (fun q => keptBefore q b)) :=
        List.monotone_filter_right ps hle
      rw [List.countP_eq_length_filter, List.countP_eq_length_filter] at this
      have he := hsub.eq_of_length this
      have : a ∈ ps.filter (fun q => keptBefore q b) := List.mem_filter.mpr ⟨ha, (keptBefore_iff a b).mpr hab⟩
      rw [← he, List.mem_filter] at this
      simp [keptBefore] at this
  refine ⟨fun hl => ?_, fun hl => ⟨?_, List.filter_sublist, ?_⟩⟩
  · rw [keepEight, List.filter_eq_self]
    intro a ha
    have := hlt a ha
    rw [decide_eq_true_eq]; show _ < 8; omega
  · have hnd : ps.Nodup := h.imp (fun h e => by subst e; omega)
    let r : PlannedPiece → Nat := fun a => ps.countP (fun q => keptBefore q a)
    have rinj : Set.InjOn r (ps.toFinset : Set PlannedPiece) := by
      intro a ha b hb hab
      simp only [List.coe_toFinset, Set.mem_ofPred_eq] at ha hb
      by_contra hne
      have hs : a.start ≠ b.start := fun e => hne (inj a ha b hb e)
      rcases Nat.lt_trichotomy a.value b.value with hv | hv | hv
      · have := mono b hb a ha ((keptBefore_iff _ _).mpr (.inl hv)); simp only [r] at hab; omega
      · rcases Nat.lt_or_gt_of_ne hs with h' | h'
        · have := mono a ha b hb ((keptBefore_iff _ _).mpr (.inr ⟨hv, h'⟩)); simp only [r] at hab; omega
        · have := mono b hb a ha ((keptBefore_iff _ _).mpr (.inr ⟨hv.symm, h'⟩)); simp only [r] at hab; omega
      · have := mono a ha b hb ((keptBefore_iff _ _).mpr (.inl hv)); simp only [r] at hab; omega
    have himg : ps.toFinset.image r = Finset.range ps.length := by
      apply Finset.eq_of_subset_of_card_le
      · intro x hx
        obtain ⟨a, ha, rfl⟩ := Finset.mem_image.mp hx
        exact Finset.mem_range.mpr (hlt a (List.mem_toFinset.mp ha))
      · rw [Finset.card_image_of_injOn rinj, Finset.card_range, List.toFinset_card_of_nodup hnd]
    have hk : (keepEight ps).length = ((ps.toFinset).filter (fun a => r a < 8)).card := by
      rw [← List.toFinset_card_of_nodup (hnd.sublist List.filter_sublist : (keepEight ps).Nodup)]
      congr 1
      ext a
      simp [mem_keepEight, r]
    rw [hk, ← Finset.card_image_of_injOn (f := r) (rinj.mono (by intro a ha; simp at ha ⊢; exact ha.1))]
    have : ((ps.toFinset).filter (fun a => r a < 8)).image r = Finset.range 8 := by
      ext x
      simp only [Finset.mem_image, Finset.mem_filter, Finset.mem_range]
      constructor
      · rintro ⟨a, ⟨_, h⟩, rfl⟩; exact h
      · intro hx
        have : x ∈ ps.toFinset.image r := by rw [himg, Finset.mem_range]; omega
        obtain ⟨a, ha, rfl⟩ := Finset.mem_image.mp this
        exact ⟨a, ⟨ha, hx⟩, rfl⟩
    rw [this, Finset.card_range]
  · intro a ha b hb hnb
    rw [mem_keepEight] at ha hnb
    rw [not_and, not_lt] at hnb
    have hnb := hnb hb
    have : keptBefore b a = false := by
      by_contra hc
      have := mono b hb a ha.1 (by simpa using hc); omega
    have h2 : ¬ (a.value < b.value ∨ (b.value = a.value ∧ b.start < a.start)) :=
      fun h => (Bool.eq_false_iff.mp this) ((keptBefore_iff b a).mpr h)
    have hne : a ≠ b := by rintro rfl; omega
    have hs : a.start ≠ b.start := fun e => hne (inj a ha.1 b hb e)
    omega

end Sys2Proof.Machine
end

