-- ==== Sys2Proof/Laws/Records.lean ====
section
/-! SUPPORT. Fields of a record of bytes (section 12.6): each writer of a field leaves it at the front of what follows,
and a field further on is found past the bytes before it, so that `simp` finds every field of a record written as an
append. -/

namespace Sys2Proof.Machine

open Sys2Proof

@[simp] theorem length_be1 (n : Nat) : (be1 n).length = 1 := by simp [be1]
@[simp] theorem length_be2 (n : Nat) : (be2 n).length = 2 := by simp [be2]
@[simp] theorem length_be4 (n : Nat) : (be4 n).length = 4 := by simp [be4]
@[simp] theorem length_bePos (p : Pos) : (bePos p).length = 4 := by simp [bePos]
@[simp] theorem length_beFlag (b : Bool) : (beFlag b).length = 1 := by simp [beFlag]
@[simp] theorem length_beText (k : Nat) (t : Text) : (beText k t).length = k := by simp [beText]

@[simp] theorem TallyKey.length_bytes (k : TallyKey) : k.bytes.length = 13 := by cases k <;> simp [TallyKey.bytes]
@[simp] theorem Tally.length_bytes (t : Tally) : t.bytes.length = 19 := by simp [Tally.bytes]

/-- A field past the bytes `as` is the field of the bytes after them. -/
theorem holdsNumber_append {as bs : List Byte} {o k n : Nat} (h : as.length ≤ o) :
    holdsNumber (as ++ bs) o k n ↔ holdsNumber bs (o - as.length) k n := by
  unfold holdsNumber
  refine forall_congr' fun i => forall_congr' fun _ => ?_
  rw [List.getElem?_append_right (by omega), Nat.sub_add_comm h]

/-- The same of a text. -/
theorem holdsText_append {as bs : List Byte} {o k : Nat} {t : Text} (h : as.length ≤ o) :
    holdsText (as ++ bs) o k t ↔ holdsText bs (o - as.length) k t := by
  unfold holdsText
  refine forall_congr' fun i => forall_congr' fun _ => ?_
  rw [List.getElem?_append_right (by omega), Nat.sub_add_comm h]

@[simp] theorem holdsNumber_be1 (n : Nat) (bs : List Byte) : holdsNumber (be1 n ++ bs) 0 1 n := by
  intro i hi
  obtain rfl : i = 0 := by omega
  simp [be1]

@[simp] theorem holdsNumber_be2 (n : Nat) (bs : List Byte) : holdsNumber (be2 n ++ bs) 0 2 n := by
  intro i hi
  obtain rfl | rfl : i = 0 ∨ i = 1 := by omega
  all_goals simp [be2]

@[simp] theorem holdsNumber_be4 (n : Nat) (bs : List Byte) : holdsNumber (be4 n ++ bs) 0 4 n := by
  intro i hi
  obtain rfl | rfl | rfl | rfl : i = 0 ∨ i = 1 ∨ i = 2 ∨ i = 3 := by omega
  all_goals simp [be4]

@[simp] theorem holdsNumber_beFlag (b : Bool) (bs : List Byte) : holdsNumber (beFlag b ++ bs) 0 1 b.toNat := by
  intro i hi
  obtain rfl : i = 0 := by omega
  cases b <;> simp [beFlag]

/-- A text written in a field of k bytes stands there. -/
@[simp] theorem holdsText_beText (k : Nat) (t : Text) (bs : List Byte) : holdsText (beText k t ++ bs) 0 k t := by
  intro i hi
  rw [Nat.zero_add, List.getElem?_append_left (by simpa using hi)]
  by_cases h : i < t.length
  · simp [beText, h, hi]
  · rw [beText, List.getElem?_take_of_lt hi, List.getElem?_append_right (by omega), List.getElem?_replicate,
      if_pos (by omega), List.getD_eq_default _ _ (by omega)]

/-- A field that lies in the first bytes of an append is that of those bytes. -/
theorem holdsNumber_take {bs : List Byte} {m o k n : Nat} (h : o + k ≤ m) :
    holdsNumber (bs.take m) o k n ↔ holdsNumber bs o k n := by
  unfold holdsNumber
  refine forall_congr' fun i => forall_congr' fun _ => ?_
  rw [List.getElem?_take_of_lt (by omega)]

/-- The entry i of a list of 2-byte numbers stands at offset 2i (the class counts of a manifest). -/
theorem holdsNumber_flatMap_be2 {xs : List Nat} {i n : Nat} (bs : List Byte) (h : xs[i]? = some n) :
    holdsNumber (xs.flatMap be2 ++ bs) (2 * i) 2 n := by
  induction xs generalizing i with
  | nil => simp at h
  | cons x xs ih =>
    cases i with
    | zero => simp at h; subst h; simp
    | succ i =>
      rw [List.flatMap_cons, List.append_assoc, holdsNumber_append (by simp)]
      simpa [Nat.mul_add] using ih (by simpa using h)

/-- The tally i of a list stands at offset 19i. -/
theorem drop_tallies {ts : List Tally} {i : Nat} {t : Tally} (h : ts[i]? = some t) :
    ∃ post, (ts.flatMap Tally.bytes).drop (19 * i) = t.bytes ++ post := by
  induction ts generalizing i with
  | nil => simp at h
  | cons x ts ih =>
    cases i with
    | zero => simp at h; subst h; simp
    | succ i =>
      obtain ⟨p, hp⟩ := ih (by simpa using h)
      refine ⟨p, ?_⟩
      rw [List.flatMap_cons, List.drop_append, Tally.length_bytes, ← hp]
      simp [List.drop_eq_nil_of_le, Nat.mul_add]

/-- The bytes of the tallies. -/
theorem length_tallies (ts : List Tally) : (ts.flatMap Tally.bytes).length = 19 * ts.length := by
  simp [List.length_flatMap, Nat.mul_comm]

/-- A number held in the bytes of a field stands in the field. -/
theorem holdsNumber_beText {k o j n : Nat} {t : Text} (bs : List Byte) (hk : o + j ≤ k)
    (h : holdsNumber (t.drop o) 0 j n) : holdsNumber (beText k t ++ bs) o j n := by
  intro i hi
  have hb := h i hi
  rw [List.getElem?_drop, Nat.zero_add] at hb
  have hlt : o + i < t.length := by
    by_contra hc
    rw [List.getElem?_eq_none (by omega)] at hb; cases hb
  rw [List.getElem?_append_left (by simp; omega), beText, List.getElem?_take_of_lt (by omega),
    List.getElem?_append_left hlt, hb]

/-- A field of text, its characters and the 00h after them. -/
theorem beText_eq {k : Nat} {t : Text} (h : t.length ≤ k) :
    beText k t = t ++ List.replicate (k - t.length) 0#8 := by
  rw [beText, List.take_append, List.take_of_length_le h, List.take_replicate]
  congr 2; omega

theorem Manifest.length_checkFields (m : Manifest) : m.checkFields.length = 160 := by simp [Manifest.checkFields]

/-- The detail of a notice fits its 28 bytes. -/
theorem Notice.length_detail_le (n : Notice) : n.detail.length ≤ 28 := by cases n <;> simp [Notice.detail]

theorem PlanStatus.sent_eq_code (p : PlanStatus) : p.sent = p.code := by
  cases p <;> try rfl
  rename_i r; cases r <;> rfl

end Sys2Proof.Machine
end

