-- ==== Sys2Proof/Laws/Resume.lean ====
section
/-! SUPPORT. What a resume does: the edges that levels catching up take, what every such edge keeps, the discharges
that begin. -/

namespace Sys2Proof.Machine

open Sys2Proof

/-! ## Levels that catch up (R21, R84, R118) -/

/-- A trim eye's level catching up in RUNNING is the edge its command takes. -/
theorem eyeCatchesUp_resumeEdge (e : TrimEye) (u : State) (h : u.ltr.lineState = .running) :
    u.eyeCatchesUp e (resumeEdge e u) := by
  unfold State.eyeCatchesUp resumeEdge
  refine ⟨fun he => by simp [he], fun he => ?_⟩
  have hx : ∀ (b : Bool) (w : State), exec (edgeOf e b) w = .next (trimEdge e b w) := by
    intro b w; cases e <;> cases b <;> rfl
  rw [hx]
  simp only [beq_iff_eq, he, if_false]
  congr 1
  have hg : ∀ (y : PerEye Bool) (b : Bool), (y.put e b).get e = b := by intro y b; cases e <;> rfl
  have hp : ∀ (y : PerEye Bool) (b : Bool), (y.put e b).put e (y.get e) = y := by intro y b; cases e <;> rfl
  simp only [trimEdge, hg, beq_iff_eq, he, if_false, State.setPins, hp, h]

/-- The drop eye's level catching up in RUNNING is the edge its command takes. -/
theorem dropCatchesUp_resumeDrop (u : State) (h : u.ltr.lineState = .running) : u.dropCatchesUp (resumeDrop u) := by
  unfold State.dropCatchesUp resumeDrop
  refine ⟨fun he => by simp [he], fun h1 h2 => ?_, fun h1 h2 => ?_⟩
  · show Host.Outcome.next (dropEdge true _) = _
    have : u.pins = { u.pins with drop := true } := by rw [← h2]
    simp [dropEdge, h1, h2, h, State.setPins, State.setSrt, ← this]
  · show Host.Outcome.next (dropEdge false _) = _
    have : u.pins = { u.pins with drop := false } := by rw [← h2]
    simp [dropEdge, h1, h2, h, State.setPins, State.setSrt, ← this]

/-- The feed-ready eye's level catching up in RUNNING is the edge its command takes. -/
theorem feedCatchesUp_resumeFeed (u : State) (h : u.ltr.lineState = .running) : u.feedCatchesUp (resumeFeed u) := by
  unfold State.feedCatchesUp resumeFeed
  refine ⟨fun he => by simp [he], fun he => ?_⟩
  show Host.Outcome.next (feedReadyEdge _ _) = _
  simp [feedReadyEdge, he, h, State.setPins]


/-! ## What an edge keeps -/

/-- The inputs, the line state and position, and every level are the same. -/
def KeepsLine (s t : State) : Prop :=
  t.pins = s.pins ∧ t.ltr.lineState = s.ltr.lineState ∧ t.ltr.trimPos = s.ltr.trimPos ∧ t.ltr.level = s.ltr.level
    ∧ t.srt.level = s.srt.level ∧ t.fdp.feedReady = s.fdp.feedReady

/-- No change keeps the line. -/
theorem KeepsLine.refl (s : State) : KeepsLine s s := ⟨rfl, rfl, rfl, rfl, rfl, rfl⟩

/-- One change after another keeps the line. -/
theorem KeepsLine.trans {s t u : State} (h : KeepsLine s t) (h' : KeepsLine t u) : KeepsLine s u := by
  obtain ⟨a1, a2, a3, a4, a5, a6⟩ := h
  obtain ⟨b1, b2, b3, b4, b5, b6⟩ := h'
  exact ⟨b1.trans a1, b2.trans a2, b3.trans a3, b4.trans a4, b5.trans a5, b6.trans a6⟩

/-- In RUNNING no stop is waiting to end (R18). -/
theorem endStopping_running (s : State) (h : s.ltr.lineState = .running) : endStopping s = s := by
  simp [endStopping, h]

/-- What follows a removal in RUNNING keeps the line. -/
theorem keepsLine_afterStrip (s : State) (h : s.ltr.lineState = .running) : KeepsLine s (afterStrip s) := by
  unfold KeepsLine afterStrip
  rw [endStopping_running s h]
  simp

/-- What follows a landing in RUNNING keeps the line. -/
theorem keepsLine_afterPiece (s : State) (h : s.ltr.lineState = .running) : KeepsLine s (afterPiece s) := by
  unfold KeepsLine afterPiece
  rw [endStopping_running s h]
  simp

/-- The engine's taking up keeps the line. -/
theorem keepsLine_takeUp (s : State) : KeepsLine s (takeUp s) := by
  unfold KeepsLine takeUp
  split <;> simp [State.modStrip]

/-- A computation abandoned keeps the line. -/
theorem keepsLine_abandon (s : State) (tag : Nat) : KeepsLine s (abandon tag s) := by
  unfold abandon
  split
  · exact keepsLine_takeUp _
  · exact .refl s

/-- A strip record's removal in RUNNING keeps the line. -/
theorem keepsLine_removeStrip (s : State) (r : Strip) (h : s.ltr.lineState = .running) :
    KeepsLine s (removeStrip r s) := by
  have h1 : KeepsLine s (releasePlan r (forgetStrip r.tag s)) := by
    rw [releasePlan_eq, releaseAll_frame]
    simp [KeepsLine, forgetStrip]
  have h2 := h1.trans (keepsLine_abandon _ r.tag)
  exact h2.trans (keepsLine_afterStrip _ (h2.2.1.trans h))

/-- A piece handed over keeps the line. -/
theorem keepsLine_enterPiece (s : State) (p : Piece) : KeepsLine s (enterPiece p s) := by
  unfold enterPiece
  split <;> simp [KeepsLine, addBin0]

/-- A planned piece's creation keeps the line. -/
theorem keepsLine_createAt (s : State) (i : Option Nat) (c : CutList) (r : Strip) : KeepsLine s (createAt i c r s) := by
  unfold createAt
  split
  · exact .refl s
  · unfold createPlanned
    split
    · exact .refl s
    · split
      · exact .refl s
      · refine KeepsLine.trans ?_ (keepsLine_enterPiece _ _)
        simp [KeepsLine, countCreated, State.modStrip]

/-- The piece created at a trailing edge keeps the line. -/
theorem keepsLine_trailCreation (s : State) (c : CutList) (r : Strip) : KeepsLine s (trailCreation c r s) := by
  unfold trailCreation
  split
  · refine KeepsLine.trans ?_ (keepsLine_enterPiece _ _)
    simp [KeepsLine, countCreated]
  · exact keepsLine_createAt _ _ _ _

/-- The test of a strip's end at the saw in RUNNING keeps the line. -/
theorem keepsLine_doneTest (s : State) (tag : Nat) (h : s.ltr.lineState = .running) : KeepsLine s (doneTest tag s) := by
  unfold doneTest
  split
  · split
    · exact keepsLine_removeStrip _ _ h
    · exact .refl s
  · exact .refl s

/-- The slip check keeps the line. -/
theorem keepsLine_slipCheck (s : State) (r : Strip) (n : Nat) : KeepsLine s (slipCheck r n s) := by
  unfold slipCheck
  split
  · exact .refl s
  · split <;> simp [KeepsLine, markForced]

/-- A trailing edge at the saw in RUNNING keeps the line. -/
theorem keepsLine_sawTrail (s : State) (r : Strip) (h : s.ltr.lineState = .running) : KeepsLine s (sawTrail r s) := by
  unfold sawTrail
  split
  · exact .refl s
  · refine KeepsLine.trans ?_ (keepsLine_doneTest _ _ ?_)
    · refine KeepsLine.trans ?_ (keepsLine_slipCheck _ _ _)
      refine KeepsLine.trans ?_ (keepsLine_trailCreation _ _ _)
      simp [KeepsLine]
    · exact ((keepsLine_trailCreation _ _ _).trans (keepsLine_slipCheck _ _ _)).2.1.trans (by simp [h])

/-- Every edge of a trim eye taken in RUNNING keeps the line. -/
theorem keepsLine_takeEdge (s : State) (e : TrimEye) (b : Bool) (h : s.ltr.lineState = .running) :
    KeepsLine s (takeEdge e b s) := by
  cases e <;> cases b
  · show KeepsLine s (measureTrail s)
    unfold measureTrail
    split
    · unfold gaugeTrail; split <;> simp [KeepsLine]
    · split
      · exact .refl s
      · dsimp only
        split
        · simp [KeepsLine, setHolder, State.modStrip]
        · unfold lengthWrite
          split
          · refine KeepsLine.trans ?_ (keepsLine_takeUp _)
            simp [KeepsLine, setHolder, State.modStrip]
          · simp [KeepsLine, setHolder, State.modStrip]
  · show KeepsLine s (measureLead s)
    unfold measureLead
    split
    · unfold gaugeMark gaugeEnd
      dsimp only
      split
      · simp [KeepsLine]
      · split <;> simp [KeepsLine]
    · split
      · simp [KeepsLine, measureMatch, setHolder, State.modStrip]
      · unfold measureStray
        dsimp only
        split <;> simp [KeepsLine, setHolder, countStray, allocateStrip]
  · simp [KeepsLine, takeEdge, setHolder]
  · show KeepsLine s (scanLead s)
    unfold scanLead
    split
    · unfold scanMatch announce
      dsimp only
      split
      · simp [KeepsLine, setHolder, State.modStrip]
      · split <;> simp [KeepsLine, setHolder, State.modStrip]
    · simp [KeepsLine, setHolder, countStray]
  · show KeepsLine s (sawTrailEdge s)
    unfold sawTrailEdge
    split
    · exact .refl s
    · dsimp only
      split
      · simp [KeepsLine, setHolder]
      · refine KeepsLine.trans ?_ (keepsLine_sawTrail _ _ ?_)
        · simp [KeepsLine, setHolder]
        · simp [setHolder, h]
  · show KeepsLine s (sawLead s)
    unfold sawLead
    split
    · simp [KeepsLine, sawMatch, cutListSetup, setHolder, State.modStrip]
    · simp [KeepsLine, setHolder, countStray]

/-- What a trim eye's level catching up leaves. -/
theorem resumeEdge_keeps (s : State) (e : TrimEye) (h : s.ltr.lineState = .running) :
    (resumeEdge e s).pins = s.pins ∧ (resumeEdge e s).ltr.lineState = .running
      ∧ (resumeEdge e s).ltr.trimPos = s.ltr.trimPos
      ∧ (resumeEdge e s).ltr.level = s.ltr.level.put e (s.pins.eyes.get e)
      ∧ (resumeEdge e s).srt.level = s.srt.level ∧ (resumeEdge e s).fdp.feedReady = s.fdp.feedReady := by
  unfold resumeEdge
  dsimp only
  split
  · rename_i he
    simp only [beq_iff_eq] at he
    refine ⟨rfl, h, rfl, ?_, rfl, rfl⟩
    rw [← he]; cases e <;> rfl
  · have := keepsLine_takeEdge (setLevel e (s.pins.eyes.get e) s) e (s.pins.eyes.get e) (by simp [setLevel, h])
    obtain ⟨a1, a2, a3, a4, a5, a6⟩ := this
    exact ⟨a1, a2.trans h, a3, a4, a5, a6⟩

/-- The bin search keeps the line. -/
theorem keepsLine_searchBins (p : Piece) (bs : List Nat) (s : State) :
    KeepsLine s (searchBins p bs s).1 := by
  induction bs generalizing s with
  | nil => exact .refl s
  | cons b bs ih =>
    unfold searchBins
    split
    · dsimp only
      split
      · simp [KeepsLine, State.modBin]
      · refine KeepsLine.trans ?_ (ih _)
        simp [KeepsLine, State.modBin]
    · exact ih s

/-- A bin 0 outcome in RUNNING keeps the line. -/
theorem keepsLine_toBin0 (r : Bin0Reason) (p : Piece) (s : State) (h : s.ltr.lineState = .running) :
    KeepsLine s (toBin0 r p s) := by
  unfold toBin0
  have : KeepsLine s (dropPiece p.tag p.index (addBin0 p.net (countBin0 r (release p.line p.net s)))) := by
    cases r <;> simp [KeepsLine, dropPiece, addBin0, countBin0]
  exact this.trans (keepsLine_afterPiece _ (this.2.1.trans h))

/-- A leading edge at the drop eye taken in RUNNING keeps the line. -/
theorem keepsLine_dropLead (s : State) (h : s.ltr.lineState = .running) : KeepsLine s (dropLead s) := by
  unfold dropLead
  split
  · unfold binSearch
    split
    · exact keepsLine_toBin0 _ _ _ h
    · split
      · exact keepsLine_toBin0 _ _ _ h
      · split
        · rename_i p _ _ _ _ t b hs
          have := keepsLine_searchBins p binNumbers s
          rw [hs] at this
          refine this.trans ?_
          unfold assign
          dsimp only
          split <;> simp [KeepsLine, State.modPiece, State.modBin]
        · rename_i p _ _ _ _ t hs
          have := keepsLine_searchBins p binNumbers s
          rw [hs] at this
          exact this.trans (keepsLine_toBin0 _ _ _ (this.2.1.trans h))
  · simp [KeepsLine]

/-- What the drop eye's level catching up leaves. -/
theorem resumeDrop_keeps (s : State) (h : s.ltr.lineState = .running) :
    (resumeDrop s).pins = s.pins ∧ (resumeDrop s).ltr.lineState = .running
      ∧ (resumeDrop s).ltr.trimPos = s.ltr.trimPos ∧ (resumeDrop s).ltr.level = s.ltr.level
      ∧ (resumeDrop s).srt.level = s.pins.drop ∧ (resumeDrop s).fdp.feedReady = s.fdp.feedReady := by
  unfold resumeDrop
  dsimp only
  split
  · rename_i he
    exact ⟨rfl, h, rfl, rfl, by simpa using he, rfl⟩
  · split
    · obtain ⟨a1, a2, a3, a4, a5, a6⟩ := keepsLine_dropLead (s.setSrt { s.srt with level := s.pins.drop }) h
      exact ⟨a1, a2.trans h, a3, a4, a5, a6⟩
    · exact ⟨rfl, h, rfl, rfl, rfl, rfl⟩

/-- What the feed-ready eye's level catching up leaves. -/
theorem resumeFeed_keeps (s : State) (h : s.ltr.lineState = .running) :
    (resumeFeed s).pins = s.pins ∧ (resumeFeed s).ltr.lineState = .running
      ∧ (resumeFeed s).ltr.trimPos = s.ltr.trimPos ∧ (resumeFeed s).ltr.level = s.ltr.level
      ∧ (resumeFeed s).srt.level = s.srt.level ∧ (resumeFeed s).fdp.feedReady = s.pins.feedReady := by
  unfold resumeFeed
  split
  · rename_i he
    exact ⟨rfl, h, rfl, rfl, rfl, by simpa using he⟩
  · unfold feedReadyChange
    dsimp only
    split <;> simp [h]

/-! ## The discharges that waited (R143) -/

/-- The discharges that waited begin (R143): every bin in WAIT_CART whose cart is present and whose output is not
driven; nothing else changes. -/
theorem dischargeAll_spec (s : State) (h : s.ltr.lineState ≠ .halted) :
    dischargeAll s = { s with bdb := { s.bdb with bins := (dischargeAll s).bdb.bins } }
    ∧ ∀ b, binAt (dischargeAll s) b = if 1 ≤ b ∧ b ≤ 14 ∧ (binAt s b).state = .waitCart
                  ∧ tabGet s.pins.carts b = some true ∧ (binAt s b).discharge = none then
                { binAt s b with discharge := some (binAt s b).settings.dischargePulse } else binAt s b := by
  have one : ∀ (t : State) (b : Nat), dischargeStart b t
      = { t with bdb := { t.bdb with bins := (dischargeStart b t).bdb.bins } } := by
    intro t b
    unfold dischargeStart
    dsimp only
    split <;> rfl
  have key : ∀ (bs : List Nat) (hbs : ∀ b ∈ bs, 1 ≤ b ∧ b ≤ 14) (s : State), s.ltr.lineState ≠ .halted →
      (bs.foldl (fun s b => dischargeStart b s) s) = { s with
          bdb := { s.bdb with bins := (bs.foldl (fun s b => dischargeStart b s) s).bdb.bins } }
      ∧ ∀ b, binAt (bs.foldl (fun s b => dischargeStart b s) s) b = if b ∈ bs ∧ (binAt s b).state = .waitCart
                  ∧ tabGet s.pins.carts b = some true ∧ (binAt s b).discharge = none then
                { binAt s b with discharge := some (binAt s b).settings.dischargePulse } else binAt s b := by
    intro bs
    induction bs with
    | nil => intro _ s _; simp
    | cons c cs ih =>
      intro hbs s hs
      obtain ⟨i1, i2⟩ := ih (fun b hb => hbs b (by simp [hb])) (dischargeStart c s) (by simpa using hs)
      refine ⟨?_, fun b => ?_⟩
      · rw [List.foldl_cons, i1, one s c]
      · rw [List.foldl_cons, i2, binAt_dischargeStart s b c (hbs c (by simp))]
        simp only [(dischargeStart_frame s c).1, List.mem_cons]
        by_cases hbc : b = c
        · subst hbc
          by_cases h1 : (binAt s b).state = .waitCart <;> by_cases h2 : tabGet s.pins.carts b = some true
            <;> by_cases h3 : (binAt s b).discharge = none <;> simp [h1, h2, h3, hs]
        · simp [hbc]
  obtain ⟨k1, k2⟩ := key binNumbers (by decide) s h
  unfold dischargeAll
  refine ⟨k1, fun b => ?_⟩
  have hb : b ∈ binNumbers ↔ 1 ≤ b ∧ b ≤ 14 := by simp [binNumbers]; omega
  have := k2 b
  simp only [hb, and_assoc] at this ⊢
  exact this

/-- The cutter group sent to SPINUP (R105). -/
theorem enterSpinup_eq (c : CutterCause) (s : State) : enterSpinup c s = { s with
    tsc := s.tsc.spinningUp, lif := s.lif.raise (.cutterState .spinup s.tsc.cutter c) } := by
  rfl

end Sys2Proof.Machine
end

