-- ==== Sys2Proof/Tests/Slice0.lean ====
section
/-! SUPPORT. Tests: the checks of WellFormed each on an ill-formed command, the worked examples of the spec, and
for every statement with hypotheses a state that meets them (theorems witness_<statement>). -/

namespace Sys2Proof.Tests

open Sys2Proof Sys2Proof.Machine

/- One theorem at a time: on parallel threads the theorems' stacks together pass the memory the check allows. -/
set_option Elab.async false

/-! ## WellFormed: each check refuses an ill-formed command -/

theorem test_refuses_wide_byte : (Instr.orderClose 0#8 256).wellFormed = false := by decide
theorem test_refuses_wide_word : (Instr.tplRead 0#8 65536).wellFormed = false := by decide
theorem test_refuses_wide_long : (Instr.manifestTake 0#8 4294967296).wellFormed = false := by decide
theorem test_refuses_wide_signed : (Instr.measureSet 0#8 32768).wellFormed = false := by decide
theorem test_refuses_tag_0 : (Instr.deadline 0).wellFormed = false := by decide
theorem test_refuses_index_9 : (Instr.diverterFire 1 9).wellFormed = false := by decide
theorem test_refuses_bin_15 : (Instr.dischargePulseEnd 15).wellFormed = false := by decide
theorem test_refuses_short_marks : (Instr.gaugeTable 0#8 [0] 1000).wellFormed = false := by decide
theorem test_refuses_missing_row : (Instr.gradeSet 0#8 1 []).wellFormed = false := by decide
theorem test_refuses_seven_weights :
    (Instr.weightSet 0#8 (List.replicate 7 1)).wellFormed = false := by decide
theorem test_refuses_39_values : (Instr.valueSet 0#8 (List.replicate 39 1)).wellFormed = false := by decide
theorem test_refuses_missing_bound : (Instr.classSet 0#8 2 [150]).wellFormed = false := by decide
theorem test_refuses_short_reference :
    (Instr.orderLoad 0#8 1 { reference := [], grade := 1, cls := 1, colour := .any, demand := 1 }).wellFormed
      = false := by decide
theorem test_refuses_any_as_number : fitsWanted (.only 255) = false := by decide
theorem test_refuses_short_date : (Instr.setDate 0#8 []).wellFormed = false := by decide
theorem test_refuses_empty_write : (Instr.tplWrite 0#8 []).wellFormed = false := by decide
theorem test_refuses_third_set : (Instr.glyphWrite 0#8 2 32 0 []).wellFormed = false := by decide
theorem test_refuses_half_glyph : (Instr.glyphWrite 0#8 0 32 1 [0#8]).wellFormed = false := by decide
theorem test_refuses_wide_field :
    fitsField { kind := 0, x := 65536, y := 0, glyphSet := 0, scale := 1, maxChars := 1, align := 0, ink := 0
                moduleWidth := 1, height := 8 } = false := by decide
theorem test_refuses_wide_rect : fitsRect { x0 := 0, x1 := 1, y0 := 256, y1 := 0 } = false := by decide
theorem test_refuses_wide_print :
    fitsPrint { timer := 256, strobe := 1, done := 1, byteTime := 1 } = false := by decide
theorem test_refuses_wide_heads :
    fitsHeads { hysteresis := 0, residency := 0, spinUp := 65536, path := 0, speed := 0 } = false := by decide
theorem test_refuses_wide_sort : (Instr.sortSet 0#8 { scale := 65536, dropWindow := 0 }).wellFormed = false := by
  decide
theorem test_refuses_long_payload : isPayload (List.replicate 1041 0#8) = false := by decide +kernel

/-! ## Helper states -/

/-- A text of ASCII characters. -/
def txt (cs : List Char) : Text := ascii cs

/-- The geometry of the travel example: measure eye to saw eye 4,000 mm. -/
def geo : Geometry :=
  { scale := 125, dScan := 1500, dSaw := 6000, eyeTol := 30, planLead := 800, feedWindow := 1200 }

/-- The profile set of section 10.10. -/
def prof : ProfileSet :=
  { species := txt ['O', 'A', 'K', 'W'], profileId := txt ['T', '2', '2', 'X', '1', '3', '0', 'A']
    width := 130, thickness := 22, endTrim := 10, allowance := 4, lmin := 200, lmax := 2000
    toolingLimit := 300 }

/-- A Grade Table row. -/
def rowOf (name : List Char) (sev dlim : Nat) : GradeRow :=
  { name := txt name, maxsev := List.replicate 8 sev, dlim := dlim }

/-- A configured part in STOPPED. -/
def cfg : State :=
  { State.reset with
    ltr := { State.reset.ltr with geometry := geo, geometryLoaded := true }
    ple := { State.reset.ple with
      gradesLoaded := true
      grades := [rowOf ['S', 'E', 'L', 'E', 'C', 'T'] 2 100, rowOf ['C', 'O', 'M', 'M', 'O', 'N'] 5 400]
      classesLoaded := true, bounds := [200, 500, 900, 1500] }
    pfc := { State.reset.pfc with active := some 3, sets := State.reset.pfc.sets.set 2 (some prof) } }

/-- The configured part in a line state. -/
def line (st : LineState) : State := { cfg with ltr := { cfg.ltr with lineState := st } }

/-- The configured part in RUNNING with its cutters up to speed. -/
def running : State := { line .running with tsc := { cfg.tsc with cutter := .run, runOutput := true } }

/-- A strip record just released, window open. -/
def fed : Strip :=
  { tag := 203, profile := 3, phase := .fed, leadPos := none, length := none, announced := false, scan := none
    status := .pending, plan := none, stray := false
    measureWin := some { opensAt := 0#32, closesAt := 1200000#32, reached := true }
    scanWin := none, sawWin := none, deadline := none, deadlineDone := false }

/-- A part with these strip records. -/
def withStrips (s : State) (rs : List Strip) : State := { s with ltr := { s.ltr with strips := rs } }

/-- A piece of strip 203, expected at the drop eye until 3 m. -/
def piece : Piece :=
  { tag := 203, index := 1, start := 10, stop := 610, net := 600, grade := 1, cls := 2, value := 180
    line := none, colour := 1, profile := 3, force := false, place := .expected 3000000#32 }

/-- A part with these piece entries. -/
def withPieces (s : State) (ps : List Piece) : State := { s with srt := { s.srt with pieces := ps } }

/-- The bundle settings of the nesting example of section 9.3. -/
def nest : BundleSettings :=
  { length := 2100, rows := 10, gap := 0, closeSlack := 150, shortsThreshold := 300, shortsShare := 25
    dischargePulse := 500 }

/-- A sort entry that takes every piece of the table. -/
def takesAll : SortEntry :=
  { grade := .any, colour := .any, classSet := 0x0F#8, offset := 600, lead := 50, pulse := 120 }

/-- A part whose bin 1 is OPEN with a bundle and takes every piece. -/
def withBin1 (s : State) (f : Bin → Bin) : State :=
  { s with bdb := { s.bdb with bins := tabMod s.bdb.bins 1 f }
           srt := { s.srt with entries := tabMod s.srt.entries 1 (fun _ => takesAll) } }

/-- An OPEN bin with the settings of the nesting example. -/
def opened (x : Bin) : Bin := { x with state := .opened, settings := nest }

/-- A bundle with one row of 600 mm started. -/
def started : Bundle :=
  { Bundle.emptied with rowFills := [600], inRow := 1, profile := 3
                        tallies := [{ key := .stock, pieces := 0, mm := 0 }] }

/-- An OPEN order line of demand 1,000 for the pieces of grade 1, class 2. -/
def order : OrderLine :=
  { OrderLine.initial with state := .opened, reference := txt ['D', 'O'], grade := 1, cls := 2, colour := .any
                           demand := 1000, reserved := 600 }

/-- A part with order line 1. -/
def withLine1 (s : State) (l : OrderLine) : State :=
  { s with otu := { lines := tabMod s.otu.lines 1 (fun _ => l) } }

/-- Every bin of a part that has set none is as after reset. -/
theorem binAt_unset (s : State) (h : s.bdb.bins = Vector.replicate 14 .initial) (b : Nat) :
    binAt s b = .initial := by
  unfold binAt tabGet
  rw [h]
  by_cases h0 : b = 0
  · simp [h0]
  · by_cases hb : b - 1 < 14
    · simp [h0, hb]
    · simp [h0, hb]

/-! ## Worked examples of the spec -/

/-- R160: the CRC of "123456789". -/
theorem test_crc_of_digits : crc16 (txt ['1', '2', '3', '4', '5', '6', '7', '8', '9']) = 0x29B1#16 := by
  decide +kernel

/-- R24's table. -/
theorem test_lengths :
    lengthOf 1479750 (-250) = 1480 ∧ lengthOf 1479750 (-751) = 1479 ∧ lengthOf 1479750 (-750) = 1479
      ∧ lengthOf 1480000 0 = 1480 ∧ lengthOf 149375 0 = 149 ∧ lengthOf 149375 125 = 150 := by decide

/-- R81's table of gap slots. -/
theorem test_gap_slots :
    gapSlots 0 = [] ∧ gapSlots 1 = [15] ∧ gapSlots 4 = [3, 7, 11, 15] ∧ gapSlots 5 = [3, 6, 9, 12, 15]
      ∧ gapSlots 14 = [1, 2, 3, 4, 5, 6, 7, 9, 10, 11, 12, 13, 14, 15] := by decide

/-- The six defects of "Normalising a scan record", section 3.2. -/
def sixDefects : List Defect :=
  [⟨612, 18, 1, 5, 0⟩, ⟨300, 1, 5, 9, 0⟩, ⟨800, 40, 0, 0, 0⟩, ⟨1970, 45, 3, 4, 0⟩, ⟨2000, 12, 2, 6, 0⟩,
   ⟨1100, 120, 4, 2, 0⟩]

/-- The four that stay, in order (section 3.2). -/
theorem test_normalising :
    (secondStage 2000 (firstStage (sixDefects.modify 1 fun d => { d with extent := 0 }))).map
        (fun d => (d.start, d.extent, d.severity))
      = [(612, 18, 5), (300, 1, 7), (1970, 30, 4), (1100, 120, 2)] := by decide

/-- The tables of sections 3.5 and 4.8, with DEAD_KNOT as kind 1 and STAIN as kind 4. -/
def workedPle : Ple :=
  { State.reset.ple with
    gradesLoaded := true, classesLoaded := true, bounds := [250, 450, 900, 1400]
    weights := [0, 8, 0, 0, 3, 0, 0, 0]
    grades := [{ name := txt ['A'], maxsev := [0, 0, 0, 0, 0, 0, 0, 0], dlim := 0 },
               { name := txt ['B'], maxsev := [0, 3, 0, 0, 3, 0, 0, 0], dlim := 150 },
               { name := txt ['C'], maxsev := [0, 7, 0, 0, 7, 0, 0, 0], dlim := 400 }] }

/-- D1 and D2 of strip 203. -/
def workedDefects : List Defect := [⟨612, 18, 1, 5, 0⟩, ⟨1100, 120, 4, 2, 0⟩]

/-- The snapshot of section 4.8. -/
def workedSnapshot : Snapshot :=
  { endTrim := 10, allowance := 6, lmin := 250, lmax := 2200, gauge := .pass, margin := 0
    values := [300, 420, 520, 600, 0, 0, 0, 0, 200, 300, 380, 440, 0, 0, 0, 0, 90, 140, 180, 210, 0, 0, 0, 0]
      ++ List.replicate 16 0
    stockPct := 100, overrunPct := 100, factors := List.replicate 5 (List.replicate 8 100) }

/-- Section 3.5's grades and classes. -/
theorem test_grades :
    gradeOf workedPle 630 1470 workedDefects = some 2 ∧ density workedPle.weights 630 1470 workedDefects = 85
      ∧ gradeOf workedPle 10 1470 workedDefects = some 3 ∧ gradeOf workedPle 1100 1470 workedDefects = some 3
      ∧ classOf workedPle.bounds 840 = some 2 ∧ classOf workedPle.bounds 249 = none := by decide +kernel

/-- Section 4.8's boundaries. -/
theorem test_boundaries :
    boundaries workedSnapshot 1480 workedDefects = [10, 610, 630, 1100, 1220, 1470] := by decide +kernel

/-- Section 4.8's plan. -/
theorem test_plan :
    (selectPlan workedPle workedSnapshot 1480 workedDefects).map (fun p => (p.start, p.stop, p.grade, p.cls, p.value))
      = [(10, 610, 1, 2, 252), (630, 1100, 1, 2, 197), (1220, 1470, 1, 1, 75)] := by decide +kernel

/-- Section 7.6's cuts, fire positions 40,125 + x mm. -/
theorem test_cuts :
    cutPositions 1480 (selectPlan workedPle workedSnapshot 1480 workedDefects) = [10, 610, 630, 1100, 1220, 1470]
      ∧ fireAt (umOfMm 40000) State.reset.tsc.trim 610 = umOfMm 40735 := by decide +kernel

/-- Section 5.3's lookup among lines of one key. -/
def fiveLines : State :=
  let key : OrderLine := { order with grade := 2, cls := 3, reserved := 0 }
  let l4 : OrderLine := { key with colour := .only 2, demand := 10000, fulfilled := 8000, reserved := 2000 }
  let l7 : OrderLine := { key with state := .draining, demand := 40000, fulfilled := 30000, reserved := 5000 }
  let l9 : OrderLine := { key with demand := 25000, fulfilled := 20000, reserved := 1600 }
  let l12 : OrderLine := { key with colour := .only 2, demand := 60000, fulfilled := 48000 }
  let l15 : OrderLine := { key with colour := .only 1, demand := 30000, fulfilled := 21000 }
  let t := State.reset.otu.lines
  { State.reset with otu := { lines := ((((t.set 3 l4).set 6 l7).set 8 l9).set 11 l12).set 14 l15 } }

theorem test_lookup : lookup fiveLines 2 3 2 = some 9 ∧ lookup fiveLines 2 3 1 = some 9
    ∧ lookup fiveLines 1 3 1 = none := by decide +kernel

/-- Section 9.3's last row: 300 mm is refused on SPACE, 180 mm fits and leaves 16 mm. -/
theorem test_last_row :
    (let x := { opened .initial with settings := { nest with rows := 2, gap := 4 }
                                     bundle := { started with rowFills := [2000, 1900], inRow := 3 } }
     (offer x 300 3 .stock).2 = false ∧ (offer x 300 3 .stock).1.refusedSpace = 1
      ∧ (offer x 180 3 .stock).1.bundle.rowFills = [2000, 2084]
      ∧ bundleFull (offer x 180 3 .stock).1 = true) := by decide +kernel

/-- Section 9.3's nesting of a row: the row fills after 203/2, 203/3 and 207/2. -/
theorem test_nesting :
    (let x := { opened .initial with bundle := started }
     let a := (offer x 470 3 .stock).1
     let b := (offer a 250 3 (.order (txt ['D']))).1
     let c := (offer b 840 3 .stock).1
     a.bundle.rowFills = [1070] ∧ b.bundle.rowFills = [1320] ∧ b.bundle.shorts = 250
      ∧ b.bundle.tallies.length = 2 ∧ c.bundle.rowFills = [1320, 840] ∧ bundleFull c = false) := by decide +kernel

/-- Section 10.6's code strip of bundle 512 with check value 29B1h. -/
theorem test_code_strip : stripWidth 512 0x29B1#16 = 168 ∧ stripWidth 0 0#16 = 152
    ∧ stripWidth 4294967295 0xFFFF#16 = 248 := by decide +kernel

/-- Section 10.10's texts. -/
theorem test_field_texts :
    decimal 512 = txt ['5', '1', '2'] ∧ decimal 0 = txt ['0'] ∧ metres 1320 = txt ['1', '.', '3', '2', '0']
      ∧ metres 250 = txt ['0', '.', '2', '5', '0'] ∧ hex4 0x29B1#16 = txt ['2', '9', 'B', '1']
      ∧ decimal (250 * 100 / 1320) = txt ['1', '8'] := by decide +kernel

/-- Section 10.2's narrow window after the five bytes: row 20 and the counter. -/
theorem test_narrow_window :
    (let l := { State.reset.lcp with window := ⟨100, 111, 20, 22⟩, addrX := 100, addrY := 20 }
     let m := l.applyBytes [0xFF#8, 0xF0#8, 0x0F#8, 0xFF#8, 0xAA#8]
     (m.addrX, m.addrY) = (104, 20)
      ∧ (List.range 12).map (fun i => Image.pixel m.template (100 + i) 20)
        = [true, false, true, false, true, true, true, true, true, true, true, true]
      ∧ (List.range 12).map (fun i => Image.pixel m.template (100 + i) 21)
        = [false, false, false, false, false, false, false, false, true, true, true, true]) := by decide +kernel

/-- Section 10.2's second part: the byte is written once under COND_EQ, and not a second time. -/
theorem test_cond_eq :
    (let l := { State.reset.lcp with window := ⟨100, 111, 20, 22⟩, addrX := 104, addrY := 21, op := .condEq
                                     mask := 0xF0#8, pattern := 0x00#8 }
     let m := l.applyByte 0xFF#8
     let n := { m with addrX := 104, addrY := 21 }.applyByte 0x00#8
     (m.addrX, m.addrY) = (100, 22) ∧ Image.pixel m.template 107 21 = true
      ∧ Image.pixel m.template 108 21 = false ∧ n.template = m.template ∧ (n.addrX, n.addrY) = (100, 22)) := by
  decide +kernel

/-- R104: travel_ms of the values after reset. -/
theorem test_travel : State.reset.tsc.travelMs = 6000 * 1000 / 1500 := by decide

/-- A request's frame, byte by byte (section 12.2): start byte, station, kind, tag, length, CRC. -/
theorem test_line_start_frame :
    frameBytes 0x00#8 0x10#8 0x07#8 [] = [0xA7#8, 0x00#8, 0x10#8, 0x07#8, 0x00#8, 0x00#8]
      ++ (let c := crc16 [0x00#8, 0x10#8, 0x07#8, 0x00#8, 0x00#8]
          [BitVec.ofNat 8 (c.toNat / 256), BitVec.ofNat 8 c.toNat]) := by decide +kernel

/-- Payloads read as the requests they spell (section 12.6). -/
theorem test_payloads :
    Wire.readRequest 0x31 1#8 [5#8, 0x00#8, 0x01#8, 0x00#8, 0x02#8] = some (.orderAmend 1#8 5 65538)
      ∧ Wire.readRequest 0x18 1#8 [0xFF#8, 0x06#8] = some (.measureSet 1#8 (-250))
      ∧ Wire.readRequest 0x61 1#8 [0x01#8, 0x02#8, 0x14#8] = some (.tplAddr 1#8 258 20)
      ∧ Wire.readRequest 0x10 9#8 [] = some (.lineStart 9#8) := by decide +kernel

/-- A word of the opcode table gives no bits, so none is read. -/
theorem test_no_table_words : decodeTableWord 8 0x10 = none ∧ decodeTableWord 0 0 = none := by decide

/-! ## States that meet the statements' hypotheses -/

/-- A part holding a reply. -/
def withReply (s : State) (begun after : Bool) : State :=
  { s with lif := { s.lif with
    reply := some { kind := 0x10#8, tag := 7#8, code := .ok, data := [], begun := begun, resetAfter := after } } }

/-- A part with its measure unit changed. -/
def withMsu (s : State) (f : Msu → Msu) : State := { s with msu := f s.msu }

/-- A part with its trim conveyor changed. -/
def withLtr (s : State) (f : Ltr → Ltr) : State := { s with ltr := f s.ltr }

/-- A part with its trim station changed. -/
def withTsc (s : State) (f : Tsc → Tsc) : State := { s with tsc := f s.tsc }

/-- A part with its infeed changed. -/
def withFdp (s : State) (f : Fdp → Fdp) : State := { s with fdp := f s.fdp }

/-- A part with its profile controller changed. -/
def withPfc (s : State) (f : Pfc → Pfc) : State := { s with pfc := f s.pfc }

/-- A part with its inputs changed. -/
def withPins (s : State) (f : Pins → Pins) : State := { s with pins := f s.pins }

/-- A part with its composer changed. -/
def withLcp (s : State) (f : Lcp → Lcp) : State := { s with lcp := f s.lcp }

/-- A part with its print queue changed. -/
def withPrq (s : State) (f : Prq → Prq) : State := { s with prq := f s.prq }

/-- A part with its links changed. -/
def withLif (s : State) (f : Lif → Lif) : State := { s with lif := f s.lif }

theorem witness_StepRunsTheFrontCommand :
    { running with pending := [.lineRead 7#8, .estopAssert] }.pending = .lineRead 7#8 :: [.estopAssert] := rfl

theorem witness_EmptyQueuePassesOneMs :
    running.pending = [] ∧ running.ltr.lineState ≠ .halted ∧ (line .halted).pending = []
      ∧ (line .halted).ltr.lineState = .halted := by decide +kernel

theorem witness_ResetLeavesTheInitialState :
    running.lif.reply = none ∧ running.pins.estop = false
      ∧ (withPins running (fun p => { p with estop := true })).pins.estop = true := by decide +kernel

theorem witness_QueuesStayBounded : (withStrips running [fed]).queuesBounded ∧ ∃ t, step running = .next t :=
  ⟨by unfold State.queuesBounded; decide +kernel, _, rfl⟩

theorem witness_AttentionFollowsTheQueue :
    (withLif running (fun l => l.raise (.cart 1 true))).attentionSound ∧ ∃ t, step running = .next t :=
  ⟨by unfold State.attentionSound; decide +kernel, _, rfl⟩

theorem witness_ControllersStaySound :
    running.cutterSound ∧ running.changeoverSound ∧ running.portSound ∧ ∃ t, step running = .next t :=
  ⟨by unfold State.cutterSound; decide +kernel, by unfold State.changeoverSound; decide +kernel,
   by unfold State.portSound; decide +kernel, _, rfl⟩

theorem witness_LineStatesStaySound :
    (line .halted).haltedQuiet ∧ (line .stopped).stoppedEmpty
      ∧ (withMsu running (fun m => { m with verification := .onBar, measured := [0] })).gaugeSound
      ∧ ∃ t, step (line .halted) = .next t :=
  ⟨by unfold State.haltedQuiet State.outputsDropped; decide +kernel,
   by unfold State.stoppedEmpty; decide +kernel, by unfold State.gaugeSound; decide +kernel, _, rfl⟩

/-- The slot k RENDERING under the hold. -/
def rendering : State :=
  withPrq (withLcp running (fun l => { l with hold := true })) (fun p => { p with
    slots := tabMod p.slots 1 (fun x => { x with state := .rendering, bundle := some 512 }) })

theorem witness_LabelsStaySound : rendering.counterInside ∧ rendering.renderHeld ∧ ∃ t, step rendering = .next t :=
  ⟨by unfold State.counterInside; decide +kernel, by intro _; rfl, _, rfl⟩

theorem witness_BundlesKeepTheirLimits :
    (withBin1 running (fun x => { opened x with bundle := started })).bundlesSound
      ∧ ∃ t, step running = .next t :=
  ⟨by unfold State.bundlesSound Bin.bundleSound; decide +kernel, _, rfl⟩

theorem witness_RequestReadsBack :
    (Instr.tplAddr 7#8 258 20).wellFormed = true
      ∧ Wire.writeRequest (.tplAddr 7#8 258 20) = some (0x61#8, 7#8, [0x01#8, 0x02#8, 0x14#8]) := by
  decide +kernel

theorem witness_FrameBytesAreTheRequest :
    (Instr.lineStart 7#8).wellFormed = true ∧ Wire.writeRequest (.lineStart 7#8) = some (0x10#8, 7#8, [])
      ∧ running.lif.control = { state := .hunt, bytes := [] } ∧ running.lif.reply = none := by decide +kernel

theorem witness_GroupRefusalsChangeNothing :
    (refusedInHalted (.lineStart 7#8) = true ∧ (Instr.lineStart 7#8).wellFormed = true
      ∧ Wire.writeRequest (.lineStart 7#8) = some (0x10#8, 7#8, []) ∧ (line .halted).ltr.lineState = .halted
      ∧ (line .halted).lif.reply = none)
    ∧ (refusedWhileHeld (.tplClear 7#8) = true ∧ (Instr.tplClear 7#8).wellFormed = true
      ∧ Wire.writeRequest (.tplClear 7#8) = some (0x66#8, 7#8, []) ∧ rendering.lcp.hold = true
      ∧ rendering.lif.reply = none) := by decide +kernel

theorem witness_RequestsChangeNothingWhenRefused :
    (Wire.writeRequest (.lineStart 7#8) = some (0x10#8, 7#8, []) ∧ (line .halted).lif.reply = none
      ∧ exec (.lineStart 7#8) (line .halted) = .next ((line .halted).refusedWith 0x10#8 7#8 .halted)
      ∧ ((line .halted).refusedWith 0x10#8 7#8 .halted).lif.reply
        = some { kind := 0x10#8, tag := 7#8, code := .halted, data := [], begun := false, resetAfter := false })
    ∧ (∃ r, (withReply running false false).lif.reply = some r ∧ r.begun = false)
    ∧ ∃ r, (withReply running true false).lif.reply = some r ∧ r.begun = true :=
  ⟨⟨rfl, rfl, rfl, rfl⟩, ⟨_, rfl, rfl⟩, _, rfl, rfl⟩

/-- A manifest of bundle 512 from bin 1, printed and discharged. -/
def manifest : Manifest :=
  { number := 512, bin := 1, worst := 1, colour := .one 1, perClass := Vector.replicate 8 0, pieces := 3
    lineal := 1320, shorts := 250, rows := 1, tallies := [], profile := 3, gauge := .pass, date := []
    reason := .requested, check := 0x29B1#16, label := .printed, discharged := true, clipped := [] }

/-- A part with these manifests. -/
def withManifests (s : State) (ms : List Manifest) : State := { s with bdb := { s.bdb with manifests := ms } }

theorem witness_ReadsAnswerAndChangeNothing :
    running.lif.reply = none
      ∧ (withStrips running [{ fed with tag := 202 }, fed]).ltr.strips = [{ fed with tag := 202 }] ++ fed :: []
      ∧ (∀ x ∈ [{ fed with tag := 202 }], x.tag ≠ fed.tag) ∧ (∀ r ∈ running.ltr.strips, r.tag ≠ 203)
      ∧ (withManifests running [manifest]).bdb.manifests.find? (fun x => x.number == 512) = some manifest
      ∧ (∀ m ∈ running.bdb.manifests, m.number ≠ 512) := by decide +kernel

theorem witness_LineStartAndStop :
    running.lif.reply = none ∧ cfg.hasConfiguration ∧ ¬ State.reset.hasConfiguration
      ∧ (line .halted).ltr.lineState = .halted ∧ (line .stopping).hasConfiguration
      ∧ (line .stopping).ltr.lineState = .stopping ∧ cfg.ltr.lineState = .stopped
      ∧ (running.ltr.lineState = .running ∧ running.ltr.strips = [] ∧ running.srt.pieces = []
        ∧ running.tsc.cutter ≠ .off ∧ running.msu.verification = .idle)
      ∧ (withMsu running (fun m => { m with verification := .armed })).msu.verification = .armed
      ∧ (withStrips running [fed]).ltr.strips ≠ [] := by
  unfold State.hasConfiguration; decide +kernel

theorem witness_LineResumeReturnsToRunning :
    running.ltr.lineState ≠ .halted ∧ (line .halted).lif.reply = none ∧ (line .halted).ltr.lineState = .halted
      ∧ (withPins (line .halted) (fun p => { p with estop := true })).pins.estop = true
      ∧ (line .halted).pins.estop = false ∧ (line .halted).hasConfiguration
      ∧ (¬ { State.reset with ltr := { State.reset.ltr with lineState := .halted } }.hasConfiguration)
      ∧ (line .halted).ltr.level = (line .halted).pins.eyes ∧ (line .halted).srt.level = (line .halted).pins.drop
      ∧ (line .halted).fdp.feedReady = (line .halted).pins.feedReady
      ∧ ∀ b, (binAt (line .halted) b).state = .waitCart →
        tabGet (line .halted).pins.carts b ≠ some true := by
  refine ⟨by decide +kernel, by decide +kernel, by decide +kernel, by decide +kernel, by decide +kernel,
    by unfold State.hasConfiguration; decide +kernel, by unfold State.hasConfiguration; decide +kernel,
    by decide +kernel, by decide +kernel, by decide +kernel, ?_⟩
  intro b h
  rw [binAt_unset _ rfl] at h
  cases h

theorem witness_LineClearEmptiesTheLine :
    running.ltr.lineState ≠ .halted ∧ (withStrips (line .halted) [fed]).lif.reply = none
      ∧ (withStrips (line .halted) [fed]).ltr.lineState = .halted ∧ (line .halted).pins.estop = false
      ∧ (withPins (line .halted) (fun p => { p with estop := true })).pins.estop = true := by decide +kernel

/-- A halted line on a drain, to be cleared: a READY strip with a piece for order line 1, a piece on its way to
bin 1, which waits for it in CLOSE_PENDING. -/
def clearing : State :=
  withPfc (withBin1 (withLine1 (withPieces (withStrips (line .halted)
    [{ fed with status := .ready
                plan := some [{ start := 10, stop := 610, net := 600, grade := 1, cls := 2, value := 180
                                line := some 1, created := false }] }])
    [{ piece with tag := 202, place := .assigned 1 0#32 5#32 }])
    { order with state := .draining, reserved := 600 })
    (fun x => { opened x with bundle := started, state := .closePending, incoming := 1 }))
    (fun p => { p with changeover := .draining, target := some 3 })

theorem witness_LineClearEmptiesTheLine_closing :
    clearing.lif.reply = none ∧ clearing.ltr.lineState = .halted ∧ clearing.pins.estop = false
      ∧ clearing.lcp.hold = false ∧ clearing.pfc.changeover = .draining
      ∧ (line .halted).pfc.changeover ≠ .draining
      ∧ emptied (fun b => (binAt clearing b).state == .closePending) (fun b => (binAt clearing b).incoming)
          clearing.arrivals = [1]
      ∧ clearing.allReservations = [(1, 600)] := by decide +kernel

/-- No bin waits for a piece, and none is open with something allocated, in a part that has set none. -/
theorem witness_LineClearEmptiesTheLine_quiet :
    (∀ b, (binAt (line .halted) b).state ≠ .closePending)
      ∧ (withPfc (line .halted) (fun p => { p with changeover := .draining })).nothingOpen := by
  refine ⟨fun b => ?_, fun b h => ?_⟩
  · rw [binAt_unset _ rfl]; decide
  · rw [binAt_unset _ rfl] at h; cases h

/-- LINE_CLEAR frees the drained order line, closes bin 1, and tells ORDER_DONE, LINE_STATE and PROFILE_STATE. -/
theorem test_line_clear :
    (match exec (.lineClear 7#8) clearing with
      | .next t => (t.lif.notices.map (·.notice.code), (lineAt t 1).state, (binAt t 1).state, t.bdb.closingOrder)
      | _ => ([], .opened, .disabled, []))
      = ([(Notice.orderDone 1 [] 0 0 0 false).code, (Notice.lineState .stopped .halted .request).code,
          (Notice.profileState .tooling .draining none none .drained).code], .free, .closing, [1]) := by
  decide +kernel

theorem witness_EstopHaltsTheLine :
    (line .halted).ltr.lineState = .halted ∧ running.ltr.lineState ≠ .halted ∧ running.pins.estop = false
      ∧ verifying running = false
      ∧ verifying (withMsu running (fun m => { m with verification := .onBar })) = true := by decide +kernel

/-- A halted line at whose stop the measure, drop and feed-ready eyes were clear, blocked since, a cart come to bin 1 in
WAIT_CART. -/
def resumable : State :=
  withPins (withBin1 (line .halted) (fun x => { opened x with state := .waitCart }))
    (fun p => { p with eyes := ⟨true, false, false⟩, drop := true, feedReady := true, carts := p.carts.set 0 true })

theorem witness_LineResumeReturnsToRunning_edges :
    (resumable.lif.reply = none ∧ resumable.ltr.lineState = .halted ∧ resumable.pins.estop = false
      ∧ resumable.hasConfiguration)
    ∧ (resumable.ltr.level.get .measure ≠ resumable.pins.eyes.get .measure
      ∧ resumable.ltr.level.get .scan = resumable.pins.eyes.get .scan)
    ∧ (resumable.srt.level = false ∧ resumable.pins.drop = true)
    ∧ (let s := { line .halted with srt := { (line .halted).srt with level := true } }
       s.ltr.lineState = .halted ∧ s.srt.level = true ∧ s.pins.drop = false)
    ∧ resumable.fdp.feedReady ≠ resumable.pins.feedReady
    ∧ (binAt resumable 1).state = .waitCart ∧ tabGet resumable.pins.carts 1 = some true
    ∧ (binAt resumable 1).discharge = none := by
  unfold State.hasConfiguration; decide +kernel

/-- At that resume the measure and drop eyes take strays, the notices of RUNNING and SPINUP follow, and bin 1 discharges
(R8, R119, R21, R143; the order log 13). -/
theorem test_resume_edges :
    (match exec (.lineResume 7#8) resumable with
      | .next t => (t.ltr.strays.measure, t.srt.dropStrays, t.fdp.feedReady, (binAt t 1).discharge,
          t.lif.notices.map (·.notice))
      | _ => (0, 0, false, none, []))
      = (1, 1, true, some nest.dischargePulse,
        [.stray .measure 0#32 1, .stray .drop 0#32 0, .lineState .running .halted .request,
         .cutterState .spinup .off .request]) := by decide +kernel

/-- A window 1 µm off is not reached, one at the position is, and one behind it stays so (R6). -/
theorem test_window_noted :
    (({ opensAt := 1#32, closesAt := 9#32, reached := false } : Window).noted 0#32).reached = false
      ∧ (({ opensAt := 1#32, closesAt := 9#32, reached := false } : Window).noted 1#32).reached = true
      ∧ (({ opensAt := 1#32, closesAt := 9#32, reached := true } : Window).noted 0#32).reached = true := by
  decide +kernel

theorem witness_EncodersAndEyes :
    (line .halted).ltr.lineState = .halted ∧ running.ltr.lineState ≠ .halted
      ∧ cfg.pins.eyes.get .saw = false ∧ cfg.pins.eyes.get .saw ≠ true ∧ cfg.ltr.lineState = .stopped
      ∧ (line .halted).pins.eyes.get .measure ≠ true := by decide +kernel

/-- The measure eye blocked over strip 203, whose leading edge was taken at 0. -/
def measuring : State :=
  withPins (withLtr (withStrips running [{ fed with phase := .measuring, leadPos := some 0#32, measureWin := none }])
    (fun l => { l with holder := ⟨some 203, none, none⟩, trimPos := 1479750#32, level := ⟨true, false, false⟩ }))
    (fun p => { p with eyes := ⟨true, false, false⟩ })

/-- The engine busy with another strip. -/
def busyEngine (s : State) : State :=
  { s with ple := { s.ple with engine := some { tag := 9, snapshot := workedSnapshot } } }

theorem witness_MeasureEyeEdges :
    (watching running = true ∧ verifying running = false ∧ running.pins.eyes.measure = false)
    ∧ ((withStrips running [fed]).ltr.strips = [] ++ fed :: [] ∧ fed.expectedAt .measure = true)
    ∧ ((∀ x ∈ running.ltr.strips, x.expectedAt .measure = false) ∧ running.ltr.strips.length < 32
      ∧ running.pfc.changeover = .running ∧ running.tsc.cutter ≠ .idleWait)
    ∧ (withPfc running (fun p => { p with changeover := .tooling })).pfc.changeover = .tooling
    ∧ (withPins running (fun p => { p with eyes := ⟨true, false, false⟩ })).ltr.holder.measure = none
    ∧ (watching measuring = true ∧ verifying measuring = false ∧ measuring.pins.eyes.measure = true
      ∧ measuring.ltr.holder.measure = some 203 ∧ (busyEngine measuring).ple.engine.isSome = true
      ∧ (measuring.ltr.strips.find? (fun x => x.tag == 203)).map (fun r => (r.length, r.leadPos))
        = some (none, some 0#32)) := by decide +kernel

/-- A part whose cutter group waits out its hysteresis. -/
def idling : State := withTsc running (fun c => { c with cutter := .idleWait, hystTimer := some 20000 })

/-- A stray in IDLE_WAIT, with room for its record, in RUNNING and in DRAINING. -/
theorem witness_MeasureEyeEdges_stray :
    watching idling = true ∧ verifying idling = false ∧ idling.pins.eyes.measure = false
      ∧ (∀ x ∈ idling.ltr.strips, x.expectedAt .measure = false) ∧ idling.ltr.strips.length < 32
      ∧ idling.tsc.cutter = .idleWait ∧ idling.pfc.changeover = .running
      ∧ (withPfc idling (fun p => { p with changeover := .draining })).pfc.changeover = .draining := by decide +kernel

/-- The stray gets record 1 and returns the cutter group to RUN, told in this order (R8, R106). -/
theorem test_stray_record :
    (match exec .measureLeadingEdge idling with
      | .next t => (t.ltr.strips.map (fun r => (r.tag, r.status, r.scanWin.map (·.opensAt))), t.tsc.cutter,
          t.lif.notices.map (·.notice))
      | _ => ([], .off, []))
      = ([(1, .uncut .stray, some 1470000#32)], .run,
          [.stray .measure 0#32 1, .cutterState .run .idleWait .activity]) := by decide +kernel

/-- With the engine IDLE the trailing edge makes a strip whose scan is attached eligible, and none else. -/
theorem witness_MeasureEyeEdges_idle :
    measuring.ple.engine = none
      ∧ ({ fed with length := some 1480, scan := some { colour := 1, defects := [] } } : Strip).eligible = true
      ∧ ({ fed with length := some 1480 } : Strip).eligible = false := by decide +kernel

/-- R24's first example through the measure eye: 1,479,750 µm and −250 µm give 1,480 mm. -/
theorem test_measured_length :
    (match exec .measureTrailingEdge (busyEngine (withMsu measuring (fun m => { m with comp := -250 }))) with
      | .next t => t.ltr.strips.map (·.length)
      | _ => []) = [some 1480] := by decide +kernel

/-- Strip 203 on its way, its scan and saw windows open. -/
def travelling : Strip :=
  { fed with phase := .travelling, leadPos := some 0#32, length := some 1480, measureWin := none
             scanWin := some { opensAt := 0#32, closesAt := 30000#32, reached := true }
             sawWin := some { opensAt := 0#32, closesAt := 60000#32, reached := true }
             deadline := some 10000#32 }

theorem witness_ScanAndSawEyeEdges :
    watching running = true ∧ running.pins.eyes.scan = false ∧ running.pins.eyes.saw = false
      ∧ (withPins running (fun p => { p with eyes := ⟨false, true, false⟩ })).pins.eyes.scan = true
      ∧ (∀ x ∈ running.ltr.strips, x.expectedAt .scan = false ∧ x.expectedAt .saw = false)
      ∧ (withStrips running [travelling]).ltr.strips = [] ++ travelling :: []
      ∧ travelling.expectedAt .scan = true ∧ travelling.expectedAt .saw = true := by decide +kernel

theorem witness_WindowsAndDeadlinesExpire :
    ((withStrips running [travelling]).ltr.strips.find? (fun x => x.tag == travelling.tag) = some travelling
      ∧ travelling.window .scan = some { opensAt := 0#32, closesAt := 30000#32, reached := true }
      ∧ (30000#32 - 30000#32 : Pos).toInt ≤ 0 ∧ 0 < (30001#32 - 30000#32 : Pos).toInt
      ∧ running.ltr.lineState = .running ∧ running.pfc.changeover = .running
      ∧ (line .running).tsc.cutter ≠ .run)
    ∧ (∀ c, running.ple.engine = some c → c.tag ≠ travelling.tag)
    ∧ (stripOf (withStrips running [travelling]) travelling.tag = some travelling
      ∧ travelling.deadline = some 10000#32 ∧ travelling.deadlineDone = false ∧ travelling.status = .pending
      ∧ travelling.length.isSome = true ∧ travelling.scan = none ∧ 0 ≤ (10000#32 - 10000#32 : Pos).toInt
      ∧ (9999#32 - 10000#32 : Pos).toInt < 0)
    ∧ (∀ x ∈ (withStrips running [travelling]).ltr.strips, x.tag ≠ travelling.tag → x.eligible = false)
    ∧ ({ travelling with status := .computing }.status = .computing
      ∧ { travelling with status := .ready }.status ≠ .pending ∧ { travelling with length := none }.length = none
      ∧ { travelling with scan := some { colour := 1, defects := [] } }.scan.isSome = true
      ∧ (busyEngine running).ple.engine.map (·.tag) = some 9) := by
  refine ⟨by decide +kernel, ?_, by decide +kernel, by decide +kernel, by decide +kernel⟩
  intro c h
  cases h

/-- A READY strip whose one piece is reserved on order line 1. -/
def planned : Strip :=
  { travelling with status := .ready
                    plan := some [{ start := 10, stop := 610, net := 600, grade := 1, cls := 2, value := 180
                                    line := some 1, created := false }] }

/-- Its saw window exceeded on a drain, with order line 1 DRAINING. -/
def losing (s : State) : State :=
  withLtr (withLine1 (withStrips s [planned]) { order with state := .draining, reserved := 600 })
    (fun l => { l with trimPos := 60001#32 })

theorem witness_WindowsAndDeadlinesExpire_removal :
    ((losing running).ltr.strips.find? (fun x => x.tag == planned.tag) = some planned
      ∧ planned.window .saw = some { opensAt := 0#32, closesAt := 60000#32, reached := true }
      ∧ 0 < ((losing running).ltr.trimPos - 60000#32).toInt ∧ planned.reservations = [(1, 600)]
      ∧ (losing running).ordersDone planned.reservations
        = [.orderDone 1 order.reference order.demand order.fulfilled order.landed order.filled])
    ∧ ((busyEngine running).ple.engine.map (·.tag) = some 9
      ∧ ({ losing running with ple := { workedPle with engine := some ⟨203, workedSnapshot⟩ } } : State).ple.engine.map
        (·.tag) = some planned.tag)
    ∧ ((losing (line .stopping)).ltr.lineState = .stopping ∧ running.tsc.cutter = .run
      ∧ (withPfc (losing running) (fun p => { p with changeover := .draining })).pfc.changeover = .draining) := by
  decide +kernel

/-- A missing READY strip is told, its reservation released and its DRAINING line freed, before STOPPING ends. -/
theorem test_window_expiry :
    (match exec (.windowExpiry .saw 203) (losing (line .stopping)) with
      | .next t => (t.lif.notices.map (·.notice), (lineAt t 1).state, t.ltr.lineState)
      | _ => ([], .opened, .running))
      = ([.stripLost 203 .saw .ready, .orderDone 1 (txt ['D', 'O']) 1000 0 0 false,
          .lineState .stopped .stopping .drained], .free, .stopped) := by decide +kernel

theorem witness_GaugeSettingsAndRequests :
    running.lif.reply = none ∧ (List.range 32).length = 32 ∧ (List.range 32)[0]? = some 0
      ∧ (List.range 32).Pairwise (· < ·) := by decide +kernel

/-- A verification that has seen n marks at its origin. -/
def onBar (n : Nat) : State :=
  withMsu running (fun m => { m with verification := .onBar, measured := List.replicate n 0
                                     barEndFrom := some 0#32 })

theorem witness_VerificationTakesTheEdges :
    running.ltr.lineState = .running
      ∧ (withMsu running (fun m => { m with verification := .armed })).msu.verification = .armed
      ∧ (onBar 30).msu.verification = .onBar ∧ (onBar 30).msu.measured.length ≠ 31
      ∧ (onBar 31).msu.measured.length = 31 ∧ (onBar 31).pins.eyes.measure = false
      ∧ (withPins (onBar 1) (fun p => { p with eyes := ⟨true, false, false⟩ })).pins.eyes.measure = true
      ∧ (onBar 1).msu.barEndFrom = some 0#32
      ∧ ((onBar 1).ltr.trimPos - (0#32 + umOfMm 100)).toInt ≤ 0
      ∧ 0 < (100001#32 - (0#32 + umOfMm 100) : Pos).toInt := by decide +kernel

/-- The part with strip 203, its scan still to come. -/
def awaiting : State := withStrips running [{ travelling with deadline := some 90000#32 }]

theorem witness_ScanRecordsAreCheckedAndAttached :
    (4 ≤ [0#8, 203#8, 4#8, 0#8].length ∧ 3 < (([0#8, 203#8, 4#8, 0#8] : List Byte).getD 2 0#8).toNat)
    ∧ ([0#8] : List Byte).length < 4
    ∧ (203 < 65536 ∧ 1 ≤ 3 ∧ workedDefects.length ≤ 24 ∧ (∀ d ∈ workedDefects, d.sendable))
    ∧ stripOf running 203 = none
    ∧ (stripOf awaiting 203).map (fun r => (r.scan, r.deadlineDone, r.length, r.status))
      = some (none, false, some 1480, .pending)
    ∧ (stripOf (withStrips running [{ travelling with scan := some { colour := 1, defects := [] } }]) 203).map
        (fun r => r.scan.isSome) = some true
    ∧ (stripOf (withStrips running [{ travelling with deadlineDone := true }]) 203).map
        (fun r => (r.scan, r.deadlineDone)) = some (none, true)
    ∧ (busyEngine awaiting).ple.engine.isSome = true ∧ awaiting.ple.engine = none
    ∧ (∀ x ∈ awaiting.ltr.strips, x.tag ≠ 203 → x.eligible = false) := by
  unfold Defect.sendable; decide +kernel

/-- With the engine IDLE: a strip whose length is still absent, and one whose length is there. -/
theorem witness_ScanRecordsAreCheckedAndAttached_idle :
    (stripOf (withStrips running [fed]) 203).map (fun r => (r.scan, r.deadlineDone, r.length))
        = some (none, false, none)
      ∧ (withStrips running [fed]).ple.engine = none
      ∧ (stripOf awaiting 203).map (fun r => (r.scan, r.deadlineDone, r.length)) = some (none, false, some 1480) := by
  decide +kernel

/-- A scan record of strip 203 is attached and its computation taken up. -/
theorem test_scan_record :
    (match exec (.scanRecord ([0x00#8, 0xCB#8, 0x01#8, 0x02#8] ++ workedDefects.flatMap Defect.sent)) awaiting with
      | .next t => (t.ltr.strips.map (fun r => (r.status, r.scan)), t.ple.engine.map (·.tag))
      | _ => ([], none))
      = ([(.computing, some { colour := 1, defects := workedDefects })], some 203) := by decide +kernel

/-- Equal defects are both kept, in their order (R36). -/
theorem test_equal_defects_kept :
    (firstStage [⟨9, 4, 0, 3, 1⟩, ⟨2, 4, 0, 3, 1⟩, ⟨9, 4, 0, 3, 1⟩]).map (·.start) = [9, 2, 9] := by decide

theorem witness_NormalisationStages :
    (∀ d ∈ workedDefects, 1 ≤ d.extent)
      ∧ (secondStage 613 workedDefects).map (fun d => (d.start, d.extent)) = [(612, 1)] := by decide

theorem witness_GradeAndClassOfACandidate :
    workedPle.bounds.Pairwise (· < ·)
      ∧ 85 = min 65535 (((workedDefects.filter (fun d => decide (0 < overlap 630 1470 d))).map (fun d =>
          workedPle.weights.getD d.kind 0 * d.severity * (overlap 630 1470 d).toNat)).sum * 100 / (1470 - 630))
      ∧ gradeOf workedPle 630 1470 workedDefects = some 2 := by decide +kernel

theorem witness_TablesAndValuesAreReplaced :
    running.lif.reply = none ∧ (line .halted).ltr.lineState = .halted ∧ cfg.ltr.lineState = .stopped
      ∧ gradeFieldsOk 1 [rowOf [] 7 65535] ∧ ¬ gradeFieldsOk 1 [rowOf [] 8 65535]
      ∧ (rowOf ['S', 'E', 'L', 'E', 'C', 'T', 'E', 'D'] 7 0).name.length = 8
      ∧ ([150, 3000].Pairwise (· < ·) ∧ ∀ b ∈ [150, 3000], 150 ≤ b ∧ b ≤ 3000)
      ∧ (List.replicate 8 15).length = 8 ∧ (List.replicate 40 4095).length = 40 := by
  unfold gradeFieldsOk isText; decide +kernel

theorem witness_TablesAndValuesAreReplaced_text :
    (txt ['C', 'H', 'E', 'R']).getLast? ≠ some 0#8 ∧ ([] : Text).getLast? ≠ some 0#8
      ∧ textOf (txt ['C', 'H', 'E', 'R'] ++ List.replicate 4 0#8) = txt ['C', 'H', 'E', 'R'] := by decide

/-- An order line of grade 2 and class 3 stands in the way of smaller tables; with none, nothing does. -/
theorem witness_TablesAndValuesAreReplaced_use :
    fiveLines.namesGradeAbove 1 ∧ fiveLines.namesClassAbove 2 ∧ ¬ cfg.namesGradeAbove 1
      ∧ ¬ cfg.namesClassAbove 1 := by
  refine ⟨.inl ⟨4, by decide +kernel⟩, .inl ⟨4, by decide +kernel⟩, ?_, ?_⟩
  all_goals
    have hl : ∀ k, lineAt cfg k = .initial := by
      intro k
      have h0 : cfg.otu.lines = Vector.replicate 32 .initial := rfl
      unfold lineAt tabGet
      rw [h0]
      by_cases hk : k = 0
      · simp [hk]
      · by_cases h32 : k - 1 < 32
        · simp [hk, h32]
        · simp [hk, h32]
    rintro (⟨k, h, -⟩ | ⟨b, x, h, -⟩)
    · rw [hl] at h; exact h rfl
    · rw [binAt_unset _ rfl] at h; exact h rfl

theorem witness_PlansAreSoundAndBest :
    2 * workedSnapshot.endTrim ≤ 1480
      ∧ boundaries workedSnapshot 1480 workedDefects = [10, 610, 630, 1100, 1220, 1470]
      ∧ (candidate workedPle workedSnapshot workedDefects 1220 1470).map (·.value) = some 75 := by
  decide +kernel

/-- SUSPECT with a margin that leaves a range and one that leaves none, an entry of the Value Table, a strip longer than
the longest piece, a defect within an end trim, section 4.8's best records, and a candidate. -/
theorem witness_PlansAreSoundAndBest_parts :
    (let n := { workedSnapshot with gauge := .suspect, margin := 50 }
     n.gauge = .suspect ∧ n.margin ≤ n.lmax ∧ (n.lminUsed, n.lmaxUsed) = (300, 2150))
    ∧ workedSnapshot.gauge ≠ .suspect ∧ workedSnapshot.values[8 * (2 - 1) + (3 - 1)]? = some 380
    ∧ boundaries workedSnapshot 3000 [⟨3, 2, 1, 1, 0⟩] = [10, 790, 2210, 2990]
    ∧ (bests workedPle workedSnapshot workedDefects [10, 610, 630, 1100, 1220, 1470]).map (fun f => (f.value, f.count))
        = [(0, 0), (252, 1), (252, 1), (449, 2), (449, 2), (524, 3)]
    ∧ (candidate workedPle workedSnapshot workedDefects 10 610).isSome = true
    ∧ candidate workedPle workedSnapshot workedDefects 610 630 = none := by decide +kernel

/-- Each of the conditions under which a plan is empty, alone. -/
theorem witness_PlansAreSoundAndBest_empty :
    (let n := { workedSnapshot with lmin := 300, lmax := 350, gauge := .suspect, margin := 50 }
     n.lmaxUsed < n.lminUsed ∧ selectPlan workedPle n 1480 workedDefects = [])
    ∧ 260 - 2 * workedSnapshot.endTrim < workedSnapshot.lminUsed
    ∧ (let n := { workedSnapshot with values := [] }
       n.lminUsed ≤ n.lmaxUsed ∧ n.lminUsed ≤ 1480 - 2 * n.endTrim
        ∧ ((bests workedPle n workedDefects (boundaries n 1480 workedDefects)).getLast?.getD Best.none).pieces = [])
    ∧ (let n := workedSnapshot
       n.lminUsed ≤ n.lmaxUsed ∧ n.lminUsed ≤ 1480 - 2 * n.endTrim
        ∧ ((bests workedPle n workedDefects (boundaries n 1480 workedDefects)).getLast?.getD Best.none).pieces.length
          = 3) := by decide +kernel

/-- Eight knots with nine clear stretches between and beside them. -/
def nineStretches : List Defect := (List.range 8).map (fun i => ⟨200 + 200 * i, 4, 1, 7, 0⟩)

/-- Pieces of one grade, without knots. -/
def ninePle : Ple :=
  { State.reset.ple with
    gradesLoaded := true, classesLoaded := true, bounds := [150], weights := List.replicate 8 0
    grades := [{ name := txt ['A'], maxsev := List.replicate 8 0, dlim := 65535 }] }

/-- Pieces of 150 to 300 mm, worth a tenth of their length. -/
def nineSnapshot : Snapshot :=
  { workedSnapshot with endTrim := 0, lmin := 150, lmax := 300, values := List.replicate 40 100 }

/-- Nine pieces found, eight kept: with the last worth less it is dropped, and with it worth as much as seven others, the
one of highest start among them (R59). -/
theorem witness_PlansAreSoundAndBest_nine :
    ∀ l ∈ [1790, 1800],
      (let best := (bests ninePle nineSnapshot nineStretches (boundaries nineSnapshot l nineStretches)).getLast?.getD
         Best.none
       nineSnapshot.lminUsed ≤ nineSnapshot.lmaxUsed ∧ nineSnapshot.lminUsed ≤ l - 2 * nineSnapshot.endTrim
        ∧ best.pieces.reverse.map (·.value) = [20, 19, 19, 19, 19, 19, 19, 19, if l = 1790 then 18 else 19]
        ∧ selectPlan ninePle nineSnapshot l nineStretches = best.pieces.reverse.take 8) := by
  decide +kernel

/-- A part computing strip 203, with no pieces to find (L) or with the plan of section 4.8. -/
def computing (l : Nat) : State :=
  { withStrips running [{ travelling with length := some l, status := .computing
                                          scan := some { colour := 1, defects := workedDefects } }] with
    ple := { workedPle with engine := some { tag := 203, snapshot := workedSnapshot } } }

theorem witness_CompletionWritesThePlan :
    running.ple.engine = none ∧ (computing 1480).ple.engine.map (·.tag) = some 203
      ∧ (stripOf (computing 1480) 203).map (·.length) = some (some 1480)
      ∧ (∀ x ∈ (computing 1480).ltr.strips, x.tag ≠ 203 → x.eligible = false)
      ∧ selectPlan (computing 150).ple workedSnapshot 150 workedDefects = []
      ∧ selectPlan (computing 1480).ple workedSnapshot 1480 workedDefects ≠ [] := by decide +kernel

/-- States that hold the reservations of the pieces before the first and the second piece of a plan. -/
theorem witness_CompletionWritesThePlan_lookups (p q : PlannedPiece) (k : Nat) (hk : 1 ≤ k ∧ k ≤ 32) :
    (lineAt (computing 1480) k = { lineAt (computing 1480) k with
      reserved := (lineAt (computing 1480) k).reserved
        + ((([p, q].take 0).filter (fun x => x.line = some k)).map (·.net)).sum })
    ∧ lineAt (reserve p.line p.net (computing 1480)) k = { lineAt (computing 1480) k with
      reserved := (lineAt (computing 1480) k).reserved
        + ((([p, q].take 1).filter (fun x => x.line = some k)).map (·.net)).sum } := by
  refine ⟨by simp, ?_⟩
  rw [lineAt_reserve _ _ _ _ hk]
  by_cases h : p.line = some k <;> simp [h]

theorem test_plan_is_written :
    (match exec .planCompletion (computing 1480) with
      | .next t => t.ltr.strips.map (fun r => (r.status, (r.plan.getD []).length))
      | _ => []) = [(.ready, 3)] := by decide +kernel

theorem witness_LookupByLowestIndex :
    (lineAt fiveLines 9).matching 2 3 2 ∧ ¬ (lineAt fiveLines 7).matching 2 3 2 := by
  unfold OrderLine.matching; decide +kernel

/-- An ORDER_LOAD's fields for the tables of the configured part. -/
def loaded : OrderFields :=
  { reference := txt ['D', 'O', '-', '4', '4', '7', '1'] ++ List.replicate 5 0#8, grade := 2, cls := 4
    colour := .only 3, demand := 2000000000 }

theorem witness_OrderRequests :
    running.lif.reply = none ∧ loaded.reference.length = 12
      ∧ loaded.colour ∈ [Wanted.any, .only 0, .only 1, .only 2, .only 3]
      ∧ (∀ b ∈ textOf loaded.reference, 0x20 ≤ b.toNat ∧ b.toNat ≤ 0x7E)
      ∧ (lineAt running 32).state = .free ∧ (lineAt (withLine1 running order) 1).state = .opened
      ∧ (lineAt (withLine1 running { order with state := .draining }) 1).state = .draining := by decide +kernel

theorem test_order_load :
    (match exec (.orderLoad 7#8 32 loaded) running with
      | .next t => (lineAt t 32).reference
      | _ => []) = txt ['D', 'O', '-', '4', '4', '7', '1'] := by decide +kernel

theorem witness_SettingsAreReplaced : running.lif.reply = none ∧ cfg.lif.reply = none := by decide +kernel

/-- A part whose next slot boundary is reached, the slot index and feed-ready given. -/
def slotDue (s : State) (index : Nat) (ready : Bool) : State :=
  withFdp s (fun f => { f with pos := f.nextBoundary, slotIndex := index, feedReady := ready })

theorem witness_SlotsOfAFeedPeriod :
    ((slotDue running 14 true).ltr.lineState ≠ .halted ∧ (slotDue running 14 true).fdp.slotIndex < 15
      ∧ 0 ≤ ((slotDue running 14 true).fdp.pos - (slotDue running 14 true).fdp.nextBoundary).toInt
      ∧ (slotDue running 14 true).feedFree)
    ∧ ((14 + 1 + 1) * 1 / 16 > (14 + 1) * 1 / 16 ∧ ¬ (14 + 1 + 1) * 0 / 16 > (14 + 1) * 0 / 16)
    ∧ ¬ (slotDue (line .running) 3 true).feedFree
    ∧ (withTsc running (fun c => { c with cutter := .standby, runOutput := false })).tsc.cutter = .standby
    ∧ (running.fdp.pos - running.fdp.nextBoundary).toInt < 0
    ∧ ((slotDue running 15 true).fdp.slotIndex = 15 ∧ running.tsc.cutter ≠ .standby) := by
  unfold State.feedFree; decide +kernel

theorem test_slot_feeds :
    (match exec .slotEvent (slotDue running 14 true) with
      | .next t => (t.ltr.strips.map (·.tag), t.fdp.feedPulse, t.fdp.fed)
      | _ => ([], none, 0)) = ([1], some 80, 1) := by decide +kernel

/-- A part in STANDBY, its residency timer running or not. -/
def standby (resid : Option Nat) (s : State) : State :=
  withTsc s (fun c => { c with cutter := .standby, runOutput := false, residTimer := resid })

/-- HELD in STANDBY with a strip waiting: LINE holding too, or CUTTER alone, the residency timer running or not, in a
slot inside a period and in slot 0; and slots EMPTY and FED at the start of a period. -/
theorem witness_SlotsOfAFeedPeriod_standby :
    ((slotDue (standby none (line .stopping)) 3 true).ltr.lineState = .stopping
      ∧ (slotDue (standby none (line .stopping)) 3 true).fdp.feedReady = true
      ∧ ¬ (slotDue (standby none (line .stopping)) 3 true).feedFree)
    ∧ (∀ i ∈ [3, 15], ∀ m ∈ [none, some 5], (slotDue (standby m running) i true).fdp.slotIndex = i
        ∧ (slotDue (standby m running) i true).tsc.cutter = .standby
        ∧ (slotDue (standby m running) i true).tsc.residTimer = m
        ∧ (slotDue (standby m running) i true).fdp.feedReady = true
        ∧ ¬ (slotDue (standby m running) i true).feedFree
        ∧ ¬ ((standby m running).ltr.lineState ≠ .running ∨ 32 ≤ (standby m running).ltr.strips.length
          ∨ (standby m running).pfc.changeover ≠ .running ∨ verifying (standby m running) = true))
    ∧ (slotDue running 15 true).feedFree ∧ (slotDue running 15 false).fdp.feedReady = false := by
  unfold State.feedFree; decide +kernel

/-- The period's slot 0 in STANDBY, a strip waiting and the residency over: HELD, and the cutters start (R83, R108). -/
theorem test_slot_wakes :
    (match exec .slotEvent (slotDue (standby none running) 15 true) with
      | .next t => (t.fdp.slotIndex, t.fdp.held, t.fdp.heldCutter, t.tsc.cutter, t.ltr.strips.length)
      | _ => (9, 9, 9, .off, 9)) = (0, 1, 1, .spinup, 0) := by decide +kernel

theorem witness_FeedReadyFollowsItsInput :
    running.pins.feedReady = false ∧ (line .halted).ltr.lineState = .halted ∧ running.tsc.cutter ≠ .idleWait
      ∧ (withTsc running (fun c => { c with cutter := .idleWait })).tsc.cutter = .idleWait
      ∧ (withPins running (fun p => { p with feedReady := true })).pins.feedReady = true
      ∧ running.ltr.strips = [] ∧ 0 < running.tsc.heads.hysteresis := by decide +kernel

theorem witness_ProfileRequests :
    running.lif.reply = none ∧ prof.species.length = 4 ∧ prof.profileId.length = 8
      ∧ tabGet running.pfc.sets 3 = some (some prof) ∧ tabGet running.pfc.sets 8 = some none
      ∧ running.pfc.changeover = .running ∧ running.pfc.active = some 3
      ∧ (withPfc running (fun p => { p with active := some 5 })).pfc.active ≠ some 3
      ∧ (withPfc running (fun p => { p with changeover := .draining, target := some 3 })).pfc.target = some 3
      ∧ (withStrips running [fed]).ltr.strips ≠ [] := by decide +kernel

theorem witness_ProfileRequests_emptied (b : Nat) (h : (binAt running b).state = .opened) :
    (binAt running b).bundle.rowFills = [] := by rw [binAt_unset _ rfl] at h; cases h

/-- A bin with its bundle and settings of the nesting example. -/
def closable (x : Bin) : Bin := { opened x with bundle := started }

/-- A part running profile set 5, both queues empty, with a bundle open in bin 1. -/
def changing : State := withBin1 (withPfc running (fun p => { p with active := some 5 })) closable

theorem witness_ProfileRequests_closes :
    changing.lif.reply = none ∧ changing.ltr.lineState ≠ .halted ∧ tabGet changing.pfc.sets 3 = some (some prof)
      ∧ changing.pfc.changeover = .running ∧ changing.pfc.active ≠ some 3 ∧ changing.queuesEmpty
      ∧ (binAt changing 1).state = .opened ∧ (binAt changing 1).bundle.rowFills ≠ [] := by
  unfold State.queuesEmpty; decide +kernel

/-- The change drains at once: bin 1 is closed with reason PROFILE before the tooling begins (R90). -/
theorem test_profile_change_closes :
    (match exec (.profileChange 7#8 3) changing with
      | .next t => ((binAt t 1).state, (binAt t 1).reason, t.bdb.closingOrder, t.pfc.changeover, t.pfc.timer)
      | _ => (.disabled, none, [], .running, none))
      = (.closing, some .profile, [1], .tooling, some 300000) := by decide +kernel

theorem witness_ToolingEndsTheChangeover :
    running.pins.toolingReady = false
      ∧ (withPfc running (fun p => { p with changeover := .tooling, timer := some 300000, target := some 3
                                            toolingRequest := true })).pfc.timer = some 300000
      ∧ (withPins running (fun p => { p with toolingReady := true })).pins.toolingReady = true := by decide +kernel

/-- Section 7.6's strip at the saw eye, P0 = 40,000 mm, cut 10 made and 610 due. -/
def cutting : State :=
  let plan := selectPlan workedPle workedSnapshot 1480 workedDefects
  let r := { travelling with phase := .atSaw, status := .ready, plan := some plan, sawWin := none, scanWin := none }
  let c : CutList :=
    { tag := 203, p0 := umOfMm 40000, status := .ready, plan := plan, lastMade := 10, trailSeen := false
      length2 := none, slip := .unchecked
      cuts := [{ x := 10, fireAt := umOfMm 40135, state := .made },
               { x := 610, fireAt := umOfMm 40735, state := .pending },
               { x := 630, fireAt := umOfMm 40755, state := .pending }] }
  withTsc (withLtr (withStrips running [r])
    (fun l => { l with trimPos := umOfMm 40735, holder := ⟨none, none, some 203⟩ }))
    (fun t => { t with cutLists := [c] })

theorem witness_CutFallsDue :
    (cutting.tsc.cutLists.find? (fun x => x.tag == 203)).map (fun c => (c.trailSeen, c.cuts.map (fun k => (k.x, k.state))))
        = some (false, [(10, .made), (610, .pending), (630, .pending)])
      ∧ (stripOf cutting 203).map (·.tag) = some 203 ∧ cutting.ltr.lineState ≠ .halted
      ∧ 0 ≤ (cutting.ltr.trimPos - umOfMm 40735).toInt ∧ (umOfMm 40734 - umOfMm 40735).toInt < 0
      ∧ cutting.tsc.cutter = .run ∧ cutting.srt.pieces.length < 64
      ∧ (withTsc cutting (fun t => { t with cutter := .spinup })).tsc.cutter ≠ .run := by decide +kernel

theorem test_cut_610_makes_piece_1 :
    (match exec (.cutDue 203) cutting with
      | .next t => (t.srt.pieces.map (fun p => (p.tag, p.index, p.net)), t.tsc.sawFires, t.tsc.sawPulse)
      | _ => ([], 0, none)) = ([(203, 1, 600)], 1, some 40) := by decide +kernel

/-- A strip of 1,480 mm whose last piece, from 880, runs to its end: the cut at 880 in a state, the trailing edge seen or
not. -/
def atEnd (k : CutState) (seen : Bool) : State :=
  let p : PlannedPiece :=
    { start := 10, stop := 610, net := 600, grade := 1, cls := 2, value := 180, line := none, created := true }
  let plan := [p, { p with start := 880, stop := 1480, created := false }]
  let c : CutList :=
    { tag := 203, p0 := umOfMm 40000, status := .ready, plan := plan, lastMade := 610, trailSeen := seen
      length2 := if seen then some 1480 else none, slip := .unchecked
      cuts := [{ x := 10, fireAt := umOfMm 40135, state := .made }, { x := 610, fireAt := umOfMm 40735, state := .made },
               { x := 880, fireAt := umOfMm 41005, state := k }] }
  withPins (withTsc (withLtr (withStrips running
      [{ travelling with phase := .atSaw, status := .ready, plan := some plan, sawWin := none, scanWin := none }])
    (fun l => { l with trimPos := umOfMm 41480, holder := ⟨none, none, some 203⟩ }))
    (fun t => { t with cutLists := [c] })) (fun p => { p with eyes := ⟨false, false, true⟩ })

/-- The cut at 880 falls due after the trailing edge, made or missed; the piece from it ends the strip, and no piece
ends at it. -/
theorem witness_CutFallsDue_afterTheEdge :
    ((atEnd .pending true).tsc.cutLists.find? (fun x => x.tag == 203)).map (fun c => (c.trailSeen, c.cuts.map (·.state)))
        = some (true, [.made, .made, .pending])
      ∧ (stripOf (atEnd .pending true) 203).map (fun r => (r.tag, r.length)) = some (203, some 1480)
      ∧ (atEnd .pending true).ltr.lineState ≠ .halted
      ∧ 0 ≤ ((atEnd .pending true).ltr.trimPos - umOfMm 41005).toInt ∧ (atEnd .pending true).tsc.cutter = .run
      ∧ (withTsc (atEnd .pending true) (fun t => { t with cutter := .spinup })).tsc.cutter ≠ .run
      ∧ (∀ c ∈ (atEnd .made true).tsc.cutLists, pieceAtEnd c { travelling with length := some 1480 } = some 1
        ∧ ∀ p ∈ c.plan, p.stop ≠ 880)
      ∧ (∀ c ∈ cutting.tsc.cutLists, pieceAtEnd c { travelling with length := some 1480 } = none) := by decide +kernel

/-- The Piece Sort Queue full, and with one entry to spare. -/
theorem witness_CutFallsDue_full :
    64 ≤ (withPieces cutting (List.replicate 64 piece)).srt.pieces.length
      ∧ (withPieces cutting (List.replicate 63 piece)).srt.pieces.length < 64 := by decide +kernel

/-- The cut at 880 after the trailing edge creates piece 2, here counted as SORT_FULL, and ends the strip. -/
theorem test_last_cut :
    (match exec (.cutDue 203) (withPieces (atEnd .pending true) (List.replicate 64 { piece with tag := 9 })) with
      | .next t => (t.srt.sortFull, t.srt.bin0Total, t.tsc.created, t.ltr.strips.length, t.tsc.cutLists.length)
      | _ => (9, 9, 9, 9, 9)) = (1, 600, 1, 0, 0) := by decide +kernel

/-- The same strip at its trailing edge, with cuts to come. -/
def trailing (mm : Nat) : State :=
  withPins (withLtr cutting (fun l => { l with trimPos := umOfMm mm })) (fun p => { p with eyes := ⟨false, false, true⟩ })

theorem witness_SawTrailingEdges :
    watching (trailing 41480) = true ∧ (trailing 41480).pins.eyes.saw = true
      ∧ (trailing 41480).ltr.holder.saw = some 203 ∧ (stripOf (trailing 41480) 203).map (·.length) = some (some 1480)
      ∧ (1480 : Int) = max 1 (min 65535 ((((trailing 41480).ltr.trimPos - umOfMm 40000).toInt + 0 + 500) / 1000))
      ∧ (1492 : Int) = max 1 (min 65535 ((((trailing 41492).ltr.trimPos - umOfMm 40000).toInt + 0 + 500) / 1000))
      ∧ (withPins running (fun p => { p with eyes := ⟨false, false, true⟩ })).ltr.holder.saw = none := by
  decide +kernel

/-- An uncut strip at its trailing edge, the cutters not up to speed. -/
def uncutTrailing : State :=
  let r := { travelling with phase := .atSaw, status := .uncut .late, sawWin := none }
  let c : CutList :=
    { tag := 203, p0 := umOfMm 40000, status := .uncut .late, plan := [], lastMade := 0, trailSeen := false
      length2 := none, slip := .unchecked, cuts := [] }
  withPins (withTsc (withLtr (withStrips (line .running) [r])
    (fun l => { l with trimPos := umOfMm 41480, holder := ⟨none, none, some 203⟩ }))
    (fun t => { t with cutLists := [c] })) (fun p => { p with eyes := ⟨false, false, true⟩ })

theorem witness_SawTrailingEdges_uncut :
    uncutTrailing.ltr.lineState = .running ∧ uncutTrailing.pins.eyes.saw = true
      ∧ uncutTrailing.ltr.holder.saw = some 203 ∧ uncutTrailing.srt.pieces.length < 64
      ∧ uncutTrailing.pfc.changeover = .running ∧ uncutTrailing.tsc.cutter ≠ .run
      ∧ ((lengthOf (uncutTrailing.ltr.trimPos - umOfMm 40000).toInt 0 : Nat) : Int) - 1480 ≤ 10
      ∧ uncutTrailing.ltr.holder.measure ≠ some 203 ∧ uncutTrailing.ple.engine = none := by decide +kernel

/-- A READY strip at its trailing edge: its last piece from a cut made, its last piece's cut pending, a cut missed. -/
theorem witness_SawTrailingEdges_ready :
    (watching (atEnd .made false) = true ∧ (atEnd .made false).pins.eyes.saw = true
      ∧ (atEnd .made false).ltr.holder.saw = some 203 ∧ (stripOf (atEnd .made false) 203).map (·.tag) = some 203
      ∧ (1480 : Int) = max 1 (min 65535 ((((atEnd .made false).ltr.trimPos - umOfMm 40000).toInt + 0 + 500) / 1000)))
    ∧ (∀ c ∈ (atEnd .made false).tsc.cutLists, c.status = .ready ∧ (∀ k ∈ c.cuts, k.state ≠ .missed)
      ∧ (∀ k ∈ c.cuts, k.state ≠ .pending) ∧ pieceAtEnd c { travelling with length := some 1480 } = some 1)
    ∧ (∀ c ∈ (atEnd .pending false).tsc.cutLists, (∀ k ∈ c.cuts, k.state ≠ .missed)
      ∧ pieceAtEnd c { travelling with length := some 1480 } = none ∧ ∃ k ∈ c.cuts, k.state = .pending)
    ∧ (∀ c ∈ (atEnd .missed false).tsc.cutLists, ∃ k ∈ c.cuts, k.state = .missed) := by decide +kernel

/-- A strip at the saw whose length is still absent. -/
theorem witness_SawTrailingEdges_absent :
    (let s := withStrips uncutTrailing [{ travelling with phase := .atSaw, status := .uncut .noLength, length := none }]
     watching s = true ∧ s.pins.eyes.saw = true ∧ s.ltr.holder.saw = some 203
      ∧ (stripOf s 203).map (fun r => (r.tag, r.length)) = some (203, none)
      ∧ (s.tsc.cutLists.find? (fun x => x.tag == 203)).map (·.status) = some (.uncut .late)) := by decide +kernel

theorem test_uncut_piece :
    (match exec .sawTrailingEdge uncutTrailing with
      | .next t => (t.srt.pieces.map (fun p => (p.index, p.net, p.grade)), t.ltr.strips.length, t.tsc.cutLists.length)
      | _ => ([], 9, 9)) = ([(0, 1480, 0)], 0, 0) := by decide +kernel

theorem test_slip :
    (match exec .sawTrailingEdge (trailing 41492) with
      | .next t => t.tsc.cutLists.map (fun c => (c.length2, c.slip))
      | _ => []) = [(some 1492, .slip)] := by decide +kernel

theorem witness_CutterTimersExpire :
    (withTsc running (fun c => { c with cutter := .spinup, spinTimer := some 1 })).tsc.spinTimer = some 1
      ∧ running.tsc.cutter ≠ .spinup ∧ running.ltr.strips = [] ∧ running.fdp.feedReady = false
      ∧ 0 < running.tsc.heads.hysteresis ∧ (withStrips running [fed]).ltr.strips ≠ []
      ∧ (withTsc running (fun c => { c with cutter := .idleWait, hystTimer := some 0 })).tsc.hystTimer = some 0
      ∧ (withTsc running (fun c => { c with cutter := .standby, residTimer := some 0, wake := true })).tsc.wake
        = true := by decide +kernel

/-- A part with the piece of strip 203 due at the drop eye and an order line behind it. -/
def dropping : State := withLine1 (withPieces running [{ piece with line := some 1 }]) order

theorem witness_DropEyeEdges :
    dropping.pins.drop = false ∧ dropping.ltr.lineState = .running ∧ dropping.pfc.changeover = .running
      ∧ dropping.srt.pieces.find? Piece.isExpected = some { piece with line := some 1 }
      ∧ (∀ p ∈ running.srt.pieces, p.isExpected = false)
      ∧ (withPins running (fun p => { p with drop := true })).pins.drop = true
      ∧ (line .halted).ltr.lineState = .halted ∧ (line .stopped).ltr.lineState = .stopped
      ∧ (lineAt dropping 1).state ≠ .draining
      ∧ (∀ q ∈ running.srt.pieces, ¬ (q.tag = 203 ∧ q.index = 1))
      ∧ (3000000#32 - 3000000#32 : Pos).toInt ≤ 0 ∧ 0 < (3000001#32 - 3000000#32 : Pos).toInt := by decide +kernel

theorem witness_DropEyeEdges_noBin (b : Nat) :
    (binAt dropping b).state = .opened → ¬ entryTakes (entryAt dropping b) { piece with line := some 1 } := by
  intro h
  rw [binAt_unset _ rfl] at h
  cases h

/-- Bin 1 takes the piece: OPEN, matching, and its bundle accepts. -/
theorem witness_DropEyeEdges_bin1 :
    (binAt (withBin1 dropping opened) 1).state = .opened
      ∧ entryTakes (entryAt (withBin1 dropping opened) 1) { piece with line := some 1 }
      ∧ (offer (binAt (withBin1 dropping opened) 1) 600 3 (tallyKey dropping (some 1))).2 = true := by
  unfold entryTakes; decide +kernel

/-- A bin whose ten rows leave no room for the piece. -/
def crowded (x : Bin) : Bin :=
  { opened x with bundle := { started with rowFills := List.replicate 10 1600, inRow := 2 } }

/-- Bin 1 crowded, and bin 2 OPEN or not. -/
def refusing (f : Bin → Bin) : State :=
  let s := withBin1 dropping crowded
  { s with bdb := { s.bdb with bins := tabMod s.bdb.bins 2 f }
           srt := { s.srt with entries := tabMod s.srt.entries 2 (fun _ => takesAll) } }

/-- Bin 1, OPEN and matching, refuses the piece; bin 2 accepts it, fills with it, or is not open: NO_BIN. -/
theorem witness_DropEyeEdges_refusal :
    ((binAt (refusing opened) 1).state = .opened
      ∧ entryTakes (entryAt (refusing opened) 1) { piece with line := some 1 }
      ∧ (offer (binAt (refusing opened) 1) 600 3 (tallyKey dropping (some 1))).2 = false
      ∧ (offer (binAt (refusing opened) 1) 600 3 (tallyKey dropping (some 1))).1.refusedSpace = 1)
    ∧ ((binAt (refusing opened) 2).state = .opened
      ∧ entryTakes (entryAt (refusing opened) 2) { piece with line := some 1 }
      ∧ (offer (binAt (refusing opened) 2) 600 3 (tallyKey dropping (some 1))).2 = true)
    ∧ (let x := { closable .initial with settings := { nest with rows := 1 }
                                         bundle := { started with rowFills := [1400] } }
       (offer x 600 3 (tallyKey dropping (some 1))).2 = true
        ∧ bundleFull (offer x 600 3 (tallyKey dropping (some 1))).1 = true)
    ∧ (binAt (refusing id) 2).state ≠ .opened := by
  unfold entryTakes; decide +kernel

/-- Below bin 2 only bin 1 is OPEN. -/
theorem witness_DropEyeEdges_below (j : Nat) (h : j < 2) : (binAt (refusing opened) j).state = .opened → j = 1 := by
  interval_cases j
  · intro h; exact absurd h (by decide +kernel)
  · intro; rfl

/-- Pieces FORCED and of GRADE_0; the line of the piece DRAINING; STOPPING and a drain that its removal ends. -/
theorem witness_DropEyeEdges_bin0 :
    ((withPieces running [{ piece with force := true }]).srt.pieces.find? Piece.isExpected).map (·.force) = some true
      ∧ ((withPieces running [{ piece with grade := 0 }]).srt.pieces.find? Piece.isExpected).map
        (fun p => (p.force, p.grade)) = some (false, 0)
      ∧ (lineAt (withLine1 dropping { order with state := .draining }) 1).state = .draining
      ∧ (withLtr dropping (fun l => { l with lineState := .stopping })).ltr.lineState = .stopping
      ∧ (withPfc dropping (fun p => { p with changeover := .draining })).pfc.changeover = .draining
      ∧ dropping.ltr.strips = [] ∧ dropping.srt.pieces.length = 1 := by decide +kernel

/-- In STOPPING the window of the last piece expires: told, its DRAINING line freed, and the line stops. -/
theorem test_drop_expiry :
    (match exec (.dropWindowExpiry 203 1) { withLine1 (withLtr dropping (fun l => { l with lineState := .stopping }))
          { order with state := .draining } with srt := { dropping.srt with pos := 3000001#32 } } with
      | .next t => (t.lif.notices.map (·.notice.code), (lineAt t 1).state, t.ltr.lineState, t.srt.missing)
      | _ => ([], .opened, .running, 9))
      = ([(Notice.orderDone 1 [] 0 0 0 false).code, (Notice.pieceLost 0 0 0 0 0 false).code,
          (Notice.lineState .stopped .stopping .drained).code, (Notice.cutterState .off .run .line).code],
          .free, .stopped, 1) := by decide +kernel

/-- The piece in bin 1 fires at the drop edge plus 550 mm and is counted as incoming. -/
theorem test_assigned :
    (match exec .dropLeadingEdge (withBin1 dropping opened) with
      | .next t => (t.srt.pieces.map (·.place), (binAt t 1).incoming, (binAt t 1).bundle.rowFills)
      | _ => ([], 0, [])) = ([.assigned 1 0#32 550000#32], 1, [600]) := by decide +kernel

/-- With every bin DISABLED the piece goes to bin 0 and its reservation is released. -/
theorem test_no_bin :
    (match exec .dropLeadingEdge dropping with
      | .next t => (t.srt.noBin, t.srt.bin0Total, (lineAt t 1).reserved, t.srt.pieces.length)
      | _ => (9, 9, 9, 9)) = (1, 600, 0, 0) := by decide +kernel

/-- The piece ASSIGNED to bin 1, at its fire position. -/
def firing : State :=
  let s := withPieces dropping [{ piece with line := some 1, place := .assigned 1 0#32 550000#32 }]
  let t := { s with srt := { s.srt with pos := 550000#32 } }
  withBin1 t (fun x => { opened x with bundle := started, incoming := 1 })

theorem witness_FiringLandsThePiece :
    (firing.srt.pieces.find? (fun q => q.tag == 203 && q.index == 1)).map (·.place)
        = some (.assigned 1 0#32 550000#32)
      ∧ 0 ≤ (firing.srt.pos - 550000#32).toInt ∧ (dropping.srt.pos - 550000#32).toInt < 0
      ∧ firing.ltr.lineState = .running ∧ firing.pfc.changeover = .running ∧ (lineAt firing 1).state = .opened
      ∧ (binAt firing 1).state = .opened ∧ firing.lcp.hold = false
      ∧ (lineAt firing 1).filled = false := by decide +kernel

/-- At the landing the line is credited, the bundle's landed fields rise and the diverter is driven. -/
theorem test_landing :
    (match exec (.diverterFire 203 1) firing with
      | .next t => ([(lineAt t 1).reserved, (lineAt t 1).fulfilled, (binAt t 1).incoming,
          (binAt t 1).bundle.landed, (binAt t 1).bundle.lineal, t.srt.pieces.length], t.srt.diverters[0])
      | _ => ([], none)) = ([0, 600, 0, 1, 600, 0], some 120) := by decide +kernel

/-- The last piece of a line that stops, on a DRAINING order line, into a bin that waits for it, under the hold. -/
def lastLanding (hold : Bool) : State :=
  withLcp (withLine1 (withLtr (withBin1 firing (fun x =>
      { x with state := .closePending, reason := some .requested }))
    (fun l => { l with lineState := .stopping })) { order with state := .draining })
    (fun l => { l with hold := hold })

theorem witness_FiringLandsThePiece_closing :
    ∀ hold ∈ [true, false], ((lastLanding hold).srt.pieces.find? (fun q => q.tag == 203 && q.index == 1)).map (·.place)
        = some (.assigned 1 0#32 550000#32)
      ∧ 0 ≤ ((lastLanding hold).srt.pos - 550000#32).toInt ∧ (lastLanding hold).ltr.lineState = .stopping
      ∧ (lineAt (lastLanding hold) 1).state = .draining ∧ (lineAt (lastLanding hold) 1).reserved ≤ 600
      ∧ (binAt (lastLanding hold) 1).state = .closePending ∧ (binAt (lastLanding hold) 1).incoming = 1
      ∧ (lastLanding hold).lcp.hold = hold ∧ (lastLanding hold).ltr.strips = [] := by decide +kernel

/-- It frees the order line, closes the bin at once and stops the line, told in this order (R77, R137, R18). -/
theorem test_last_landing :
    (match exec (.diverterFire 203 1) (lastLanding true) with
      | .next t => (t.lif.notices.map (·.notice.code), (lineAt t 1).state, (binAt t 1).state, t.ltr.lineState)
      | _ => ([], .opened, .disabled, .running))
      = ([(Notice.orderDone 1 [] 0 0 0 false).code, (Notice.bundleClosed 0 0 .full 0 0 0).code,
          (Notice.lineState .stopped .stopping .drained).code, (Notice.cutterState .off .run .line).code],
          .free, .waitCart, .stopped) := by decide +kernel

theorem witness_PulsesEnd : tabGet running.srt.diverters 14 = some none := by decide +kernel

theorem witness_BinRequests :
    running.lif.reply = none ∧ (line .halted).ltr.lineState = .halted
      ∧ (running.ple.gradesLoaded = true ∧ running.ple.classesLoaded = true)
      ∧ (takesAll.colour ∈ [Wanted.any, .only 0, .only 1, .only 2, .only 3] ∧ takesAll.classSet ≠ 0#8)
      ∧ (binAt running 14).state = .disabled
      ∧ ((binAt (withBin1 running opened) 1).state = .opened ∧ (binAt (withBin1 running opened) 1).bundle.rowFills = [])
      ∧ ((binAt (withBin1 running closable) 1).bundle.rowFills ≠ [] ∧ (binAt (withBin1 running closable) 1).incoming = 0
        ∧ (withBin1 running closable).lcp.hold = false)
      ∧ 0 < (binAt firing 1).incoming
      ∧ (binAt (withBin1 running (fun x => { closable x with state := .waitCart })) 1).state = .waitCart := by
  decide +kernel

theorem witness_BinRequests_classes :
    ∀ c, takesAll.classSet.getLsbD c = true → c < running.ple.bounds.length := by
  intro c h
  have hc : c < 8 := by
    by_contra hn
    rw [BitVec.getLsbD_of_ge _ _ (by omega)] at h
    cases h
  have : running.ple.bounds.length = 4 := rfl
  interval_cases c <;> first | decide | (revert h; decide)

theorem witness_AcceptanceTest :
    (let x := closable .initial
     (x.bundle.rowFills ≠ [] ∧ x.bundle.rowFills.getLast?.getD 0 + 0 + 1500 ≤ x.settings.length)
      ∧ ¬ x.bundle.rowFills.getLast?.getD 0 + 0 + 1501 ≤ x.settings.length
      ∧ ¬ (2101 ≤ x.settings.length)
      ∧ ¬ ({ x with bundle := { started with shorts := 5001 } }.bundle.shorts + 250
          ≤ x.settings.shortsShare * x.settings.length * x.settings.rows / 100)
      ∧ (∃ y ∈ x.bundle.tallies, y.key = .stock)
      ∧ { x with bundle := { started with tallies := List.replicate 6 ⟨.stock, 0, 0⟩ } }.bundle.tallies.length = 6) := by
  decide +kernel

/-- Bin 1 ready to close, with the hold set. -/
def closing : State := withLcp (withBin1 running closable) (fun l => { l with hold := true })

theorem witness_CloseCompletionWritesTheManifest :
    closing.lif.reply = none ∧ closing.ltr.lineState ≠ .halted ∧ (binAt closing 1).state = .opened
      ∧ (binAt closing 1).bundle.rowFills ≠ [] ∧ (binAt closing 1).incoming = 0
      ∧ (binAt closing 1).discharge = none ∧ closing.bdb.closingOrder = [] ∧ closing.bdb.manifests.length < 32
      ∧ closing.lcp.hold = true ∧ (slotAt closing 1).state = .free := by decide +kernel

/-- The manifest with an order's tally, one of stock, four unused, and a count of class 8. -/
def tallied : Manifest :=
  { manifest with tallies := [⟨.order (txt ['A', '1']), 300, 70000⟩, ⟨.stock, 2, 900⟩]
                  perClass := (Vector.replicate 8 0).set 7 259 }

/-- Each premise of the record's layout is met at the ends of its range. -/
theorem witness_CloseCompletionWritesTheManifest_record :
    tabGet tallied.perClass 1 = some 0 ∧ tabGet tallied.perClass 8 = some 259
      ∧ tallied.tallies[0]? = some ⟨.order (txt ['A', '1']), 300, 70000⟩ ∧ tallied.tallies[1]? = some ⟨.stock, 2, 900⟩
      ∧ tallied.tallies.length ≤ 5 := by decide +kernel

/-- Offsets of the table of section 12.6: number and bin, class 8, both tallies, the first byte of an unused one. -/
theorem test_manifest_record :
    (tallied.record.take 5, (tallied.record.drop 21).take 2, (tallied.record.drop 35).take 20, tallied.record[73]?,
      tallied.record.length)
    = ([0, 0, 2, 0, 1], [1, 3], [0, 0x41, 0x31, 0, 0, 0, 0, 0, 0, 0, 0, 0, 0, 1, 0x2C, 0, 1, 0x11, 0x70, 1], some 0,
        181) := by decide +kernel

theorem test_close_completion :
    (match exec (.binClose 7#8 1) closing with
      | .next t => (t.bdb.manifests.map (fun m => (m.number, m.rows, m.profile)), (slotAt t 1).state,
          (binAt t 1).state, t.lcp.engine)
      | _ => ([], .fault, .disabled, none)) = ([(1, 1, 3)], .rendering, .waitCart, some 1) := by decide +kernel

/-- A part in which bins 2 and 1 wait in CLOSING, in this order, under the hold or without it. -/
def waiting (hold : Bool) (s : State) : State :=
  let t := withBin1 s (fun x => { closable x with state := .closing, reason := some .full })
  withLcp { t with bdb := { t.bdb with
      bins := tabMod t.bdb.bins 2 (fun x => { closable x with state := .closing, reason := some .full })
      closingOrder := [2, 1] } } (fun l => { l with hold := hold })

/-- A part with bin 3 ready to close. -/
def closing3 (s : State) : State := { s with bdb := { s.bdb with bins := tabMod s.bdb.bins 3 closable } }

/-- Every slot holds a label. -/
def noSlot (s : State) : State :=
  withPrq s (fun p => { p with slots := p.slots.map (fun x => { x with state := .queued }) })

/-- Bin 3 joins bins that wait: all resources there, a slot lacking under the hold, a manifest entry lacking under the
hold, the hold lacking; and with a piece incoming it waits in CLOSE_PENDING. -/
theorem witness_CloseCompletionWritesTheManifest_waiting :
    (∀ s ∈ [closing3 (waiting true running), noSlot (closing3 (waiting true running)),
        withManifests (closing3 (waiting true running)) (List.replicate 32 manifest), closing3 (waiting false running)],
      s.lif.reply = none ∧ s.ltr.lineState ≠ .halted ∧ (binAt s 3).state = .opened ∧ (binAt s 3).bundle.rowFills ≠ []
        ∧ s.bdb.closingOrder = [2, 1])
    ∧ (slotAt (closing3 (waiting true running)) 1).state = .free
    ∧ (∀ k ∈ [1, 2, 3, 4], (slotAt (noSlot (waiting true running)) k).state ≠ .free)
    ∧ 32 ≤ (withManifests running (List.replicate 32 manifest)).bdb.manifests.length
    ∧ (waiting true running).lcp.hold = true ∧ (waiting false running).lcp.hold = false
    ∧ (binAt firing 1).state = .opened ∧ (binAt firing 1).incoming = 1 := by decide +kernel

/-- Bins 2, 1 and 3 complete in this order, into slots 1 to 3; the reply tells WAIT_CART (R138, R139). -/
theorem test_closes_in_order :
    (match exec (.binDisable 7#8 3) (closing3 (waiting true running)) with
      | .next t => (t.bdb.manifests.map (fun m => (m.number, m.bin)), t.bdb.closingOrder,
          t.lcp.renderOrder.map (·.slot), t.lif.reply.map (·.data))
      | _ => ([], [9], [], none)) = ([(1, 2), (2, 1), (3, 3)], [], [1, 2, 3], some [4#8]) := by decide +kernel

/-- Without a slot bin 3 joins the order and waits; the reply tells CLOSING. -/
theorem test_close_waits :
    (match exec (.binClose 7#8 3) (noSlot (closing3 (waiting true running))) with
      | .next t => (t.bdb.manifests.length, t.bdb.closingOrder, (binAt t 3).state, t.lif.reply.map (·.data))
      | _ => (9, [], .disabled, none)) = (0, [2, 1, 3], .closing, some [3#8]) := by decide +kernel

/-- A full table whose oldest manifest is taken while bins wait: one entry for two bins. -/
theorem witness_ManifestsCartsAndDischarge_waiting :
    (let s := withManifests (waiting true running) (manifest :: List.replicate 31 { manifest with number := 9 })
     s.lif.reply = none ∧ s.bdb.manifests.find? (fun m => m.number == 512) = some manifest
      ∧ s.bdb.manifests.length = 32 ∧ (s.bdb.manifests.filter (fun m => m.number ≠ 512)).length < 32
      ∧ s.bdb.closingOrder = [2, 1] ∧ s.lcp.hold = true ∧ (slotAt s 1).state = .free) := by decide +kernel

/-- Bin 2 completes into the entry, bin 1 waits on. -/
theorem test_take_lets_a_bin_close :
    (match exec (.manifestTake 7#8 512)
        (withManifests (waiting true running) (manifest :: List.replicate 31 { manifest with number := 9 })) with
      | .next t => (t.bdb.manifests.length, t.bdb.closingOrder, (binAt t 2).state, (binAt t 1).state)
      | _ => (9, [], .disabled, .disabled)) = (32, [1], .waitCart, .closing) := by decide +kernel

theorem witness_ManifestsCartsAndDischarge :
    (withManifests running [manifest]).lif.reply = none
      ∧ (withManifests running [manifest]).bdb.manifests.find? (fun m => m.number == 512) = some manifest
      ∧ manifest.label ≠ .pending ∧ manifest.discharged = true
      ∧ { manifest with label := .pending }.label = .pending ∧ (∀ m ∈ running.bdb.manifests, m.number ≠ 512)
      ∧ running.bdb.closingOrder = [] ∧ tabGet running.pins.carts 14 = some false
      ∧ (tabGet (withBin1 running (fun x => { closable x with state := .waitCart, discharge := some 0 })).bdb.bins 1).map
          (fun x => (x.state, x.discharge)) = some (.waitCart, some 0)
      ∧ (binAt running 1).state ≠ .waitCart := by decide +kernel

theorem witness_CounterWalksTheWindow :
    running.lif.reply = none ∧ running.lcp.hold = false
      ∧ advances ⟨100, 111, 20, 22⟩ ((111 - 100 + 1) * (22 - 20 + 1)) 104 21 = (104, 21) := by decide +kernel

theorem witness_BytesDrawThroughTheWindow :
    running.lif.reply = none ∧ running.lcp.hold = false ∧ running.counterInside
      ∧ (visited running.lcp.window 8 running.lcp.addrX running.lcp.addrY).Nodup
      ∧ (visited ⟨100, 111, 20, 22⟩ 8 108 22).Nodup := by
  unfold State.counterInside; decide +kernel

theorem witness_TemplateReadAndClear :
    running.lif.reply = none ∧ running.lcp.hold = false ∧ rendering.lcp.hold = true
      ∧ (visited running.lcp.window 8 running.lcp.addrX running.lcp.addrY)[7]? = some (7, 0) := by decide +kernel

theorem witness_ComposerTablesAndHold :
    running.lif.reply = none ∧ running.lcp.hold = false ∧ running.bdb.closingOrder = []
      ∧ (List.replicate 48 0xFF#8).length = 48 * 1 ∧ 0x20 ≤ 0x7F ∧ 0x7F + 1 - 1 ≤ 0x7F
      ∧ (∃ x ∈ rendering.prq.slots.toList, x.state = .rendering)
      ∧ (∀ x ∈ running.prq.slots.toList, x.state ≠ .rendering) := by decide +kernel

/-- The hold set while bins wait, with slots and without. -/
theorem witness_ComposerTablesAndHold_waiting :
    (waiting false running).lif.reply = none ∧ (waiting false running).lcp.hold = false
      ∧ (waiting false running).bdb.closingOrder = [2, 1] ∧ (slotAt (waiting false running) 1).state = .free
      ∧ (slotAt (noSlot (waiting false running)) 1).state ≠ .free := by decide +kernel

/-- Both complete when the hold is set. -/
theorem test_hold_closes :
    (match exec (.tplHold 7#8) (waiting false running) with
      | .next t => (t.bdb.manifests.map (·.bin), t.bdb.closingOrder, t.lcp.hold, t.lcp.engine)
      | _ => ([], [9], false, none)) = ([2, 1], [], true, some 1) := by decide +kernel

/-- Slot 1 under the engine, its manifest 512 in the table. -/
def composing : State :=
  withManifests (withLcp rendering (fun l => { l with
    engine := some 1
    renderOrder := [{ slot := 1, bundle := 512, gradeName := [], classCount := 4, profileId := [], species := [] }]
    fields := tabMod l.fields 9 (fun _ => some { kind := 12, x := 300, y := 200, glyphSet := 0, scale := 0
                                                 maxChars := 0, align := 0, ink := 0, moduleWidth := 1
                                                 height := 8 }) }))
    [{ manifest with label := .pending }]

theorem witness_RenderingQueuesTheLabel :
    composing.lcp.engine = some 1 ∧ composing.lcp.renderOrder.map (fun r => (r.slot, r.bundle)) = [(1, 512)]
      ∧ (composing.bdb.manifests.find? (fun m => m.number == 512)).isSome = true
      ∧ composing.pins.printReady = false ∧ running.lcp.engine = none := by decide +kernel

/-- With the print engine ready the start test finds slot 1. -/
theorem witness_RenderingQueuesTheLabel_ready :
    (withPins composing (fun p => { p with printReady := true })).lcp.engine = some 1
      ∧ (withPins composing (fun p => { p with printReady := true })).pins.printReady = true
      ∧ composing.pins.printFault = false ∧ composing.prq.port = .idle
      ∧ (∀ x ∈ composing.prq.slots.toList, x.state ≠ .fault) ∧ composing.prq.order ++ [1] = 1 :: [] := by
  decide +kernel

/-- Entry 9 has the label's pixel (300, 200) as a target, and one past the edge; no later entry is used. -/
theorem witness_RenderingQueuesTheLabel_field (r : RenderRecord) :
    ∃ f, tabGet composing.lcp.fields 9 = some (some f) ∧ fieldCovers f composing.lcp manifest r true 300 200
      ∧ (∃ x, fieldCovers f composing.lcp manifest r true x 200 ∧ pastEdge x 200)
      ∧ ∀ n f', 9 < n → tabGet composing.lcp.fields n ≠ some (some f') := by
  refine ⟨_, rfl, ⟨fun _ => ⟨rfl, 0, 3, 0, 0, by decide +kernel⟩, fun h => absurd rfl h⟩,
    ⟨467, ⟨fun _ => ⟨rfl, 49, 3, 2, 0, by decide +kernel⟩, fun h => absurd rfl h⟩, .inr (.inl (by decide))⟩, ?_⟩
  intro n f' hn h
  have other : tabGet composing.lcp.fields n = tabGet (Vector.replicate 16 (none : Option Field)) n :=
    tabGet_tabMod_other _ _ _ _ (by omega)
  rw [other] at h
  unfold tabGet at h
  split at h
  · cases h
  · exact absurd (Vector.mem_replicate.1 (Vector.mem_of_getElem? h)).2 (by simp)

/-- The strip of 168 modules from column 300 reaches column 467: it is drawn to the edge and listed. -/
theorem test_render_clips :
    (match exec .renderCompletion composing with
      | .next t => (t.bdb.manifests.map (·.clipped), Image.pixel (slotAt t 1).image 300 200,
          Image.pixel (slotAt t 1).image 303 200, t.prq.order)
      | _ => ([], false, true, [])) = ([[9]], true, false, [1]) := by decide +kernel

theorem witness_FieldsAndCodeStrips :
    (512 < 4294967296 ∧ (List.range 48).countP (fun k => ((BitVec.ofNat 32 512) ++ 0x29B1#16).getLsbD k) = 8)
      ∧ (let a := drawTargets (Vector.replicate 4 none) true [⟨448, 0, false⟩, ⟨5, 5, true⟩, ⟨6, 5, false⟩] 0#114688
        a.2 = true ∧ Image.pixel a.1 5 5 = true ∧ Image.pixel a.1 6 5 = false) := by decide +kernel

/-- A date in eight SMALL cells at scale 2 from column 440, row 240, as field 9 of section 10.10. -/
def dateField : Field :=
  { kind := 9, x := 440, y := 240, glyphSet := 0, scale := 2, maxChars := 8, align := 0, ink := 0
    moduleWidth := 0, height := 0 }

/-- Section 10.10, event 5: the columns past 447 of such an entry 9 list it, here with every glyph pixel blank: nothing
is drawn. -/
theorem test_blank_pixels_clip :
    (match exec .renderCompletion (withManifests (withLcp composing (fun l => { l with
          fields := tabMod l.fields 9 (fun _ => some dateField) }))
        [{ manifest with label := .pending, date := txt ['2', '6', '.', '0', '3', '.', '1', '4'] }]) with
      | .next t => (t.bdb.manifests.map (·.clipped), (slotAt t 1).image)
      | _ => ([], 1#114688)) = ([[9]], 0#114688) := by decide +kernel

theorem witness_FieldsAndCodeStrips_texts :
    4294967295 < 10 ^ 20 ∧ manifest.tallies = [] ∧ manifest.gauge = .pass
      ∧ ({ manifest with tallies := [⟨.stock, 1, 600⟩, ⟨.order [], 2, 720⟩] } : Manifest).tallies
        = ⟨.stock, 1, 600⟩ :: [⟨.order [], 2, 720⟩] := by decide +kernel

/-- Slot 1 in a state, holding bundle 512, with the manifest in the table. -/
def slot1 (st : SlotState) : State :=
  withManifests (withPrq running (fun p => { p with
    slots := tabMod p.slots 1 (fun x => { x with state := st, bundle := some 512, attempts := 1 }) }))
    [{ manifest with label := .pending }]

theorem witness_PrintRequestsAndStarts :
    running.lif.reply = none ∧ (∀ x ∈ running.prq.slots.toList, x.state ≠ .fault)
      ∧ ((tabGet (slot1 .fault).prq.slots 1).map (fun x => (x.state, x.bundle)) = some (.fault, some 512)
        ∧ (slot1 .fault).pins.printReady = false ∧ (slot1 .fault).bdb.closingOrder = [])
      ∧ (running.pins.printReady = false
        ∧ (withPins running (fun p => { p with printFault := true })).pins.printFault = true
        ∧ (withPrq running (fun p => { p with port := .done, donePulse := some 0 })).prq.port = .done)
      ∧ ((withPrq (slot1 .queued) (fun p => { p with order := [1] })).prq.order = 1 :: []
        ∧ (slot1 .queued).prq.port = .idle ∧ (slot1 .queued).pins.printFault = false) := by decide +kernel

theorem witness_PrintRequestsAndStarts_others (j : Nat) (y : Slot) (h : j ≠ 1)
    (hy : tabGet (slot1 .fault).prq.slots j = some y) : y.state ≠ .fault := by
  have : tabGet (slot1 .fault).prq.slots j = tabGet running.prq.slots j := tabGet_tabMod_other _ _ _ _ h
  rw [this] at hy
  unfold tabGet at hy
  split at hy
  · cases hy
  · have hm : y ∈ running.prq.slots := Vector.mem_of_getElem? hy
    have : y = Slot.initial := by
      have hr : running.prq.slots = Vector.replicate 4 Slot.initial := rfl
      rw [hr] at hm
      exact (Vector.mem_replicate.1 hm).2
    rw [this]
    decide +kernel

/-- A label in FAULT, another behind it, the print engine ready, and bins waiting. -/
def faulty : State :=
  withPins (withPrq (waiting true (slot1 .fault)) (fun p => { p with
    slots := (p.slots.set 1 { Slot.initial with state := .queued, bundle := some 7 }).set 2
      { Slot.initial with state := .queued, bundle := some 8 }
    order := [2, 3] })) (fun p => { p with printReady := true })

theorem witness_PrintRequestsAndStarts_ready :
    faulty.lif.reply = none ∧ (tabGet faulty.prq.slots 1).map (fun x => (x.state, x.bundle)) = some (.fault, some 512)
      ∧ (∀ j ∈ [2, 3, 4], (slotAt faulty j).state ≠ .fault) ∧ faulty.prq.port = .idle ∧ faulty.prq.order = [2, 3]
      ∧ faulty.pins.printReady = true ∧ faulty.pins.printFault = false ∧ faulty.bdb.closingOrder = [2, 1]
      ∧ faulty.lcp.hold = true ∧ (slotAt faulty 4).state = .free := by decide +kernel

/-- PRINT_RETRY starts the label at once. -/
theorem test_retry_starts :
    (match exec (.printRetry 7#8) faulty with
      | .next t => ((slotAt t 1).state, (slotAt t 1).attempts, t.prq.port, t.prq.sending, t.prq.order)
      | _ => (.free, 0, .idle, 9, [])) = (.printing, 2, .busy, 1, [2, 3]) := by decide +kernel

/-- PRINT_DROP loses the label, completes bin 2 into its slot and bin 1 into slot 4, and starts the next label. -/
theorem test_drop_starts :
    (match exec (.printDrop 7#8) faulty with
      | .next t => (t.bdb.manifests.map (fun m => (m.bin, m.label)), t.bdb.closingOrder, t.prq.sending, t.prq.order,
          t.lcp.renderOrder.map (·.slot))
      | _ => ([], [], 9, [], [])) = ([(1, .lost), (2, .pending), (1, .pending)], [], 2, [3], [1, 4]) := by
  decide +kernel

/-- Slot 1 PRINTING with its row n in transfer. -/
def printing (n : Nat) : State :=
  withPrq (slot1 .printing) (fun p => { p with
    port := .busy, sending := 1, rowsSent := n, transfer := some [], timer := some 20000 })

theorem witness_RowsAndPrintFaults :
    (running.pins.rowRequest = false ∧ (printing 3).prq.port = .busy ∧ (printing 3).prq.transfer = some []
      ∧ (withPrq (printing 3) (fun p => { p with transfer := none })).prq.transfer = none
      ∧ (withPins running (fun p => { p with rowRequest := true })).pins.rowRequest = true)
    ∧ ((printing 254).prq.rowsSent ≠ 255 ∧ (printing 255).prq.rowsSent = 255
      ∧ (tabGet (printing 255).prq.slots 1).map (·.bundle) = some (some 512) ∧ (printing 255).bdb.closingOrder = [])
    ∧ ((printing 3).pins.printFault = false ∧ (printing 3).prq.timer = some 20000 ∧ running.prq.port ≠ .busy
      ∧ (withPins running (fun p => { p with printFault := true })).pins.printFault = true
      ∧ running.prq.transfer = none) := by decide +kernel

theorem test_label_end :
    (match exec .rowTransferEnd (printing 255) with
      | .next t => (t.prq.port, (slotAt t 1).state, t.bdb.manifests.map (·.label), t.prq.donePulse)
      | _ => (.idle, .fault, [], none)) = (.done, .free, [.printed], some 2) := by decide +kernel

/-- The last row's transfer while bins wait, the other slots taken. -/
def lastRow : State :=
  withPrq (noSlot (waiting true running)) (fun p => { p with
    slots := tabMod p.slots 1 (fun x => { x with state := .printing, bundle := some 512, attempts := 1 })
    port := .busy, sending := 1, rowsSent := 255, transfer := some [], timer := some 20000 })

theorem witness_RowsAndPrintFaults_waiting :
    lastRow.prq.transfer = some [] ∧ lastRow.prq.rowsSent = 255
      ∧ (tabGet lastRow.prq.slots 1).map (·.bundle) = some (some 512) ∧ lastRow.bdb.closingOrder = [2, 1]
      ∧ lastRow.lcp.hold = true ∧ lastRow.bdb.manifests.length < 32
      ∧ (∀ k ∈ [2, 3, 4], (slotAt lastRow k).state ≠ .free) := by decide +kernel

/-- Bin 2 completes into the slot the printed label leaves; bin 1 waits on. -/
theorem test_label_end_closes :
    (match exec .rowTransferEnd lastRow with
      | .next t => ((slotAt t 1).state, t.bdb.manifests.map (·.bin), t.bdb.closingOrder, t.prq.port)
      | _ => (.free, [], [], .busy)) = (.rendering, [2], [1], .done) := by decide +kernel

theorem test_print_fault :
    (match exec .printFaultAssert (printing 141) with
      | .next t => (t.prq.port, (slotAt t 1).state, t.lif.notices.map (·.notice))
      | _ => (.done, .free, [])) = (.idle, .fault, [.printFault 512 1 .faultInput 141 1]) := by decide +kernel

theorem witness_NoticesAndTheDate :
    running.lif.masks.getLsbD (Notice.cart 1 true).code = true ∧ running.lif.notices.length < 64
      ∧ ({ running.lif with masks := 0#17 } : Lif).masks.getLsbD (Notice.cart 1 true).code = false
      ∧ 64 ≤ ({ running.lif with notices := List.replicate 64 ⟨0, .cart 1 true⟩ } : Lif).notices.length
      ∧ running.lif.reply = none
      ∧ (txt ['2', '6', '.', '0', '3', '.', '1', '4'] ++ List.replicate 0 0#8).length = 8
      ∧ (∀ b ∈ txt ['2', '6', '.', '0', '3', '.', '1', '4'], 0x20 ≤ b.toNat ∧ b.toNat ≤ 0x7E)
      ∧ (List.replicate 8 0x7F#8).length = 8 := by decide +kernel

/-- Sequence number 258, CART 15, 2 bytes of detail: bin 3, departure (section 12.6). -/
theorem test_notice_record :
    (Queued.record ⟨258, .cart 3 false⟩).take 7 = [1, 2, 15, 2, 3, 1, 0]
      ∧ (Queued.record ⟨258, .cart 3 false⟩)[3]? = some 2 := by decide

/-- A date of eight 7Fh bytes holds no text of characters. -/
theorem witness_NoticesAndTheDate_refused (t : Text) (n : Nat)
    (h : List.replicate 8 0x7F#8 = t ++ List.replicate n 0#8) :
    ∃ b ∈ t, ¬ (0x20 ≤ b.toNat ∧ b.toNat ≤ 0x7E) := by
  cases t with
  | nil =>
    have : (0x7F#8 : Byte) ∈ List.replicate n 0#8 := by rw [← List.nil_append (List.replicate n 0#8), ← h]; simp
    simp at this
  | cons b t =>
    have : b = 0x7F#8 := by
      have := congrArg List.head? h
      simpa [List.replicate] using this.symm
    exact ⟨b, by simp, by rw [this]; decide⟩

theorem witness_NoticeMaskReplacesTheEnables :
    running.lif.reply = none ∧ (0x00020000#32).getLsbD 17 = true
      ∧ (∃ t, exec (.lineClear 7#8) (line .halted) = .next t) := ⟨rfl, by decide, _, rfl⟩

theorem witness_NoticeMaskReplacesTheEnables_low (k : Nat) (h : 17 ≤ k) :
    (0x0001FFFF#32).getLsbD k = false := by
  by_cases h32 : k < 32
  · interval_cases k <;> decide
  · exact BitVec.getLsbD_of_ge _ _ (by omega)

theorem witness_RepliesAndAnnouncements :
    running.lif.reply = none ∧ (∃ r, (withReply running false false).lif.reply = some r ∧ r.begun = false)
      ∧ (∃ r, (withReply running true false).lif.reply = some r ∧ r.begun = true ∧ r.resetAfter = false)
      ∧ (∃ r, (withReply running true true).lif.reply = some r ∧ r.begun = true ∧ r.resetAfter = true)
      ∧ running.lif.announceQueue = []
      ∧ (withLif running (fun l => { l with announceQueue := [⟨203, 1480, 3⟩] })).lif.announceQueue
        = ⟨203, 1480, 3⟩ :: [] :=
  ⟨rfl, ⟨_, rfl, rfl⟩, ⟨_, rfl, rfl, rfl⟩, ⟨_, rfl, rfl, rfl⟩, rfl, rfl⟩

/-- The control framer in a state, with the bytes it has taken. -/
def framing (st : FramerState) (bytes : List Byte) : State :=
  withLif running (fun l => { l with control := { state := st, bytes := bytes } })

theorem witness_FramerTakesBytes :
    (framing .header [0#8, 0x10#8, 7#8, 0#8]).lif.framer .control
        = { state := .header, bytes := [0#8, 0x10#8, 7#8, 0#8] }
      ∧ (framing .header [0#8, 0x10#8, 7#8, 0#8]).lif.reply = none
      ∧ headerLength [0#8, 0x10#8, 7#8, 0#8, 2#8] = 2
      ∧ 5 + 1 < 5 + headerLength [0#8, 0x10#8, 7#8, 0#8, 2#8, 9#8]
      ∧ 6 + 1 = 5 + headerLength [0#8, 0x10#8, 7#8, 0#8, 2#8, 9#8, 9#8]
      ∧ 7 + 1 = 6 + headerLength [0#8, 0x10#8, 7#8, 0#8, 2#8, 9#8, 9#8, 9#8]
      ∧ 8 + 1 = 7 + headerLength [0#8, 0x10#8, 7#8, 0#8, 2#8, 9#8, 9#8, 9#8, 9#8]
      ∧ (crc16 [0#8, 0x10#8, 7#8, 0#8, 2#8, 9#8, 9#8]).toNat ≠ 9 * 256 + 9
      ∧ (4#8).toNat * 256 + (0x10#8).toNat = 1040 ∧ 1040 < (4#8).toNat * 256 + (0x11#8).toNat := by
  decide +kernel

theorem witness_FramerTakesBytes_sending :
    ∃ r, (withReply running true false).lif.reply = some r ∧ r.begun = true := ⟨_, rfl, rfl⟩

theorem witness_OtherFramesAndBroadcasts :
    running.lif.control = { state := .hunt, bytes := [] } ∧ running.lif.scan = { state := .hunt, bytes := [] }
      ∧ running.lif.reply = none ∧ (1#8 : Byte) ≠ station running ∧ ([] : List Byte).length ≤ 1040
      ∧ (∃ u, exec (.lineStop 7#8) running = .next u) ∧ (∃ u, exec (.setDate 7#8 (List.replicate 8 0#8)) running = .next u)
      ∧ ∃ r, (withReply running false false).lif.reply = some r ∧ r.begun = false :=
  ⟨rfl, rfl, rfl, by decide, by decide, ⟨_, rfl⟩, ⟨_, rfl⟩, _, rfl, rfl⟩

theorem witness_OtherFramesAndBroadcasts_effects :
    (running.ltr.lineState = .running ∧ running.queuesEmpty ∧ running.tsc.cutter ≠ .off
      ∧ verifying running = false ∧ (line .running).tsc.cutter = .off)
    ∧ (¬ (withStrips running [fed]).queuesEmpty
      ∧ verifying (withMsu (withStrips running [fed]) (fun m => { m with verification := .armed })) = true)
    ∧ ((line .halted).ltr.lineState ≠ .running ∧ (line .halted).lif.reply = none)
    ∧ (List.replicate 8 0x7F#8).length = 8
    ∧ txt ['2', '6'] ++ List.replicate 6 0#8 = [0x32#8, 0x36#8, 0#8, 0#8, 0#8, 0#8, 0#8, 0#8] := by
  unfold State.queuesEmpty; decide +kernel

/-- The frame of LINE_STOP, taken byte by byte, stops the running line. -/
theorem test_line_stop_frame :
    ((frameBytes (station running) 0x11#8 7#8 []).foldl (fun u b => framerByte .control b u) running).ltr.lineState
      = .stopped := by decide +kernel

/-- A drill: a request refused in HALTED answers HALTED and keeps the line as it is. -/
theorem test_halted_refusal :
    (match exec (.paceSet 7#8 running.fdp.settings) (line .halted) with
      | .next t => (t.lif.reply.map (·.code), t.ltr.lineState)
      | _ => (none, .stopped)) = (some .halted, .halted) := by decide +kernel

/-- Estop drops the outputs and puts the cutters off; the release leaves the line halted. -/
theorem test_estop :
    (match exec .estopAssert running with
      | .next t => (t.ltr.lineState, t.tsc.cutter, t.tsc.runOutput)
      | _ => (.stopped, .run, true)) = (.halted, .off, false) := by decide +kernel

end Sys2Proof.Tests
end

section

/-! PROOFS. What every command keeps (families O4, O7): the capacities of the queues, a quiet HALTED, an empty STOPPED
and a verification inside RUNNING, shown once of each operation and so of every step. -/

namespace Sys2Proof.Machine

open Sys2Proof

/-! ## The relation -/

/-- t meets whatever of the four conditions s meets. -/
structure Keeps (s t : State) : Prop where
  bounded : s.queuesBounded → t.queuesBounded
  quiet : s.haltedQuiet → t.haltedQuiet
  empty : s.stoppedEmpty → t.stoppedEmpty
  gauge : s.gaugeSound → t.gaugeSound

/-- t differs from s in nothing that the four conditions speak of, but for queues that have got shorter. -/
def Calm (s t : State) : Prop :=
  t.ltr.lineState = s.ltr.lineState ∧ t.ltr.strips.length ≤ s.ltr.strips.length
    ∧ t.srt.pieces.length ≤ s.srt.pieces.length ∧ t.srt.diverters = s.srt.diverters ∧ t.bdb = s.bdb
    ∧ t.lif.notices.length ≤ s.lif.notices.length ∧ t.lif.announceQueue.length ≤ s.lif.announceQueue.length
    ∧ t.fdp.feedPulse = s.fdp.feedPulse ∧ t.tsc.sawPulse = s.tsc.sawPulse ∧ t.tsc.runOutput = s.tsc.runOutput
    ∧ t.tsc.cutter = s.tsc.cutter ∧ t.msu = s.msu

theorem Keeps.refl (s : State) : Keeps s s := ⟨id, id, id, id⟩

theorem Keeps.trans {s t u : State} (h : Keeps s t) (h' : Keeps t u) : Keeps s u :=
  ⟨h'.bounded ∘ h.bounded, h'.quiet ∘ h.quiet, h'.empty ∘ h.empty, h'.gauge ∘ h.gauge⟩

theorem Calm.keeps {s t : State} (h : Calm s t) : Keeps s t := by
  obtain ⟨hl, hs, hp, hd, hb, hn, ha, hf, hw, hr, hc, hm⟩ := h
  have nil_of {α : Type} {a b : List α} (h : a.length ≤ b.length) (hb : b = []) : a = [] := by
    subst hb; exact List.length_eq_zero_iff.mp (Nat.le_zero.mp h)
  refine ⟨fun ⟨h1, h2, h3, h4, h5⟩ => ?_, fun h => ?_, fun h e => ?_, fun h => ?_⟩
  · exact ⟨hs.trans h1, hp.trans h2, hb ▸ h3, hn.trans h4, ha.trans h5⟩
  · unfold State.haltedQuiet State.outputsDropped at *
    rwa [hl, hf, hw, hr, hc, hd, hb]
  · obtain ⟨h1, h2⟩ := h (hl ▸ e)
    exact ⟨nil_of hs h1, nil_of hp h2⟩
  · unfold State.gaugeSound verifying at *
    rwa [hl, hm]

/-- The same, the later change first. -/
theorem Keeps.after {s t u : State} (h' : Keeps t u) (h : Keeps s t) : Keeps s u := h.trans h'

/-- After a change that keeps the conditions, one they say nothing of. -/
theorem Keeps.calm {s t u : State} (h : Keeps s t) (h' : Calm t u) : Keeps s u := h.trans h'.keeps

/-! ## Changes of one block -/

/-- A change of the Line Tracker in one line state: a queue that grows has room, and is not that of a stopped line. -/
theorem keeps_setLtr (s : State) (v : Ltr) (hl : v.lineState = s.ltr.lineState)
    (hs : v.strips.length ≤ s.ltr.strips.length ∨ v.strips.length ≤ 32 ∧ s.ltr.lineState ≠ .stopped) :
    Keeps s (s.setLtr v) := by
  rcases hs with hs | ⟨hs, hn⟩
  · exact Calm.keeps (by simp [Calm, hl, hs])
  · exact ⟨fun ⟨_, h⟩ => ⟨hs, h⟩, fun h e => h (hl ▸ e), fun _ e => absurd (hl ▸ e) hn,
      fun ⟨h, h'⟩ => ⟨fun e => hl ▸ h e, h'⟩⟩

/-- A change of the line state: HALTED is entered quiet, STOPPED with both queues empty, and RUNNING left without a
verification. -/
theorem keeps_lineState (s : State) (new : LineState)
    (hh : new = .halted → s.outputsDropped ∧ s.tsc.cutter = .off)
    (hs : new = .stopped → s.ltr.strips = [] ∧ s.srt.pieces = [])
    (hv : new ≠ .running → verifying s = true → s.ltr.lineState ≠ .running) :
    Keeps s (s.setLtr { s.ltr with lineState := new }) :=
  ⟨id, fun _ e => hh e, fun _ e => hs e,
    fun ⟨h, h'⟩ => ⟨fun e => by_contra fun hn => hv hn e (h e), h'⟩⟩

/-- A change of the gauge. -/
theorem keeps_setMsu (s : State) (v : Msu) (h : s.gaugeSound → (s.setMsu v).gaugeSound) : Keeps s (s.setMsu v) :=
  ⟨id, id, id, h⟩

/-- A change of the pacer: the feed gate is not driven in HALTED. -/
theorem keeps_setFdp (s : State) (v : Fdp)
    (h : s.ltr.lineState = .halted → s.fdp.feedPulse = none → v.feedPulse = none) : Keeps s (s.setFdp v) :=
  ⟨id, fun hq e => by obtain ⟨⟨h1, h2⟩, h3⟩ := hq e; exact ⟨⟨h e h1, h2⟩, h3⟩, id, id⟩

/-- A change of the trim station: neither output is driven in HALTED, and the cutter group stays OFF there. -/
theorem keeps_setTsc (s : State) (v : Tsc)
    (h : s.ltr.lineState = .halted → s.tsc.sawPulse = none → s.tsc.runOutput = false → s.tsc.cutter = .off →
      v.sawPulse = none ∧ v.runOutput = false ∧ v.cutter = .off) : Keeps s (s.setTsc v) := by
  refine ⟨id, fun hq e => ?_, id, id⟩
  obtain ⟨⟨h1, h2, h3, h4⟩, h5⟩ := hq e
  obtain ⟨v1, v2, v3⟩ := h e h2 h3 h5
  exact ⟨⟨h1, v1, v2, h4⟩, v3⟩

/-- A change of the sorter: a queue that grows has room, with a strip on the line, and no diverter is driven in
HALTED. -/
theorem keeps_setSrt (s : State) (v : Srt)
    (hp : v.pieces.length ≤ s.srt.pieces.length ∨ v.pieces.length ≤ 64 ∧ s.ltr.strips ≠ [])
    (hd : s.ltr.lineState = .halted → (∀ d ∈ s.srt.diverters.toList, d = none) →
      ∀ d ∈ v.diverters.toList, d = none) : Keeps s (s.setSrt v) := by
  refine ⟨fun ⟨h1, h2, h3⟩ => ⟨h1, hp.elim (fun hp => hp.trans h2) And.left, h3⟩, fun hq e => ?_, fun h e => ?_, id⟩
  · obtain ⟨⟨h1, h2, h3, h4, h5⟩, h6⟩ := hq e
    exact ⟨⟨h1, h2, h3, hd e h4, h5⟩, h6⟩
  · obtain ⟨h1, h2⟩ := h e
    refine ⟨h1, ?_⟩
    rcases hp with hp | ⟨-, hn⟩
    · rw [h2] at hp; exact List.length_eq_zero_iff.mp (Nat.le_zero.mp hp)
    · exact absurd h1 hn

/-- A change of the bundle builder: a manifest that joins has room, and no discharge is driven in HALTED. -/
theorem keeps_setBdb (s : State) (v : Bdb)
    (hm : s.bdb.manifests.length ≤ 32 → v.manifests.length ≤ 32 := by exact id)
    (hd : s.ltr.lineState = .halted → (∀ b ∈ s.bdb.bins.toList, b.discharge = none) →
      ∀ b ∈ v.bins.toList, b.discharge = none := by exact fun _ h => h) : Keeps s (s.setBdb v) := by
  refine ⟨fun ⟨h1, h2, h3, h4⟩ => ⟨h1, h2, hm h3, h4⟩, fun hq e => ?_, id, id⟩
  obtain ⟨⟨h1, h2, h3, h4, h5⟩, h6⟩ := hq e
  exact ⟨⟨h1, h2, h3, h4, hd e h5⟩, h6⟩

/-- A change of the link interface: its two queues keep their capacities. -/
theorem keeps_setLif (s : State) (v : Lif) (hn : s.lif.notices.length ≤ 64 → v.notices.length ≤ 64)
    (ha : s.lif.announceQueue.length ≤ 32 → v.announceQueue.length ≤ 32) : Keeps s (s.setLif v) :=
  ⟨fun ⟨h1, h2, h3, h4, h5⟩ => ⟨h1, h2, h3, hn h4, ha h5⟩, id, id, id⟩

/-- The raising of a notice (R180). -/
theorem keeps_raise (s : State) (n : Notice) : Keeps s (s.raise n) :=
  keeps_setLif _ _ (raise_length _ _) (by simp)

/-- An entry of a table changed at one place. -/
theorem mem_tabMod {α : Type} {n k : Nat} {v : Vector α n} {f : α → α} {y : α} (h : y ∈ (tabMod v k f).toList) :
    y ∈ v.toList ∨ ∃ x ∈ v.toList, y = f x := by
  unfold tabMod at h
  split at h
  · next hk =>
    rw [Vector.mem_toList_iff] at h
    rcases Vector.mem_or_eq_of_mem_set h with h | h
    · exact .inl (Vector.mem_toList_iff.mpr h)
    · exact .inr ⟨_, by simp, h⟩
  · exact .inl h

/-- A change of one bin. -/
theorem keeps_modBin (s : State) (b : Nat) (f : Bin → Bin)
    (hf : s.ltr.lineState = .halted → ∀ x : Bin, x.discharge = none → (f x).discharge = none := by
      exact fun _ _ h => h) :
    Keeps s (s.modBin b f) := by
  refine keeps_setBdb _ _ (hd := fun e h y hy => ?_)
  rcases mem_tabMod hy with hy | ⟨x, hx, rfl⟩
  · exact h y hy
  · exact hf e x (h x hx)

end Sys2Proof.Machine
end

section
namespace Sys2Proof.Machine

open Sys2Proof

/-! ## Orders, closes, cutters -/

theorem keeps_drainLine (k : Nat) (s : State) : Keeps s (drainLine k s) := by
  unfold drainLine
  dsimp only
  split
  · exact (Calm.keeps (by simp [Calm])).trans (keeps_raise _ _)
  · exact .refl s

theorem keeps_release (l : Option Nat) (n : Nat) (s : State) : Keeps s (release l n s) := by
  unfold release
  split
  · exact .refl s
  · exact (Calm.keeps (by simp [Calm])).trans (keeps_drainLine _ _)

theorem keeps_fillLine (k : Nat) (c : FillCause) (s : State) : Keeps s (fillLine k c s) := by
  unfold fillLine
  dsimp only
  split
  · exact (Calm.keeps (by simp [Calm])).trans (keeps_raise _ _)
  · exact .refl s

theorem keeps_credit (l : Option Nat) (n : Nat) (s : State) : Keeps s (credit l n s) := by
  unfold credit
  split
  · exact .refl s
  · exact ((Calm.keeps (by simp [Calm])).trans (keeps_fillLine _ _ _)).trans (keeps_drainLine _ _)

theorem keeps_dischargeStart (b : Nat) (s : State) : Keeps s (dischargeStart b s) := by
  unfold dischargeStart
  dsimp only
  split
  · next h =>
    simp only [Bool.and_eq_true, bne_iff_ne] at h
    exact keeps_modBin _ _ _ fun e => absurd e h.1.2
  · exact .refl s

/-- A close completion, made only where the manifest table has room (R138, R139). -/
theorem keeps_closeComplete (b k : Nat) (s : State) (h : s.bdb.manifests.length < 32) :
    Keeps s (closeComplete b k s) := by
  unfold closeComplete
  refine Keeps.trans ?_ (keeps_dischargeStart _ _)
  refine Keeps.trans ?_ (keeps_modBin _ _ _)
  refine Keeps.trans ?_ (keeps_setBdb _ _)
  refine Keeps.trans ?_ (keeps_raise _ _)
  refine Keeps.after (Calm.keeps (by simp [Calm])) (keeps_setBdb s { s.bdb with
    nextBundle := bundleAfter s.bdb.nextBundle, manifests := s.bdb.manifests ++ [newManifest s b] } (fun _ => ?_))
  simp; omega

theorem keeps_attempts (n : Nat) (s : State) : Keeps s (attempts n s) := by
  induction n generalizing s with
  | zero => exact .refl s
  | succ n ih =>
    unfold attempts
    split
    · split
      · next h =>
        simp only [closeResources, Bool.and_eq_true] at h
        exact (keeps_closeComplete _ _ _ (of_decide_eq_true h.1)).trans (ih _)
      · exact .refl s
    · exact .refl s

theorem keeps_attempt (s : State) : Keeps s (attempt s) := keeps_attempts _ s

theorem keeps_closingEntry (b : Nat) (s : State) : Keeps s (closingEntry b s) := by
  exact (keeps_attempt _).after ((keeps_setBdb _ _).after (keeps_modBin s b _))

theorem keeps_settlePending (b : Nat) (s : State) : Keeps s (settlePending b s) := by
  unfold settlePending
  split
  · exact keeps_closingEntry b s
  · exact .refl s

theorem keeps_closeRequest (b : Nat) (r : CloseReason) (s : State) : Keeps s (closeRequest b r s) := by
  unfold closeRequest
  split
  · exact (keeps_settlePending b _).after (keeps_modBin s b _)
  · exact .refl s

/-- A list of operations each of which keeps the conditions. -/
theorem keeps_foldl {α : Type} (f : State → α → State) (hf : ∀ s a, Keeps s (f s a)) (l : List α) (s : State) :
    Keeps s (l.foldl f s) := by
  induction l generalizing s with
  | nil => exact .refl s
  | cons a l ih => exact (hf s a).trans (ih _)

theorem keeps_dischargeAll (s : State) : Keeps s (dischargeAll s) :=
  keeps_foldl _ (fun s b => keeps_dischargeStart b s) _ s

theorem keeps_profileClose (s : State) (b : Nat) : Keeps s (profileClose s b) := by
  unfold profileClose
  split
  · exact keeps_closeRequest b .profile s
  · exact .refl s

/-- A passage of the cutter group that does not start it in HALTED. -/
theorem keeps_cutterTo (new : Cutter) (c : CutterCause) (s : State) (h : s.ltr.lineState ≠ .halted ∨ s.tsc.cutter ≠ .off) :
    Keeps s (cutterTo new c s) :=
  (keeps_setTsc s _ fun e _ _ h' => h.elim (absurd e) (absurd h')).trans (keeps_raise _ _)

theorem keeps_enterSpinup (c : CutterCause) (s : State) (h : s.ltr.lineState ≠ .halted ∨ s.tsc.cutter ≠ .off) :
    Keeps s (enterSpinup c s) :=
  (keeps_cutterTo .spinup c s h).calm (by simp [Calm, enterSpinup])

theorem keeps_cutterOff (c : CutterCause) (s : State) : Keeps s (cutterOff c s) := by
  unfold cutterOff
  dsimp only
  split
  · exact keeps_setTsc _ _ fun _ h _ h' => ⟨h, rfl, h'⟩
  · next h =>
    exact (keeps_cutterTo _ _ s (.inr (by simpa using h))).trans (keeps_setTsc _ _ fun _ h _ h' => ⟨h, rfl, h'⟩)

theorem keeps_idleTest (s : State) : Keeps s (idleTest s) := by
  unfold idleTest
  split
  · next h =>
    simp only [Bool.and_eq_true, beq_iff_eq] at h
    exact (keeps_cutterTo .idleWait .idle s (.inr (by simp [h.1.1]))).calm (by simp [Calm])
  · exact .refl s

theorem keeps_activity (s : State) : Keeps s (activity s) := by
  unfold activity
  split
  · next h => exact (keeps_cutterTo .run .activity s (.inr (by simp_all))).calm (by simp [Calm])
  · exact .refl s

theorem keeps_wakeReport (s : State) : Keeps s (wakeReport s) := by
  unfold wakeReport
  split
  · next h =>
    split
    · exact keeps_enterSpinup _ s (.inr (by simp_all))
    · exact Calm.keeps (by simp [Calm])
  · exact .refl s

theorem keeps_spinupExpiry (s : State) : Keeps s (spinupExpiry s) := by
  unfold spinupExpiry
  split
  · next h =>
    simp only [Bool.and_eq_true, beq_iff_eq] at h
    exact (keeps_idleTest _).after ((keeps_cutterTo .run .spunUp s (.inr (by simp [h.1]))).calm (by simp [Calm]))
  · exact .refl s

theorem keeps_hysteresisExpiry (s : State) : Keeps s (hysteresisExpiry s) := by
  unfold hysteresisExpiry
  split
  · next h =>
    simp only [Bool.and_eq_true, beq_iff_eq] at h
    exact (keeps_cutterTo .standby .hysteresis s (.inr (by simp [h.1]))).calm (by simp [Calm])
  · exact .refl s

theorem keeps_residencyExpiry (s : State) : Keeps s (residencyExpiry s) := by
  unfold residencyExpiry
  split
  · next h =>
    simp only [Bool.and_eq_true, beq_iff_eq] at h
    dsimp only
    split
    · exact (Calm.keeps (by simp [Calm])).trans (keeps_enterSpinup _ _ (.inr (by simp [h.1])))
    · exact Calm.keeps (by simp [Calm])
  · exact .refl s

/-! ## The line, the gauge, the changeover, and what follows a removal -/

theorem keeps_profileTo (c : Changeover) (u : ProfileCause) (s : State) : Keeps s (profileTo c u s) :=
  (Calm.keeps (by simp [Calm])).trans (keeps_raise _ _)

/-- While a verification is in flight no result is held (R29, R31). -/
theorem result_none_of_verifying {s : State} (h : s.gaugeSound) (hv : verifying s = true) : s.msu.result = none := by
  obtain ⟨-, hr, -⟩ := h
  rw [← Option.not_isSome_iff_eq_none, hr]
  unfold verifying at hv
  cases hs : s.msu.verification <;> simp_all

/-- The cancelling of a verification leaves none in flight and no result (R30). -/
theorem keeps_gaugeCancel (c : GaugeCause) (s : State) : Keeps s (gaugeCancel c s) := by
  unfold gaugeCancel
  split
  · next h =>
    refine (keeps_setMsu s _ fun hg => ?_).trans (keeps_raise _ _)
    exact ⟨fun e => by simp [verifying] at e, by simp [result_none_of_verifying hg h], fun _ => rfl,
      fun e => by simp at e⟩
  · exact .refl s

/-- The end of STOPPING (R18). -/
theorem keeps_endStopping (s : State) : Keeps s (endStopping s) := by
  unfold endStopping
  split
  · next h =>
    simp only [bothEmpty, Bool.and_eq_true, beq_iff_eq, List.isEmpty_iff] at h
    refine ((keeps_lineState s _ (by simp) (fun _ => h.2) fun _ _ => ?_).trans (keeps_raise _ _)).trans
      (keeps_cutterOff _ _)
    rw [h.1]; decide
  · exact .refl s

theorem keeps_drainTest (s : State) : Keeps s (drainTest s) := by
  unfold drainTest
  split
  · exact (keeps_profileTo _ _ _).after ((keeps_foldl _ keeps_profileClose binNumbers s).calm (by simp [Calm]))
  · exact .refl s

theorem keeps_afterPiece (s : State) : Keeps s (afterPiece s) := (keeps_endStopping s).trans (keeps_drainTest _)

theorem keeps_afterStrip (s : State) : Keeps s (afterStrip s) :=
  ((keeps_endStopping s).trans (keeps_idleTest _)).trans (keeps_drainTest _)

/-! ## The Plan Engine -/

theorem calm_free (s : State) (n : Nat) : Calm s { s with free := n } := by simp [Calm]

/-- A strip record changed where it stands. -/
theorem calm_modStrip (s : State) (t : Nat) (f : Strip → Strip) : Calm s (s.modStrip t f) := by
  simp [Calm, State.modStrip]

theorem calm_takeUp (s : State) : Calm s (takeUp s) := by
  unfold takeUp
  split
  · simp [Calm, State.modStrip]
  · simp [Calm]

theorem calm_abandon (t : Nat) (s : State) : Calm s (abandon t s) := by
  unfold abandon
  split
  · simpa [Calm] using calm_takeUp (s.setPle { s.ple with engine := none })
  · simp [Calm]

theorem keeps_writePlan (r : Strip) (n : Snapshot) (s : State) : Keeps s (writePlan r n s) := by
  unfold writePlan
  dsimp only
  split
  · exact Calm.keeps (by simp [Calm, State.modStrip])
  · next ps _ =>
    obtain ⟨_, _, _, hf⟩ := reservePieces_spec (r.scan.getD { colour := 0, defects := [] }).colour (_ :: _) s
    rw [hf]
    exact Calm.keeps (by simp [Calm, State.modStrip])

theorem keeps_planCompletion (s : State) : Keeps s (planCompletion s) := by
  unfold planCompletion
  split
  · exact .refl s
  · dsimp only
    have h0 : Keeps s (s.setPle { s.ple with engine := none }) := Calm.keeps (by simp [Calm])
    split
    · exact h0.calm (calm_takeUp _)
    · exact (h0.trans (keeps_writePlan _ _ _)).calm (calm_takeUp _)

theorem keeps_planLate (t : Nat) (r : UncutReason) (a : Bool) (s : State) : Keeps s (planLate t r a s) :=
  (Calm.keeps (by simp [Calm, State.modStrip])).trans (keeps_raise _ _)

theorem keeps_deadlineAction (r : Strip) (s : State) : Keeps s (deadlineAction r s) := by
  unfold deadlineAction
  split
  · exact .refl s
  · exact .refl s
  · exact (keeps_planLate _ _ _ s).calm (calm_abandon _ _)
  · split
    · exact keeps_planLate _ _ _ s
    · split <;> exact keeps_planLate _ _ _ s

theorem keeps_deliverDeadline (t : Nat) (s : State) : Keeps s (deliverDeadline t s) := by
  unfold deliverDeadline
  split
  · exact .refl s
  · split
    · exact .refl s
    · split
      · exact (calm_modStrip s _ _).keeps.trans (keeps_deadlineAction _ _)
      · exact .refl s

theorem keeps_scanDiscard (r : DiscardReason) (t c : Nat) (s : State) : Keeps s (scanDiscard r t c s) :=
  (Calm.keeps (by simp [Calm])).trans (keeps_raise _ _)

theorem keeps_takeScanRecord (p : List Byte) (s : State) : Keeps s (takeScanRecord p s) := by
  unfold takeScanRecord
  dsimp only
  split
  · split
    · exact (calm_free _ _).keeps.after (keeps_scanDiscard _ _ _ s)
    · exact keeps_scanDiscard _ _ _ _
  · split
    · exact keeps_scanDiscard _ _ _ _
    · exact (calm_modStrip _ _ _).keeps.calm (calm_takeUp _)

theorem keeps_scanRecordReceived (p : List Byte) (s : State) : Keeps s (scanRecordReceived p s) :=
  (keeps_takeScanRecord p _).after (Calm.keeps (by simp [Calm]))

/-! ## Strips and pieces -/

theorem calm_forgetStrip (t : Nat) (s : State) : Calm s (forgetStrip t s) := by
  simp [Calm, forgetStrip, List.length_filter_le]

theorem keeps_releasePlan (r : Strip) (s : State) : Keeps s (releasePlan r s) := by
  unfold releasePlan
  split
  · refine keeps_foldl _ (fun s p => ?_) _ s
    split
    · exact .refl s
    · exact keeps_release _ _ s
  · exact .refl s

theorem keeps_removeStrip (r : Strip) (s : State) : Keeps s (removeStrip r s) :=
  (((calm_forgetStrip r.tag s).keeps.trans (keeps_releasePlan r _)).calm (calm_abandon _ _)).trans (keeps_afterStrip _)

theorem keeps_windowExpiry (e : TrimEye) (t : Nat) (s : State) : Keeps s (windowExpiry e t s) := by
  unfold windowExpiry
  split
  · exact .refl s
  · split
    · exact .refl s
    · split
      · exact ((Calm.keeps (by simp [Calm])).trans (keeps_raise _ _)).trans (keeps_removeStrip _ _)
      · exact .refl s

/-- A change of the sorter that leaves the diverters and lengthens no queue. -/
theorem calm_setSrt (s : State) (v : Srt) (hp : v.pieces.length ≤ s.srt.pieces.length := by exact le_rfl)
    (hd : v.diverters = s.srt.diverters := by rfl) : Calm s (s.setSrt v) := by simp [Calm, hp, hd]

/-- The creation of a piece, made for a strip on the line (R99, R116). -/
theorem keeps_enterPiece (p : Piece) (s : State) (h : s.ltr.strips ≠ []) : Keeps s (enterPiece p s) := by
  unfold enterPiece
  split
  · next hl =>
    exact keeps_setSrt _ _ (.inr ⟨by simpa [Config.pieceCapacity] using hl, h⟩) fun _ => id
  · exact (keeps_release p.line p.net s).calm (by simp [Calm, addBin0])

theorem calm_dropPiece (t i : Nat) (s : State) : Calm s (dropPiece t i s) :=
  calm_setSrt _ _ (List.length_filter_le _ _)

theorem keeps_toBin0 (r : Bin0Reason) (p : Piece) (s : State) : Keeps s (toBin0 r p s) := by
  refine (keeps_afterPiece _).after ((calm_dropPiece p.tag p.index _).keeps.after
    ((keeps_release p.line p.net s).calm ?_))
  cases r <;> simp [Calm, addBin0, countBin0]

theorem offer_discharge (x : Bin) (n p : Nat) (k : TallyKey) : (offer x n p k).1.discharge = x.discharge := by
  unfold offer
  split
  · rfl
  · split
    · rfl
    · split <;> rfl

/-- A bin replaced by what it becomes at an offer. -/
theorem keeps_offered (s : State) (b : Nat) (p : Piece) :
    Keeps s (s.modBin b (fun _ => (offer (binAt s b) p.net p.profile (tallyKey s p.line)).1)) := by
  by_cases hb : 1 ≤ b ∧ b ≤ 14
  · refine keeps_setBdb _ _ (hd := fun _ h y hy => ?_)
    rcases mem_tabMod hy with hy | ⟨x, -, rfl⟩
    · exact h y hy
    · rw [offer_discharge]
      obtain ⟨x, hx⟩ := Option.isSome_iff_exists.mp ((tabGet_range s.bdb.bins b).mpr hb)
      have : x ∈ s.bdb.bins.toList := by
        unfold tabGet at hx
        rw [if_neg (by omega)] at hx
        exact Vector.mem_toList_iff.mpr (Vector.mem_of_getElem? hx)
      simpa [binAt, hx] using h x this
  · refine keeps_setBdb _ _ (hd := fun _ h y hy => h y ?_)
    unfold tabMod at hy
    rwa [dif_neg (by omega)] at hy

theorem keeps_searchBins (p : Piece) (bs : List Nat) (s : State) : Keeps s (searchBins p bs s).1 := by
  induction bs generalizing s with
  | nil => exact .refl s
  | cons b bs ih =>
    unfold searchBins
    split
    · dsimp only
      split
      · exact keeps_offered s b p
      · exact (keeps_offered s b p).trans (ih _)
    · exact ih s

theorem keeps_assign (b : Nat) (p : Piece) (s : State) : Keeps s (assign b p s) := by
  unfold assign
  dsimp only
  have h1 : Keeps s (s.modPiece p.tag p.index fun p =>
      { p with place := .assigned b s.srt.pos (s.srt.pos + umOfMm ((entryAt s b).offset - (entryAt s b).lead)) }) :=
    Calm.keeps (by simp [Calm, State.modPiece])
  split
  · exact (keeps_closeRequest _ _ _).after ((keeps_modBin _ _ _).after h1)
  · exact (keeps_modBin _ _ _).after h1

theorem keeps_binSearch (p : Piece) (s : State) : Keeps s (binSearch p s) := by
  unfold binSearch
  split
  · exact keeps_toBin0 _ _ _
  · split
    · exact keeps_toBin0 _ _ _
    · have := keeps_searchBins p binNumbers s
      split
      · next t b h => rw [h] at this; exact this.trans (keeps_assign _ _ _)
      · next t h => rw [h] at this; exact this.trans (keeps_toBin0 _ _ _)

theorem keeps_dropLead (s : State) : Keeps s (dropLead s) := by
  unfold dropLead
  split
  · exact keeps_binSearch _ s
  · exact (keeps_raise _ _).after (calm_setSrt s _).keeps

theorem keeps_dropEdge (b : Bool) (s : State) : Keeps s (dropEdge b s) := by
  unfold dropEdge
  split
  · exact .refl s
  · dsimp only
    have h0 : Keeps s (s.setPins { s.pins with drop := b }) := Calm.keeps (by simp [Calm])
    split
    · exact h0
    · exact h0.calm (by simp [Calm])
    · split
      · exact (h0.calm (by simp [Calm])).trans (keeps_dropLead _)
      · exact h0.calm (by simp [Calm])

theorem keeps_dropExpiry (t i : Nat) (s : State) : Keeps s (dropExpiry t i s) := by
  unfold dropExpiry
  split
  · exact .refl s
  · split
    · exact .refl s
    · split
      · exact (keeps_afterPiece _).after ((calm_dropPiece t i _).keeps.after ((keeps_raise _ _).after
          ((keeps_release _ _ _).after (calm_setSrt s _).keeps)))
      · exact .refl s

theorem keeps_land (b : Nat) (p : Piece) (s : State) : Keeps s (land b p s) := by
  unfold land
  dsimp only
  exact (keeps_afterPiece _).after ((keeps_settlePending b _).after ((keeps_modBin _ b _).after
    ((keeps_credit p.line p.net _).after ((keeps_modBin _ b _).after (calm_dropPiece p.tag p.index s).keeps))))

theorem keeps_diverterFire (t i : Nat) (s : State) : Keeps s (diverterFire t i s) := by
  unfold diverterFire
  split
  · exact .refl s
  · split
    · exact .refl s
    · split
      · next h =>
        simp only [Bool.and_eq_true, bne_iff_ne] at h
        refine (keeps_land _ _ _).after (keeps_setSrt s _ ?_ fun e => absurd e h.1)
        exact .inl le_rfl
      · exact .refl s

theorem keeps_clearPiece (s : State) (p : Piece) : Keeps s (clearPiece s p) := by
  have h0 : Keeps s (dropPiece p.tag p.index (release p.line p.net s)) :=
    (keeps_release _ _ s).calm (calm_dropPiece _ _ _)
  unfold clearPiece
  dsimp only
  split
  · exact h0
  · exact (keeps_settlePending _ _).after ((keeps_modBin _ _ _).after h0)

end Sys2Proof.Machine
end

section
namespace Sys2Proof.Machine

open Sys2Proof

/-! ## The saw -/

theorem strips_ne_nil_of_stripOf {s : State} {tag : Nat} {r : Strip} (h : stripOf s tag = some r) :
    s.ltr.strips ≠ [] := by
  intro e
  simp [stripOf, e] at h

theorem calm_modCuts (s : State) (t : Nat) (f : CutList → CutList) : Calm s (s.modCuts t f) := by
  simp [Calm, State.modCuts]

theorem keeps_createAt (i : Option Nat) (c : CutList) (r : Strip) (s : State) (h : s.ltr.strips ≠ []) :
    Keeps s (createAt i c r s) := by
  unfold createAt
  split
  · exact .refl s
  · unfold createPlanned
    split
    · exact .refl s
    · split
      · exact .refl s
      · refine (keeps_enterPiece _ _ ?_).after (Calm.keeps ?_)
        · simpa [State.modStrip] using h
        · simp [Calm, State.modStrip, countCreated]

theorem keeps_createUncut (c : CutList) (r : Strip) (s : State) (h : s.ltr.strips ≠ []) :
    Keeps s (createUncut c r s) :=
  (keeps_enterPiece _ _ (by simpa using h)).after (Calm.keeps (by simp [Calm, countCreated]))

/-- The creation of a piece leaves a strip on the line. -/
theorem createAt_strips (i : Option Nat) (c : CutList) (r : Strip) (s : State) (h : s.ltr.strips ≠ []) :
    (createAt i c r s).ltr.strips ≠ [] := by
  unfold createAt
  split
  · exact h
  · unfold createPlanned
    split
    · exact h
    · split
      · exact h
      · simpa [State.modStrip] using h

theorem keeps_doneTest (t : Nat) (s : State) : Keeps s (doneTest t s) := by
  unfold doneTest
  split
  · split
    · exact keeps_removeStrip _ s
    · exact .refl s
  · exact .refl s

/-- A cut MADE fires the saw, which it does outside HALTED (R98). -/
theorem keeps_cutMade (c : CutList) (x : Nat) (r : Strip) (s : State) (h : s.ltr.strips ≠ [])
    (hl : s.ltr.lineState ≠ .halted) : Keeps s (cutMade c x r s) := by
  unfold cutMade
  dsimp only
  have h1 : Keeps s (s.setTsc { s.tsc with sawPulse := some s.tsc.trim.sawPulse, sawFires := bump s.tsc.sawFires }) :=
    keeps_setTsc s _ fun e => absurd e hl
  have h2 := h1.calm (calm_modCuts _ c.tag (CutList.make x))
  have h3 := h2.trans (keeps_createAt (pieceEndingAt (c.make x) x) (c.make x) r _ (by simpa using h))
  split
  · exact h3.trans (keeps_createAt _ _ _ _ (createAt_strips _ _ _ _ (by simpa using h)))
  · exact h3

theorem keeps_cutMissed (c : CutList) (x : Nat) (r : Strip) (s : State) (h : s.ltr.strips ≠ []) :
    Keeps s (cutMissed c x r s) := by
  unfold cutMissed
  dsimp only
  have h1 : Keeps s ((s.setTsc { s.tsc with missedCuts := bump s.tsc.missedCuts }).modCuts c.tag (CutList.miss x)) :=
    Calm.keeps (by simp [Calm, State.modCuts])
  split
  · exact h1.trans (keeps_createUncut _ _ _ (by simpa using h))
  · exact h1

theorem keeps_cutDue (t : Nat) (s : State) : Keeps s (cutDue t s) := by
  unfold cutDue
  split
  · next c r _ hr =>
    have hs := strips_ne_nil_of_stripOf hr
    split
    · exact .refl s
    · split
      · next hg =>
        simp only [Bool.and_eq_true, bne_iff_ne] at hg
        refine (keeps_doneTest _ _).after ?_
        split
        · exact keeps_cutMade _ _ _ s hs hg.1
        · exact keeps_cutMissed _ _ _ s hs
      · exact .refl s
  · exact .refl s

theorem keeps_slipCheck (r : Strip) (l : Nat) (s : State) : Keeps s (slipCheck r l s) := by
  unfold slipCheck
  split
  · exact .refl s
  · dsimp only
    split
    · exact (keeps_raise _ _).after (Calm.keeps (by simp [Calm, markForced, State.modCuts]))
    · exact (calm_modCuts _ _ _).keeps

theorem keeps_trailCreation (c : CutList) (r : Strip) (s : State) (h : s.ltr.strips ≠ []) :
    Keeps s (trailCreation c r s) := by
  unfold trailCreation
  split
  · exact keeps_createUncut _ _ _ h
  · exact keeps_createAt _ _ _ _ h

theorem keeps_sawTrail (r : Strip) (s : State) (h : s.ltr.strips ≠ []) : Keeps s (sawTrail r s) := by
  unfold sawTrail
  split
  · exact .refl s
  · exact (keeps_doneTest _ _).after ((keeps_slipCheck _ _ _).after
      ((keeps_trailCreation _ _ _ (by simpa using h)).after (calm_modCuts s _ _).keeps))

/-! ## The gauge and the measure eye -/

/-- The end of a verification, whatever it has measured (R29). -/
theorem keeps_gaugeEnd (c : GaugeCause) (s : State) (v : Msu) : Keeps s (gaugeEnd c (s.setMsu v)) := by
  refine (keeps_raise _ _).after (keeps_setMsu s _ fun _ => ?_)
  exact ⟨fun e => by simp [verifying] at e, rfl, fun e => by simp at e, fun e => by simp at e⟩

/-- An edge taken by a verification in flight (R28). -/
theorem keeps_gaugeMark (s : State) (h : verifying s = true) : Keeps s (gaugeMark s) := by
  unfold gaugeMark
  dsimp only
  split
  · next ha =>
    refine keeps_setMsu _ _ fun ⟨hv, hr, _⟩ => ⟨fun _ => hv h, hr.trans ?_, fun e => by simp at e, by simp⟩
    rw [beq_iff_eq.mp ha]; rfl
  · next ha =>
    split
    · exact keeps_gaugeEnd _ s _
    · next hn =>
      have hb : s.msu.verification = .onBar := by simpa [verifying, ha] using h
      refine keeps_setMsu _ _ fun ⟨hv, hr, _, hm⟩ => ⟨fun _ => hv h, hr, fun e => ?_, fun _ => ?_⟩
      · exact absurd (hb.symm.trans e) (by decide)
      · obtain ⟨-, h31⟩ := hm hb
        simp only [beq_iff_eq] at hn
        simp only [State.setMsu_msu, List.length_append, List.length_singleton]
        omega

theorem keeps_gaugeTrail (s : State) : Keeps s (gaugeTrail s) := by
  unfold gaugeTrail
  split
  · exact keeps_setMsu _ _ id
  · exact .refl s

theorem keeps_barEnd (s : State) : Keeps s (barEnd s) := by
  unfold barEnd
  split
  · split
    · exact keeps_gaugeEnd .barEnd s s.msu
    · exact .refl s
  · exact .refl s

theorem keeps_measureLead (s : State) (h : s.ltr.lineState ≠ .stopped) : Keeps s (measureLead s) := by
  unfold measureLead
  split
  · next hv => exact keeps_gaugeMark s hv
  · split
    · exact Calm.keeps (by simp [Calm, measureMatch, setHolder, State.modStrip])
    · unfold measureStray
      dsimp only
      split
      · next hr =>
        simp only [strayRecorded, Bool.and_eq_true, stripFree, Config.stripCapacity] at hr
        have hroom := of_decide_eq_true hr.1
        refine (keeps_activity _).after ((keeps_raise _ _).after ?_)
        refine keeps_setLtr s _ rfl (.inr ⟨?_, h⟩)
        simp [setHolder, countStray, allocateStrip] at hroom ⊢
        omega
      · exact (keeps_raise _ _).after (Calm.keeps (by simp [Calm, countStray, setHolder]))

theorem keeps_measureTrail (s : State) : Keeps s (measureTrail s) := by
  unfold measureTrail
  split
  · exact keeps_gaugeTrail s
  · split
    · exact .refl s
    · next tag _ =>
      dsimp only
      have h0 : Keeps s ((setHolder .measure none s).modStrip tag fun r => { r with phase := r.phase.afterMeasure }) :=
        Calm.keeps (by simp [Calm, setHolder, State.modStrip])
      split
      · exact h0
      · unfold lengthWrite
        split
        · exact (h0.calm (calm_modStrip _ _ _)).calm (calm_takeUp _)
        · exact h0

/-! ## Edges, pulses, the estop -/

theorem keeps_announce (a : Announcement) (s : State) : Keeps s (announce a s) := by
  unfold announce
  split
  · next h =>
    refine keeps_setLif _ _ id fun _ => ?_
    simp only [Config.announceCapacity] at h
    simp; omega
  · exact Calm.keeps (by simp [Calm])

theorem calm_setHolder (e : TrimEye) (h : Option Nat) (s : State) : Calm s (setHolder e h s) := by
  simp [Calm, setHolder]

/-- An edge taken at a trim eye, in a line state in which strips are on the line. -/
theorem keeps_takeEdge (e : TrimEye) (b : Bool) (s : State) (h : s.ltr.lineState ≠ .stopped) :
    Keeps s (takeEdge e b s) := by
  have stray : ∀ e n, Keeps s ((countStray e s).raise n) := fun e n =>
    (keeps_raise _ _).after (Calm.keeps (by simp [Calm, countStray, setHolder]))
  cases e <;> cases b
  · exact keeps_measureTrail s
  · exact keeps_measureLead s h
  · exact (calm_setHolder _ _ s).keeps
  · show Keeps s (scanLead s)
    unfold scanLead
    split
    · unfold scanMatch
      dsimp only
      have h0 : ∀ (r : Strip) f, Keeps s (setHolder .scan (some r.tag) (s.modStrip r.tag f)) := fun r f =>
        (calm_setHolder _ _ _).keeps.after (calm_modStrip s _ _).keeps
      split
      · exact h0 _ _
      · exact (keeps_announce _ _).after (h0 _ _)
    · exact stray _ _
  · show Keeps s (sawTrailEdge s)
    unfold sawTrailEdge
    split
    · exact .refl s
    · dsimp only
      split
      · exact (calm_setHolder _ _ s).keeps
      · next hr => exact (keeps_sawTrail _ _ (strips_ne_nil_of_stripOf hr)).after (calm_setHolder _ _ s).keeps
  · show Keeps s (sawLead s)
    unfold sawLead
    split
    · exact Calm.keeps (by simp [Calm, sawMatch, cutListSetup, setHolder, State.modStrip])
    · exact stray _ _

theorem calm_setLevel (e : TrimEye) (b : Bool) (s : State) : Calm s (setLevel e b s) := by simp [Calm, setLevel]

theorem calm_setPins (s : State) (v : Pins) : Calm s (s.setPins v) := by simp [Calm]

theorem keeps_trimEdge (e : TrimEye) (b : Bool) (s : State) : Keeps s (trimEdge e b s) := by
  unfold trimEdge
  split
  · exact .refl s
  · dsimp only
    have h0 := (calm_setPins s { s.pins with eyes := s.pins.eyes.put e b }).keeps
    split
    · exact h0
    · exact h0.calm (calm_setLevel _ _ _)
    · next hn => exact (h0.calm (calm_setLevel e b _)).trans (keeps_takeEdge _ _ _ hn)

theorem keeps_encoderPulse (e : Encoder) (d : Direction) (s : State) : Keeps s (encoderPulse e d s) := by
  unfold encoderPulse
  split
  · exact .refl s
  · cases e
    · exact Calm.keeps (by simp [Calm])
    · exact Calm.keeps (by simp [Calm, trimPulse])
    · exact Calm.keeps (by simp [Calm])

/-- The notices of the entry to HALTED, in the order of R17. -/
def State.haltNotices (s : State) : List Notice :=
  .lineState .halted s.ltr.lineState .estop
    :: ((if s.tsc.cutter = .off then [] else [.cutterState .off s.tsc.cutter .estop])
      ++ if verifying s then [.gaugeResult .cancelled .estop s.msu.measured.length 0] else [])

/-- The entry to HALTED, block by block (R19). -/
theorem enterHalted_eq (s : State) : enterHalted s = { s with
    ltr := { s.ltr with lineState := .halted }
    fdp := { s.fdp with feedPulse := none }
    tsc := { s.tsc.switchedOff with sawPulse := none }
    srt := { s.srt with diverters := s.srt.diverters.map fun _ => none }
    bdb := { s.bdb with bins := s.bdb.bins.map fun b => { b with discharge := none } }
    msu := if verifying s then s.msu.cancelled else s.msu
    lif := s.haltNotices.foldl Lif.raise s.lif } := by
  have hv : ∀ c, verifying (cutterOff c (lineTo .halted .estop (dropOutputs s))) = verifying s := fun c => by
    simp [verifying, lineTo, dropOutputs]
  unfold enterHalted gaugeCancel
  rw [hv]
  by_cases hc : s.tsc.cutter = .off <;> by_cases h : verifying s = true <;>
    exact State.eq_of_blocks (by
      simp [h, hc, State.haltNotices, dropOutputs, lineTo, cutterOff, cutterTo, Tsc.switchedOff, Msu.cancelled,
        Cutter.driven])

/-- Notices raised one after another keep the queue within 64 and leave the announcements. -/
theorem foldl_raise_bounded (ns : List Notice) (l : Lif) (h : l.notices.length ≤ 64) :
    (ns.foldl Lif.raise l).notices.length ≤ 64 ∧ (ns.foldl Lif.raise l).announceQueue = l.announceQueue := by
  induction ns generalizing l with
  | nil => exact ⟨h, rfl⟩
  | cons n ns ih =>
    obtain ⟨h1, h2⟩ := ih (l.raise n) (raise_length l n h)
    exact ⟨h1, h2.trans (raise_rest l n).2.1⟩

theorem keeps_enterHalted (s : State) : Keeps s (enterHalted s) := by
  rw [enterHalted_eq]
  refine ⟨fun ⟨h1, h2, h3, h4, h5⟩ => ?_, fun _ _ => ?_, fun _ e => by simp at e, fun h => ?_⟩
  · obtain ⟨hn, ha⟩ := foldl_raise_bounded s.haltNotices s.lif h4
    exact ⟨h1, h2, h3, hn, ha ▸ h5⟩
  · exact ⟨⟨rfl, rfl, rfl, by simp, by simp⟩, rfl⟩
  · by_cases hv : verifying s = true
    · simp only [State.gaugeSound, hv, if_true]
      exact ⟨fun e => by simp [verifying, Msu.cancelled] at e, by
        simp [Msu.cancelled, result_none_of_verifying h hv], fun _ => rfl, fun e => by simp [Msu.cancelled] at e⟩
    · obtain ⟨-, h'⟩ := h
      simp only [State.gaugeSound, hv]
      exact ⟨fun e => absurd e hv, h'⟩

theorem keeps_estopAssert (s : State) : Keeps s (estopAssert s) := by
  unfold estopAssert
  dsimp only
  split
  · exact (calm_setPins _ _).keeps
  · exact (keeps_enterHalted _).after (calm_setPins _ _).keeps

end Sys2Proof.Machine
end

section
namespace Sys2Proof.Machine

open Sys2Proof

/-! ## The line's requests -/

/-- A cancelled verification and a change of the line state come to the same in either order, notices aside (R30). -/
theorem keeps_gaugeCancel_lineTo (new : LineState) (c : LineCause) (s : State) (hn : new = .stopped ∨ new = .stopping)
    (he : new = .stopped → s.ltr.strips = [] ∧ s.srt.pieces = []) :
    Keeps s (gaugeCancel .line (lineTo new c s))
      ∧ Keeps s (gaugeCancel .line (cutterOff .line (lineTo new c s))) := by
  have hh : new ≠ .halted := by rcases hn with rfl | rfl <;> decide
  have hv1 : verifying (lineTo new c s) = verifying s := by simp [verifying, lineTo]
  have hv2 : verifying (cutterOff .line (lineTo new c s)) = verifying s := by simp [verifying, lineTo]
  by_cases hv : verifying s = true
  · have key : Keeps s (lineTo new c (s.setMsu s.msu.cancelled)) := by
      have h0 : Keeps s (s.setMsu s.msu.cancelled) := keeps_setMsu _ _ fun hg =>
        ⟨fun e => by simp [verifying, Msu.cancelled] at e, by
          simp [Msu.cancelled, result_none_of_verifying hg hv], fun _ => rfl, fun e => by simp [Msu.cancelled] at e⟩
      refine (keeps_raise _ _).after ((keeps_lineState (s.setMsu s.msu.cancelled) new (fun e => absurd e hh) he fun _ e => ?_).after h0)
      simp [verifying, Msu.cancelled] at e
    unfold gaugeCancel
    rw [hv1, hv2, if_pos hv, if_pos hv]
    refine ⟨(keeps_raise _ _).after ?_, (keeps_raise _ _).after ?_⟩
    · exact key
    · have e : (cutterOff .line (lineTo new c s)).setMsu
            { (cutterOff .line (lineTo new c s)).msu with
              verification := .idle, measured := [], origin := 0#32, barEndFrom := none }
          = cutterOff .line (lineTo new c (s.setMsu s.msu.cancelled)) := by
        by_cases hc : s.tsc.cutter = .off <;>
          exact State.eq_of_blocks (by simp [cutterOff, lineTo, cutterTo, hc, Msu.cancelled])
      rw [e]
      exact (keeps_cutterOff _ _).after key
  · have key : Keeps s (lineTo new c s) :=
      (keeps_raise _ _).after (keeps_lineState s new (fun e => absurd e hh) he fun _ e => absurd e hv)
    unfold gaugeCancel
    rw [hv1, hv2, if_neg hv, if_neg hv]
    exact ⟨key, (keeps_cutterOff _ _).after key⟩

theorem keeps_stopRunning (s : State) : Keeps s (stopRunning s) := by
  unfold stopRunning
  split
  · next he =>
    simp only [bothEmpty, Bool.and_eq_true, List.isEmpty_iff] at he
    exact (keeps_gaugeCancel_lineTo .stopped .request s (.inl rfl) (fun _ => he)).2
  · exact (keeps_gaugeCancel_lineTo .stopping .request s (.inr rfl) (by simp)).1

/-- The entry into RUNNING keeps the conditions from every line state. -/
theorem keeps_runs (s : State) : Keeps s (s.setLtr { s.ltr with lineState := .running }) :=
  keeps_lineState s .running (by simp) (by simp) (by simp)

theorem calm_levelsFollow (s : State) : Calm s (levelsFollow s) := by simp [Calm, levelsFollow]

theorem keeps_resumeEdge (e : TrimEye) (s : State) (h : s.ltr.lineState = .running) : Keeps s (resumeEdge e s) := by
  unfold resumeEdge
  dsimp only
  split
  · exact .refl s
  · exact (keeps_takeEdge _ _ _ (by simp [setLevel, h])).after (calm_setLevel _ _ s).keeps

theorem keeps_resumeDrop (s : State) : Keeps s (resumeDrop s) := by
  unfold resumeDrop
  dsimp only
  split
  · exact .refl s
  · split
    · exact (keeps_dropLead _).after (calm_setSrt s _).keeps
    · exact (calm_setSrt s _).keeps

theorem keeps_feedReadyChange (b : Bool) (s : State) : Keeps s (feedReadyChange b s) := by
  unfold feedReadyChange
  dsimp only
  have h0 : Keeps s (s.setFdp { s.fdp with feedReady := b }) := Calm.keeps (by simp [Calm])
  split
  · exact h0.trans (keeps_activity _)
  · exact h0.trans (keeps_idleTest _)

theorem keeps_resumeFeed (s : State) : Keeps s (resumeFeed s) := by
  unfold resumeFeed
  split
  · exact .refl s
  · exact keeps_feedReadyChange _ s

theorem keeps_resume (s : State) : Keeps s (resume s) := by
  unfold resume
  dsimp only
  have h1 : (s.setLtr { s.ltr with lineState := .running }).ltr.lineState = .running := rfl
  have h2 := (resumeEdge_keeps _ .measure h1).2.1
  have h3 := (resumeEdge_keeps _ .scan h2).2.1
  have h4 := (resumeEdge_keeps _ .saw h3).2.1
  have h5 := (resumeDrop_keeps _ h4).2.1
  have h6 := (resumeFeed_keeps _ h5).2.1
  refine (keeps_dischargeAll _).after ((keeps_enterSpinup _ _ (.inl (by simp [h6]))).after ((keeps_raise _ _).after ?_))
  exact (keeps_resumeFeed _).after ((keeps_resumeDrop _).after ((keeps_resumeEdge _ _ h3).after
    ((keeps_resumeEdge _ _ h2).after ((keeps_resumeEdge _ _ h1).after (keeps_runs s)))))

/-- A piece cleared leaves the Line Tracker alone, and of the queue what it does not name. -/
theorem clearPiece_queues (s : State) (p : Piece) : (clearPiece s p).ltr = s.ltr
    ∧ (clearPiece s p).srt.pieces = s.srt.pieces.filter fun q => !q.named p.tag p.index := by
  unfold clearPiece
  dsimp only
  split <;> simp [dropPiece]

/-- The clearing of the pieces of a list leaves those that none of them names. -/
theorem foldl_clearPiece_queues (ps : List Piece) (s : State) : (ps.foldl clearPiece s).ltr = s.ltr
    ∧ (ps.foldl clearPiece s).srt.pieces = s.srt.pieces.filter fun q => ps.all fun p => !q.named p.tag p.index := by
  induction ps generalizing s with
  | nil => simp
  | cons p ps ih =>
    obtain ⟨h1, h2⟩ := clearPiece_queues s p
    obtain ⟨i1, i2⟩ := ih (clearPiece s p)
    refine ⟨i1.trans h1, i2.trans ?_⟩
    rw [h2, List.filter_filter]
    exact List.filter_congr fun q _ => by simp [Bool.and_comm]

/-- LINE_CLEAR leaves no piece (R22). -/
theorem clearPieces_queues (s : State) : (clearPieces s).ltr = s.ltr ∧ (clearPieces s).srt.pieces = [] := by
  obtain ⟨h1, h2⟩ := foldl_clearPiece_queues s.srt.pieces s
  refine ⟨h1, h2.trans (List.filter_eq_nil_iff.mpr fun q hq => ?_)⟩
  simp only [List.all_eq_true, not_forall]
  exact ⟨q, hq, by simp [Piece.named]⟩

/-- The releases of the records' plans, one record after another, are those of their reservations (R22, R74). -/
theorem foldl_releasePlan (rs : List Strip) (s : State) :
    rs.foldl (fun s r => releasePlan r s) s = releaseAll (rs.flatMap Strip.reservations) s := by
  induction rs generalizing s with
  | nil => rfl
  | cons r rs ih =>
    rw [List.foldl_cons, ih, releasePlan_eq]
    simp [releaseAll, List.foldl_append]

/-- The strips' step of LINE_CLEAR: the releases, then no strip, cut list or computation (R22). -/
theorem clearStrips_eq (s : State) : clearStrips s = { s with
    ltr := { s.ltr with strips := [] }, ple := { s.ple with engine := none }, tsc := { s.tsc with cutLists := [] }
    otu := (clearStrips s).otu, lif := (clearStrips s).lif } := by
  refine State.eq_of_blocks ?_
  unfold clearStrips
  dsimp only
  rw [foldl_releasePlan, releaseAll_frame]
  simp

theorem keeps_clearStrips (s : State) : Keeps s (clearStrips s) := by
  have h1 : Keeps s (s.setPle { s.ple with engine := none }) := Calm.keeps (by simp [Calm])
  have h2 := keeps_foldl (fun s r => releasePlan r s) (fun s r => keeps_releasePlan r s) s.ltr.strips
    (s.setPle { s.ple with engine := none })
  have h3 : ∀ u : State, Calm u ((u.setLtr { u.ltr with strips := [] }).setTsc { u.tsc with cutLists := [] }) :=
    fun u => by simp [Calm]
  exact (h1.trans h2).calm (h3 _)

theorem keeps_clearPieces (s : State) : Keeps s (clearPieces s) :=
  keeps_foldl clearPiece keeps_clearPiece s.srt.pieces s

/-- LINE_CLEAR, which a line in HALTED takes (R22). -/
theorem keeps_clearAll (s : State) (h : s.ltr.lineState = .halted) : Keeps s (clearAll s) := by
  have hs : (clearStrips s).ltr = { s.ltr with strips := [] } := by rw [clearStrips_eq]
  obtain ⟨hl, hp⟩ := clearPieces_queues (clearStrips s)
  refine (keeps_drainTest _).after ((keeps_dischargeAll _).after
    (Keeps.after ?_ ((keeps_clearPieces _).after (keeps_clearStrips s))))
  rw [hs] at hl
  generalize clearPieces (clearStrips s) = u at hl hp
  unfold clearLine
  dsimp only
  refine (keeps_raise _ _).after ((keeps_lineState _ .stopped (by simp) (fun _ => ?_) fun _ _ => ?_).after
    (Calm.keeps ?_))
  · simp [levelsFollow, hl, hp]
  · simp [levelsFollow, hl, h]
  · simp [Calm, levelsFollow]

/-! ## Pacing -/

theorem keeps_periodStart (s : State) : Keeps s (periodStart s) := by
  unfold periodStart
  dsimp only
  split
  · exact Calm.keeps (by simp [Calm])
  · exact (keeps_raise _ _).after (Calm.keeps (by simp [Calm]))

/-- A FED slot is one that no hold bars: the line RUNNING, with room in the queue (R82, R83). -/
theorem keeps_fedSlot (s : State) (h : anyHold s = false) : Keeps s (fedSlot s) := by
  obtain ⟨hl, hs, -⟩ := (feedFree_iff s).mpr h
  unfold fedSlot
  refine (keeps_setFdp _ _ fun e => ?_).after (keeps_setLtr s _ rfl (.inr ⟨?_, by simp [hl]⟩))
  · simp [allocateStrip, hl] at e
  · simp; omega

theorem keeps_decideSlot (s : State) : Keeps s (decideSlot s) := by
  unfold decideSlot
  split
  · exact Calm.keeps (by simp [Calm])
  · split
    · unfold heldSlot
      dsimp only
      split
      · exact (keeps_wakeReport _).after (Calm.keeps (by simp [Calm]))
      · exact Calm.keeps (by simp [Calm])
    · next h =>
      split
      · exact keeps_fedSlot s (by simpa using h)
      · exact Calm.keeps (by simp [Calm])

theorem keeps_slotEvent (s : State) : Keeps s (slotEvent s) := by
  unfold slotEvent
  split
  · have h0 : Keeps s (nextSlot s) := Calm.keeps (by simp [Calm, nextSlot])
    dsimp only
    refine (keeps_decideSlot _).after ?_
    split
    · exact h0.trans (keeps_periodStart _)
    · exact h0
  · exact .refl s

theorem keeps_feedReadyEdge (b : Bool) (s : State) : Keeps s (feedReadyEdge b s) := by
  unfold feedReadyEdge
  split
  · exact .refl s
  · dsimp only
    split
    · exact (calm_setPins _ _).keeps
    · exact (keeps_feedReadyChange _ _).after (calm_setPins _ _).keeps

/-! ## Profiles -/

theorem calm_setPfc (s : State) (v : Pfc) : Calm s (s.setPfc v) := by simp [Calm]

theorem keeps_backToRunning (s : State) : Keeps s (backToRunning s) :=
  (keeps_profileTo _ _ _).after (calm_setPfc _ _).keeps

theorem keeps_changeTaken (n : Nat) (s : State) : Keeps s (changeTaken n s) := by
  unfold changeTaken
  split
  · split
    · exact .refl s
    · exact (keeps_drainTest _).after ((keeps_profileTo _ _ _).after (calm_setPfc _ _).keeps)
  · split
    · exact .refl s
    · split
      · exact keeps_backToRunning s
      · exact (calm_setPfc _ _).keeps
  · exact .refl s
  · exact (keeps_profileTo _ _ _).after (calm_setPfc _ _).keeps

theorem keeps_abortTaken (s : State) : Keeps s (abortTaken s) := by
  unfold abortTaken
  split
  · exact .refl s
  · exact (keeps_backToRunning _).after (calm_setPfc _ _).keeps

theorem keeps_toolingReadyRise (s : State) : Keeps s (toolingReadyRise s) := by
  unfold toolingReadyRise
  split
  · exact .refl s
  · dsimp only
    have h0 := (calm_setPins s { s.pins with toolingReady := true }).keeps
    split
    · exact (keeps_profileTo _ _ _).after (h0.calm (calm_setPfc _ _))
    · exact h0.calm (calm_setPfc _ _)

theorem keeps_toolingTimerExpiry (s : State) : Keeps s (toolingTimerExpiry s) := by
  unfold toolingTimerExpiry
  split
  · exact (keeps_profileTo _ _ _).after (calm_setPfc _ _).keeps
  · exact .refl s

/-! ## Bins -/

theorem keeps_disableTaken (n : Nat) (s : State) : Keeps s (disableTaken n s) := by
  unfold disableTaken
  split
  · exact .refl s
  · split
    · exact keeps_closeRequest _ _ s
    · exact keeps_modBin _ _ _
  · exact keeps_modBin _ _ _

theorem keeps_cartChange (n : Nat) (a : Bool) (s : State) : Keeps s (cartChange n a s) := by
  unfold cartChange
  split
  · exact .refl s
  · dsimp only
    have h0 := (calm_setPins s { s.pins with carts := tabMod s.pins.carts n fun _ => a }).keeps
    have h1 : Keeps s (if cartMasked (binAt s n) a then s.setPins { s.pins with carts := tabMod s.pins.carts n fun _ => a }
        else (s.setPins { s.pins with carts := tabMod s.pins.carts n fun _ => a }).raise (.cart n a)) := by
      split
      · exact h0
      · exact h0.trans (keeps_raise _ _)
    split
    · exact h1.trans (keeps_dischargeStart _ _)
    · exact h1

theorem keeps_dischargeEnd (n : Nat) (s : State) : Keeps s (dischargeEnd n s) := by
  unfold dischargeEnd
  split
  · refine (keeps_modBin _ _ _ fun _ _ _ => rfl).after (keeps_setBdb _ _ fun h => ?_)
    simpa [dischargedManifest] using h
  · exact .refl s

/-! ## Prints and labels -/

theorem calm_setPrq (s : State) (v : Prq) : Calm s (s.setPrq v) := by simp [Calm]

theorem calm_setLcp (s : State) (v : Lcp) : Calm s (s.setLcp v) := by simp [Calm]

theorem calm_startTest (s : State) : Calm s (startTest s) := by simp [Calm]

theorem calm_modSlot (s : State) (k : Nat) (f : Slot → Slot) : Calm s (s.modSlot k f) := by simp [Calm]

theorem keeps_modManifest (s : State) (n : Nat) (f : Manifest → Manifest) : Keeps s (s.modManifest n f) :=
  keeps_setBdb _ _ fun h => by simpa using h

theorem keeps_labelState (b : Option Nat) (l : LabelState) (s : State) : Keeps s (labelState b l s) := by
  unfold labelState
  split
  · exact .refl s
  · exact keeps_modManifest _ _ _

theorem keeps_rowRequest (s : State) : Keeps s (rowRequest s) := by
  unfold rowRequest
  split
  · exact .refl s
  · dsimp only
    split <;> exact (calm_setPrq _ _).keeps.after (calm_setPins _ _).keeps

theorem keeps_labelEnd (s : State) : Keeps s (labelEnd s) := by
  unfold labelEnd
  dsimp only
  exact (keeps_attempt _).after ((calm_modSlot _ _ _).keeps.after ((calm_setPrq _ _).keeps.after
    ((keeps_raise _ _).after ((keeps_labelState _ _ _).after (calm_setPrq s _).keeps))))

theorem keeps_rowTransferEnd (s : State) : Keeps s (rowTransferEnd s) := by
  unfold rowTransferEnd
  split
  · dsimp only
    split
    · exact (keeps_labelEnd _).after (calm_setPrq _ _).keeps
    · exact (calm_setPrq _ _).keeps
  · exact .refl s

theorem keeps_printFail (c : PrintCause) (s : State) : Keeps s (printFail c s) :=
  (calm_setPrq _ _).keeps.after ((keeps_raise _ _).after ((calm_modSlot _ _ _).keeps.after (calm_setPrq s _).keeps))

theorem keeps_printFaultAssert (s : State) : Keeps s (printFaultAssert s) := by
  unfold printFaultAssert
  split
  · exact .refl s
  · dsimp only
    split
    · exact (keeps_printFail _ _).after (calm_setPins _ _).keeps
    · exact (calm_setPrq _ _).keeps.after (calm_setPins _ _).keeps

theorem keeps_printFaultRelease (s : State) : Keeps s (printFaultRelease s) := by
  unfold printFaultRelease
  split
  · exact (calm_startTest _).keeps.after (calm_setPins _ _).keeps
  · exact .refl s

theorem keeps_printTimerExpiry (s : State) : Keeps s (printTimerExpiry s) := by
  unfold printTimerExpiry
  split
  · exact keeps_printFail _ s
  · exact .refl s

theorem keeps_printReadyRise (s : State) : Keeps s (printReadyRise s) := by
  unfold printReadyRise
  split
  · exact .refl s
  · exact (calm_startTest _).keeps.after (calm_setPins _ _).keeps

theorem keeps_donePulseEnd (s : State) : Keeps s (donePulseEnd s) := by
  unfold donePulseEnd
  split
  · exact (calm_startTest _).keeps.after (calm_setPrq _ _).keeps
  · exact .refl s

theorem keeps_retrySlot (k : Nat) (s : State) : Keeps s (retrySlot k s) := by
  unfold retrySlot
  exact (calm_startTest _).keeps.after ((calm_setPrq _ _).keeps.after (calm_modSlot s _ _).keeps)

theorem keeps_dropSlot (k : Nat) (s : State) : Keeps s (dropSlot k s) :=
  (calm_startTest _).keeps.after ((keeps_attempt _).after ((calm_modSlot _ _ _).keeps.after
    ((calm_setPrq _ _).keeps.after (keeps_labelState _ _ s))))

theorem keeps_finishRender (k n : Nat) (l : Image × List Nat) (s : State) : Keeps s (finishRender k n l s) :=
  (calm_startTest _).keeps.after ((calm_setLcp _ _).keeps.after ((calm_setPrq _ _).keeps.after
    ((calm_modSlot _ _ _).keeps.after (keeps_modManifest s _ _))))

theorem keeps_renderCompletion (s : State) : Keeps s (renderCompletion s) := by
  unfold renderCompletion
  split
  · exact .refl s
  · split
    · exact .refl s
    · split
      · exact .refl s
      · exact keeps_finishRender _ _ _ s

/-! ## 1 ms -/

theorem keeps_tick (s : State) : Keeps s (tick s) := by
  have always : ∀ u : State, Calm u (tickAlways u) := fun u => by simp [Calm, tickAlways]
  unfold tick
  refine (always _).keeps.after ?_
  split
  · exact .refl s
  · next h =>
    have h : s.ltr.lineState ≠ .halted := by simpa using h
    exact ⟨id, fun _ e => absurd e h, id, id⟩

end Sys2Proof.Machine
end

section
namespace Sys2Proof.Machine

open Sys2Proof

/-! ## The owners of the requests -/

/-- A request taken keeps the conditions; a refusal changes nothing. -/
def OkKeeps (s : State) (a : Answer) : Prop := ∀ t d, a = .ok (t, d) → Keeps s t

@[simp] theorem okKeeps_taken (s t : State) (d : List Byte) : OkKeeps s (taken t d) ↔ Keeps s t :=
  ⟨fun h => h t d rfl, fun h u e he => by cases he; exact h⟩

@[simp] theorem okKeeps_error (s : State) (c : ResultCode) : OkKeeps s (.error c) :=
  fun _ _ he => by cases he

@[simp] theorem okKeeps_refuseIf (s : State) (b : Bool) (c : ResultCode) (a : Answer) :
    OkKeeps s (refuseIf b c a) ↔ (b = false → OkKeeps s a) := by
  cases b <;> simp

@[simp] theorem okKeeps_refuseHalted (s : State) (a : Answer) :
    OkKeeps s (refuseHalted s a) ↔ (s.ltr.lineState ≠ .halted → OkKeeps s a) := by
  simp [refuseHalted]

@[simp] theorem okKeeps_refuseHeld (s : State) (a : Answer) :
    OkKeeps s (refuseHeld s a) ↔ (s.lcp.hold = false → OkKeeps s a) := by
  simp [refuseHeld]

@[simp] theorem okKeeps_refuseWatching (s : State) (a : Answer) :
    OkKeeps s (refuseWatching s a) ↔ (watching s = false → OkKeeps s a) := by
  simp [refuseWatching]

@[simp] theorem keeps_refl (s : State) : Keeps s s := .refl s
@[simp] theorem keeps_setPle (s : State) (v : Ple) : Keeps s (s.setPle v) := Calm.keeps (by simp [Calm])
@[simp] theorem keeps_setPfc (s : State) (v : Pfc) : Keeps s (s.setPfc v) := (calm_setPfc s v).keeps
@[simp] theorem keeps_setLcp (s : State) (v : Lcp) : Keeps s (s.setLcp v) := (calm_setLcp s v).keeps
@[simp] theorem keeps_setPrq (s : State) (v : Prq) : Keeps s (s.setPrq v) := (calm_setPrq s v).keeps
@[simp] theorem keeps_modLine (s : State) (k : Nat) (f : OrderLine → OrderLine) : Keeps s (s.modLine k f) :=
  Calm.keeps (by simp [Calm])

theorem okKeeps_lineGeometry (g : Geometry) (s : State) : OkKeeps s (lineGeometry g s) := by
  simp only [lineGeometry, okKeeps_refuseHalted, okKeeps_refuseIf, okKeeps_taken]
  exact fun _ _ _ => (keeps_setMsu _ _ (by exact id)).after (keeps_setLtr s _ rfl (by exact .inl le_rfl))

/-- LINE_START leaves HALTED to LINE_RESUME (R17). -/
theorem okKeeps_lineStart (s : State) : OkKeeps s (lineStart s) := by
  simp only [lineStart, okKeeps_refuseHalted, okKeeps_refuseIf]
  intro _ _
  have toRunning : ∀ u : State, Keeps u (lineTo .running .request u) := fun u =>
    (keeps_raise _ _).after (keeps_runs u)
  split
  · rw [okKeeps_taken]
    exact (keeps_enterSpinup _ _ (.inl (by simp [lineTo]))).after
      ((toRunning _).after (calm_levelsFollow s).keeps)
  · rw [okKeeps_taken]
    exact toRunning s
  · simp

theorem okKeeps_lineStop (s : State) : OkKeeps s (lineStop s) := by
  simp only [lineStop, okKeeps_refuseHalted, okKeeps_taken]
  intro _
  split
  · exact keeps_stopRunning s
  · exact .refl s

theorem okKeeps_lineClear (s : State) : OkKeeps s (lineClear s) := by
  simp only [lineClear, okKeeps_refuseIf, okKeeps_taken]
  exact fun h _ => keeps_clearAll s (by simpa using h)

theorem okKeeps_stripRead (n : Nat) (s : State) : OkKeeps s (stripRead n s) := by
  unfold stripRead
  split <;> simp

/-- GAUGE_VERIFY starts from RUNNING with no result held (R27). -/
theorem okKeeps_gaugeVerify (s : State) : OkKeeps s (gaugeVerify s) := by
  simp only [gaugeVerify, okKeeps_refuseHalted, okKeeps_refuseIf, okKeeps_taken]
  intro _ _ hl hr
  simp only [Bool.or_eq_false_iff, bne_eq_false_iff_eq] at hr
  obtain ⟨⟨⟨-, hrun⟩, -⟩, -⟩ := hr
  refine keeps_setMsu s _ fun ⟨_, hres, _⟩ => ⟨fun _ => hrun, ?_, fun _ => rfl, fun e => by simp at e⟩
  show s.msu.result.isSome = false
  rw [hres, hl]

/-- GAUGE_RELEASE leaves no verification and no result (R31). -/
theorem okKeeps_gaugeRelease (s : State) : OkKeeps s (gaugeRelease s) := by
  simp only [gaugeRelease, okKeeps_refuseIf, okKeeps_taken]
  exact fun _ => keeps_setMsu s _ fun _ =>
    ⟨fun e => by simp [verifying] at e, rfl, fun e => by simp at e, fun e => by simp at e⟩

theorem okKeeps_orderClose (k : Nat) (s : State) : OkKeeps s (orderClose k s) := by
  simp only [orderClose, okKeeps_refuseHalted, okKeeps_refuseIf]
  intro _ _ _
  split
  · simp
  · rw [okKeeps_taken]
    exact (keeps_drainLine _ _).after (keeps_modLine _ _ _)

theorem okKeeps_binSet (n : Nat) (e : SortEntry) (b : BundleSettings) (s : State) : OkKeeps s (binSet n e b s) := by
  simp only [binSet, okKeeps_refuseHalted, okKeeps_refuseIf, okKeeps_taken]
  exact fun h _ _ _ _ => (keeps_modBin _ _ _).after (calm_setSrt s _).keeps

/-- CART_MASK drives no discharge (R142). -/
theorem okKeeps_cartMask (a d : BitVec 16) (s : State) : OkKeeps s (cartMask a d s) := by
  simp only [cartMask, okKeeps_taken]
  refine keeps_setBdb s _ (hd := fun _ h y hy => ?_)
  simp only [Vector.mem_toList_iff, Vector.mem_mapFinIdx] at hy
  obtain ⟨i, hi, rfl⟩ := hy
  exact h s.bdb.bins[i] (by simp)

theorem okKeeps_manifestRead (n : Nat) (s : State) : OkKeeps s (manifestRead n s) := by
  unfold manifestRead
  split
  · simp
  · split <;> simp

/-- MANIFEST_TAKE makes room in the table before the attempt (R140, R141). -/
theorem okKeeps_manifestTake (n : Nat) (s : State) : OkKeeps s (manifestTake n s) := by
  unfold manifestTake
  split
  · simp
  · simp only [okKeeps_refuseIf, okKeeps_taken]
    exact fun _ => (keeps_attempt _).after
      (keeps_setBdb s _ fun h => (List.length_filter_le _ _).trans h)

theorem okKeeps_tplOp (o : Nat) (m p : Byte) (s : State) : OkKeeps s (tplOp o m p s) := by
  simp only [tplOp, okKeeps_refuseHeld]
  intro _
  split <;> simp

theorem okKeeps_tplHold (s : State) : OkKeeps s (tplHold s) := by
  unfold tplHold
  split
  · simp
  · rw [okKeeps_taken]
    exact (keeps_attempt _).after (keeps_setLcp _ _)

theorem okKeeps_printRetry (s : State) : OkKeeps s (printRetry s) := by
  unfold printRetry
  split
  · simp
  · rw [okKeeps_taken]; exact keeps_retrySlot _ s

theorem okKeeps_printDrop (s : State) : OkKeeps s (printDrop s) := by
  unfold printDrop
  split
  · simp
  · rw [okKeeps_taken]; exact keeps_dropSlot _ s

theorem okKeeps_setDate (d : List Byte) (s : State) : OkKeeps s (setDate d s) := by
  simp only [setDate, okKeeps_refuseIf, okKeeps_taken]
  exact fun _ _ => keeps_setLif s _ id id

theorem okKeeps_noticePoll (n : Nat) (s : State) : OkKeeps s (noticePoll n s) := by
  simp only [noticePoll, okKeeps_refuseIf, okKeeps_taken]
  exact fun _ => keeps_setLif s _ (fun h => by simp [Lif.polled]; omega) id

/-- Every owner's answer keeps the conditions. -/
theorem okKeeps_ownerAnswer (i : Instr) (s : State) : OkKeeps s (ownerAnswer i s) := by
  cases i with
  | lineStart _ => exact okKeeps_lineStart s
  | lineStop _ => exact okKeeps_lineStop s
  | lineResume _ => simp [ownerAnswer, lineResume, keeps_resume]
  | lineClear _ => exact okKeeps_lineClear s
  | lineGeometry _ g => exact okKeeps_lineGeometry g s
  | stripRead _ n => exact okKeeps_stripRead n s
  | measureSet _ c => simp [ownerAnswer, measureSet, keeps_setMsu s { s.msu with comp := c } id]
  | gaugeTable _ ms t =>
    simp only [ownerAnswer, gaugeTable, okKeeps_refuseIf, okKeeps_taken]
    exact fun _ _ _ => keeps_setMsu s _ id
  | gaugeVerify _ => exact okKeeps_gaugeVerify s
  | gaugeCancel _ => exact (okKeeps_taken _ _ _).mpr (keeps_gaugeCancel _ s)
  | gaugeRelease _ => exact okKeeps_gaugeRelease s
  | orderAmend _ k d =>
    simp only [ownerAnswer, orderAmend, okKeeps_refuseHalted, okKeeps_refuseIf, okKeeps_taken]
    exact fun _ _ _ _ => (keeps_fillLine _ _ _).after (keeps_modLine _ _ _)
  | orderClose _ k => exact okKeeps_orderClose k s
  | paceSet _ p =>
    simp only [ownerAnswer, paceSet, okKeeps_refuseHalted, okKeeps_refuseIf, okKeeps_taken]
    exact fun h _ _ => keeps_setFdp s _ fun e => absurd e h
  | profileChange _ n => simp [ownerAnswer, profileChange, keeps_changeTaken]
  | profileAbort _ => simp [ownerAnswer, profileAbort, keeps_abortTaken]
  | trimSet _ t =>
    simp only [ownerAnswer, trimSet, okKeeps_refuseHalted, okKeeps_refuseIf, okKeeps_taken]
    exact fun h _ => keeps_setTsc s _ fun e => absurd e h
  | headsSet _ t =>
    simp only [ownerAnswer, headsSet, okKeeps_refuseHalted, okKeeps_refuseIf, okKeeps_taken]
    exact fun h _ => keeps_setTsc s _ fun e => absurd e h
  | sortSet _ t =>
    simp only [ownerAnswer, sortSet, okKeeps_refuseHalted, okKeeps_refuseIf, okKeeps_taken]
    exact fun _ _ _ => (calm_setSrt s _).keeps
  | binSet _ n e b => exact okKeeps_binSet n e b s
  | binClose _ n => simp [ownerAnswer, binClose, keeps_closeRequest]
  | binDisable _ n => simp [ownerAnswer, binDisable, keeps_disableTaken]
  | cartMask _ a d => exact okKeeps_cartMask a d s
  | manifestRead _ n => exact okKeeps_manifestRead n s
  | manifestTake _ n => exact okKeeps_manifestTake n s
  | tplOp _ o m p => exact okKeeps_tplOp o m p s
  | tplHold _ => exact okKeeps_tplHold s
  | printRetry _ => exact okKeeps_printRetry s
  | printDrop _ => exact okKeeps_printDrop s
  | setDate _ d => exact okKeeps_setDate d s
  | noticePoll _ n => exact okKeeps_noticePoll n s
  | noticeMask _ m =>
    simp only [ownerAnswer, noticeMask, okKeeps_refuseIf, okKeeps_taken]
    exact fun _ => keeps_setLif s _ id id
  | _ =>
    simp [ownerAnswer, gradeSet, weightSet, classSet, valueSet, planOptions, orderLoad, orderRead, profileSet, binRead,
      tplWindow, tplAddr, tplWrite, tplFill, tplRead, tplClear, tplRelease, glyphWrite, protectSet, fieldSet, printSet]

end Sys2Proof.Machine
end

section
namespace Sys2Proof.Machine

open Sys2Proof

/-! ## Requests and frames -/

theorem keeps_setReply (s : State) (k t : Byte) (c : ResultCode) (d : List Byte) (r : Bool) :
    Keeps s (s.setReply k t c d r) := keeps_setLif s _ id id

theorem keeps_frameWhilePending (s : State) (r : Reply) : Keeps s (s.frameWhilePending r) := by
  unfold State.frameWhilePending
  split
  · exact .refl s
  · exact keeps_setLif s _ id id

theorem keeps_request (k t : Byte) (o : State → Answer) (s : State) (h : OkKeeps s (o s)) :
    Keeps s (request k t o s) := by
  unfold request
  split
  · exact keeps_frameWhilePending s _
  · split
    · next ho => exact (keeps_setReply _ _ _ _ _ _).after (h _ _ ho)
    · exact keeps_setReply _ _ _ _ _ _

theorem keeps_unanswered (o : State → Answer) (s : State) (h : OkKeeps s (o s)) : Keeps s (unanswered o s) := by
  unfold unanswered
  split
  · next ho => exact h _ _ ho
  · exact .refl s

theorem keeps_resetRequest (t : Byte) (s : State) : Keeps s (resetRequest t s) := by
  unfold resetRequest
  split
  · exact keeps_frameWhilePending s _
  · exact keeps_setReply _ _ _ _ _ _

/-- A command that is a request does what its owner answers, the addressed RESET apart (R174, R177). -/
theorem exec_request (i : Instr) (s : State) {k g : Byte} {p : List Byte}
    (h : Wire.writeRequest i = some (k, g, p)) :
    (∃ t, i = .reset t ∧ exec i s = .next (resetRequest t s)) ∨
      exec i s = .next (request k g (ownerAnswer i) s) := by
  cases i with
  | reset t => exact .inl ⟨t, rfl, rfl⟩
  | _ => cases h <;> exact .inr rfl

/-- The state after reset meets the four conditions, whatever state it is reset from (R177). -/
theorem keeps_freshState (s : State) : Keeps s (freshState s) := by
  refine ⟨fun _ => ?_, fun _ e => ?_, fun _ _ => ⟨rfl, rfl⟩, fun _ => ?_⟩
  · simp [State.queuesBounded, freshState, State.reset]
  · exact absurd e (by simp [freshState, State.reset])
  · exact ⟨fun e => by simp [verifying, freshState, State.reset] at e, rfl, fun _ => rfl,
      fun e => by simp [freshState, State.reset] at e⟩

theorem keeps_resetAll (s : State) : Keeps s (resetAll s) := by
  unfold resetAll
  split
  · exact (keeps_enterHalted _).after (keeps_freshState s)
  · exact keeps_freshState s

theorem keeps_addressedFrame (k t : Byte) (p : List Byte) (s : State) : Keeps s (addressedFrame k t p s) := by
  unfold addressedFrame
  split
  · exact keeps_resetRequest _ s
  · exact keeps_request _ _ _ s (okKeeps_ownerAnswer _ s)
  · exact keeps_request _ _ _ s (okKeeps_error s _)

theorem keeps_broadcastFrame (k : Byte) (p : List Byte) (s : State) : Keeps s (broadcastFrame k p s) := by
  unfold broadcastFrame
  split
  · exact keeps_frameWhilePending s _
  · split
    · exact keeps_resetAll s
    · split
      · exact keeps_unanswered _ s (okKeeps_setDate p s)
      · split
        · exact keeps_unanswered _ s (okKeeps_lineStop s)
        · exact keeps_setLif s _ id id

theorem keeps_scanFrame (k : Byte) (p : List Byte) (s : State) : Keeps s (scanFrame k p s) := by
  unfold scanFrame
  split
  · exact keeps_scanRecordReceived p s
  · exact keeps_setLif s _ id id

/-! ## The framers -/

theorem keeps_modRx (k : Link) (f : RxCounters → RxCounters) (s : State) : Keeps s (s.setLif (s.lif.modRx f k)) := by
  cases k <;> exact keeps_setLif s _ id id

theorem keeps_setFramer (k : Link) (f : Framer) (s : State) : Keeps s (s.setLif (s.lif.setFramer f k)) := by
  cases k <;> exact keeps_setLif s _ id id

theorem keeps_discard (k : Link) (f : RxCounters → RxCounters) (s : State) : Keeps s (discard k f s) :=
  (keeps_modRx k f _).after (keeps_setFramer k hunting s)

theorem keeps_frameCheck (k : Link) (b : List Byte) (s : State) : Keeps s (frameCheck k b s) := by
  unfold frameCheck
  dsimp only
  split
  · split
    · unfold controlFrame
      split
      · exact keeps_addressedFrame _ _ _ s
      · split
        · exact keeps_broadcastFrame _ _ s
        · exact keeps_modRx .control _ s
    · unfold scanLinkFrame
      split
      · exact keeps_scanFrame _ _ s
      · exact keeps_modRx .scan _ s
  · exact keeps_modRx k _ s

theorem keeps_framerByte (k : Link) (b : Byte) (s : State) : Keeps s (framerByte k b s) := by
  unfold framerByte
  split
  · exact .refl s
  · dsimp only
    split
    · unfold huntByte
      split
      · exact keeps_setFramer k _ s
      · exact keeps_modRx k _ s
    · unfold headerByte
      split
      · exact keeps_setFramer k _ s
      · split
        · exact keeps_discard k _ s
        · split <;> exact keeps_setFramer k _ s
    · exact keeps_setFramer k _ s
    · unfold crcByteTaken
      split
      · exact keeps_setFramer k _ s
      · exact (keeps_frameCheck k _ _).after (keeps_setFramer k _ s)

theorem keeps_gapExpiry (k : Link) (s : State) : Keeps s (gapExpiry k s) := by
  unfold gapExpiry
  split
  · exact .refl s
  · exact keeps_discard k _ s

theorem keeps_replyBegins (s : State) : Keeps s (replyBegins s) := by
  unfold replyBegins
  split
  · exact .refl s
  · split
    · exact .refl s
    · exact keeps_setLif s _ id id

theorem keeps_replySent (s : State) : Keeps s (replySent s) := by
  unfold replySent
  split
  · exact .refl s
  · split
    · dsimp only
      split
      · exact (keeps_resetAll _).after (keeps_setLif s _ id id)
      · exact keeps_setLif s _ id id
    · exact .refl s

theorem keeps_announceSent (s : State) : Keeps s (announceSent s) := by
  unfold announceSent
  split
  · exact .refl s
  · next hq => exact keeps_setLif s _ id fun h => by rw [hq] at h; exact (Nat.le_succ _).trans h

/-! ## Every step -/

/-- The state that a step leaves meets whatever the state before it met. -/
def OutcomeKeeps (s : State) : Outcome → Prop
  | .next t => Keeps s t
  | _ => True

/-- A diverter's pulse ends (R125). -/
theorem keeps_diverterPulseEnd (b : Nat) (s : State) :
    Keeps s (s.setSrt { s.srt with diverters := tabMod s.srt.diverters b fun _ => none }) := by
  refine keeps_setSrt s _ (.inl le_rfl) fun _ h d hd => ?_
  rcases mem_tabMod hd with hd | ⟨_, -, rfl⟩
  · exact h d hd
  · rfl

/-- Every command that is no request. -/
theorem outcomeKeeps_event (i : Instr) (s : State) (h : Wire.writeRequest i = none) : OutcomeKeeps s (exec i s) := by
  cases i with
  | powerOnReset stn rate => exact (keeps_resetAll _).after (calm_setPins s _).keeps
  | framerByte k b => exact keeps_framerByte k b s
  | gapTimerExpiry k => exact keeps_gapExpiry k s
  | broadcastFrame k p => exact keeps_broadcastFrame k p s
  | replySent => exact keeps_replySent s
  | scanRecord p => exact keeps_scanRecordReceived p s
  | announceSent => exact keeps_announceSent s
  | estopAssert => exact keeps_estopAssert s
  | estopRelease => exact (calm_setPins s _).keeps
  | encoderPulse e d => exact keeps_encoderPulse e d s
  | measureLeadingEdge => exact keeps_trimEdge .measure true s
  | measureTrailingEdge => exact keeps_trimEdge .measure false s
  | scanLeadingEdge => exact keeps_trimEdge .scan true s
  | scanTrailingEdge => exact keeps_trimEdge .scan false s
  | sawLeadingEdge => exact keeps_trimEdge .saw true s
  | sawTrailingEdge => exact keeps_trimEdge .saw false s
  | windowExpiry e t => exact keeps_windowExpiry e t s
  | deadline t => exact keeps_deliverDeadline t s
  | planCompletion => exact keeps_planCompletion s
  | barEnd => exact keeps_barEnd s
  | slotEvent => exact keeps_slotEvent s
  | feedReadyEdge b => exact keeps_feedReadyEdge b s
  | feedPulseEnd => exact keeps_setFdp s _ fun _ _ => rfl
  | toolingReadyRise => exact keeps_toolingReadyRise s
  | toolingReadyFall => exact (calm_setPins s _).keeps
  | toolingTimerExpiry => exact keeps_toolingTimerExpiry s
  | cutDue t => exact keeps_cutDue t s
  | sawPulseEnd => exact keeps_setTsc s _ fun _ _ hr hc => ⟨rfl, hr, hc⟩
  | spinupExpiry => exact keeps_spinupExpiry s
  | hysteresisExpiry => exact keeps_hysteresisExpiry s
  | residencyExpiry => exact keeps_residencyExpiry s
  | dropLeadingEdge => exact keeps_dropEdge true s
  | dropTrailingEdge => exact keeps_dropEdge false s
  | dropWindowExpiry t k => exact keeps_dropExpiry t k s
  | diverterFire t k => exact keeps_diverterFire t k s
  | diverterPulseEnd b => exact keeps_diverterPulseEnd b s
  | cart n a => exact keeps_cartChange n a s
  | dischargePulseEnd n => exact keeps_dischargeEnd n s
  | renderCompletion => exact keeps_renderCompletion s
  | printReadyRise => exact keeps_printReadyRise s
  | printFaultAssert => exact keeps_printFaultAssert s
  | printFaultRelease => exact keeps_printFaultRelease s
  | printTimerExpiry => exact keeps_printTimerExpiry s
  | rowRequest => exact keeps_rowRequest s
  | rowTransferEnd => exact keeps_rowTransferEnd s
  | strobeEnd => exact (calm_setPrq s _).keeps
  | donePulseEnd => exact keeps_donePulseEnd s
  | printReadyFall => exact (calm_setPins s _).keeps
  | rowRequestFall => exact (calm_setPins s _).keeps
  | replyBegins => exact keeps_replyBegins s
  | _ => cases h

theorem outcomeKeeps_exec (i : Instr) (s : State) : OutcomeKeeps s (exec i s) := by
  cases hw : Wire.writeRequest i with
  | none => exact outcomeKeeps_event i s hw
  | some w =>
    obtain ⟨k, g, p⟩ := w
    rcases exec_request i s hw with ⟨t, -, he⟩ | he <;> rw [he]
    · exact keeps_resetRequest t s
    · exact keeps_request k g _ s (okKeeps_ownerAnswer i s)

theorem calm_setPending (s : State) (q : List Instr) : Calm s (s.setPending q) := by simp [Calm, State.setPending]

/-- Every step keeps the four conditions. -/
theorem keeps_step (s t : State) (h : step s = .next t) : Keeps s t := by
  have hk : OutcomeKeeps s (step s) := by
    unfold step
    split
    · exact keeps_tick s
    · next c rest _ =>
      have := outcomeKeeps_exec c (s.setPending rest)
      revert this
      cases exec c (s.setPending rest) with
      | next u => exact fun hu => hu.after (calm_setPending s rest).keeps
      | fault => exact fun _ => trivial
      | refused => exact fun _ => trivial
  rwa [h] at hk

/-- Settles O4, as the part of what every step keeps that speaks of the queues. -/
theorem queuesStayBounded : Obligations.QueuesStayBounded :=
  fun s t hs h => (keeps_step s t h).bounded hs

/-- Settles O7, as the parts of what every step keeps that speak of the line state. -/
theorem lineStatesStaySound : Obligations.LineStatesStaySound :=
  ⟨fun s t hs h => (keeps_step s t h).quiet hs, fun s t hs h => (keeps_step s t h).empty hs,
    fun s t hs h => (keeps_step s t h).gauge hs⟩

end Sys2Proof.Machine
end

section
/-! PROOFS. What a request's answer comes to, and with it the statements about the group refusals (O12), the reads
(O14), LINE_START and LINE_STOP (O15) and the settings (O33). -/

namespace Sys2Proof.Machine

open Sys2Proof

/-! ## Answers -/

/-- The state after a request's owner has given its answer, with no reply pending before (R174). -/
def State.answered (s : State) (k g : Byte) : Answer → State
  | .ok (t, d) => { t with lif := t.lif.answering k g .ok d }
  | .error c => s.refusedWith k g c

theorem request_answered {s : State} (h : s.lif.reply = none) (k g : Byte) (o : State → Answer) :
    (.next (request k g o s) : Outcome) = .next (s.answered k g (o s)) := by
  unfold request
  rw [h]
  cases o s <;> rfl

@[simp] theorem answered_taken (s t : State) (k g : Byte) (d : List Byte) :
    s.answered k g (taken t d) = { t with lif := t.lif.answering k g .ok d } := rfl

@[simp] theorem answered_error (s : State) (k g : Byte) (c : ResultCode) :
    s.answered k g (.error c) = s.refusedWith k g c := rfl

@[simp] theorem answered_refuseIf (s : State) (k g : Byte) (b : Bool) (c : ResultCode) (a : Answer) :
    s.answered k g (refuseIf b c a) = if b = true then s.refusedWith k g c else s.answered k g a := by
  cases b <;> rfl

@[simp] theorem answered_refuseHalted (s : State) (k g : Byte) (a : Answer) :
    s.answered k g (refuseHalted s a)
      = if s.ltr.lineState = .halted then s.refusedWith k g .halted else s.answered k g a := by
  simp [refuseHalted]

/-! ## The group refusals -/

/-- In HALTED the owner of a request of the refused group answers HALTED (R20). -/
theorem ownerAnswer_halted (i : Instr) (s : State) (hi : refusedInHalted i = true) (hw : i.wellFormed = true)
    (h : s.ltr.lineState = .halted) : ownerAnswer i s = .error .halted := by
  cases i with
  | gradeSet _ n rows =>
    have hn : (rows.length != n) = false := by simp_all [Instr.wellFormed]
    have hrows : rows.any (fun r => r.name.length != 8 || r.maxsev.length != 8) = false := by
      simp_all [Instr.wellFormed, fitsGradeRow]
    simp only [ownerAnswer, gradeSet, hn, hrows, Bool.or_false, refuseIf_false]
    exact refuseHalted_halted s _ h
  | weightSet _ ws => simp_all [ownerAnswer, weightSet, refuseHalted, Instr.wellFormed]
  | classSet _ n bs => simp_all [ownerAnswer, classSet, refuseHalted, Instr.wellFormed]
  | valueSet _ vs => simp_all [ownerAnswer, valueSet, refuseHalted, Instr.wellFormed]
  | orderLoad _ k o => simp_all [ownerAnswer, orderLoad, refuseHalted, Instr.wellFormed, fitsOrder]
  | profileSet _ n p => simp_all [ownerAnswer, profileSet, refuseHalted, Instr.wellFormed, fitsProfile]
  | lineStart | lineStop | lineGeometry | gaugeVerify | planOptions | orderAmend | orderClose | paceSet
  | profileChange | profileAbort | headsSet | trimSet | sortSet | binSet | binClose | binDisable =>
    exact refuseHalted_halted s _ h
  | _ => simp [refusedInHalted] at hi

theorem ownerAnswer_held (i : Instr) (s : State) (hi : refusedWhileHeld i = true) (hw : i.wellFormed = true)
    (h : s.lcp.hold = true) : ownerAnswer i s = .error .isProtected := by
  cases i with
  | tplWrite _ d => simp_all [ownerAnswer, tplWrite, refuseHeld, Instr.wellFormed, within]
  | glyphWrite _ st f n d =>
    have hlen : glyphLengthOk st n d = true := by
      simp only [Instr.wellFormed, fitsGlyphs, Bool.and_eq_true, decide_eq_true_eq, beq_iff_eq] at hw
      obtain ⟨⟨⟨⟨hst, -⟩, -⟩, hd⟩, -⟩ := hw
      interval_cases st <;> simp [glyphLengthOk, glyphSize, hd]
    simp [ownerAnswer, glyphWrite, refuseHeld, h, hlen]
  | tplWindow | tplAddr | tplOp | tplFill | tplClear | protectSet | fieldSet =>
    simp [ownerAnswer, tplWindow, tplAddr, tplOp, tplFill, tplClear, protectSet, fieldSet, refuseHeld, h]
  | _ => simp [refusedWhileHeld] at hi

/-- Settles O12, by the owners' first checks. -/
theorem groupRefusalsChangeNothing : Obligations.GroupRefusalsChangeNothing := by
  have refused : ∀ (i : Instr) (k g : Byte) (p : List Byte) (s : State) (c : ResultCode),
      Wire.writeRequest i = some (k, g, p) → (∀ t, i ≠ .reset t) → s.lif.reply = none →
      ownerAnswer i s = .error c → exec i s = .next (s.refusedWith k g c) := by
    intro i k g p s c hw hne hr ho
    rcases exec_request i s hw with ⟨t, e, -⟩ | he
    · exact absurd e (hne t)
    · rw [he, request_answered hr, ho, answered_error]
  constructor
  · intro i k g p s hi hwf hw hl hr
    exact refused i k g p s _ hw (by rintro t rfl; simp [refusedInHalted] at hi) hr (ownerAnswer_halted i s hi hwf hl)
  · intro i k g p s hi hwf hw hl hr
    exact refused i k g p s _ hw (by rintro t rfl; simp [refusedWhileHeld] at hi) hr (ownerAnswer_held i s hi hwf hl)

/-! ## The line's start and stop -/

theorem configured_iff (s : State) : configured s = true ↔ s.hasConfiguration := by
  simp [configured, State.hasConfiguration, and_assoc]

/-- With no verification in flight there is none to cancel (R30). -/
theorem gaugeCancel_idle (c : GaugeCause) (s : State)
    (h : s.msu.verification = .idle ∨ s.msu.verification = .latched) : gaugeCancel c s = s := by
  rcases h with h | h <;> simp [gaugeCancel, verifying, h]

/-- A verification in flight cancelled (R30). -/
theorem gaugeCancel_inFlight (c : GaugeCause) (s : State)
    (h : s.msu.verification = .armed ∨ s.msu.verification = .onBar) :
    gaugeCancel c s = { s with
      msu := s.msu.cancelled, lif := s.lif.raise (.gaugeResult .cancelled c s.msu.measured.length 0) } := by
  have hv : verifying s = true := by simpa [verifying] using h
  rw [gaugeCancel, if_pos hv]
  exact State.eq_of_blocks (by simp [Msu.cancelled])

/-- LINE_STOP taken in RUNNING with both queues empty (R18, R109). -/
theorem stopRunning_empty (s : State) (h1 : s.ltr.strips = []) (h2 : s.srt.pieces = []) :
    stopRunning s = gaugeCancel .line (cutterOff .line (lineTo .stopped .request s)) := by
  simp [stopRunning, bothEmpty, h1, h2]

/-- LINE_STOP taken in RUNNING with a strip or a piece on the line (R18). -/
theorem stopRunning_busy (s : State) (h : s.ltr.strips ≠ [] ∨ s.srt.pieces ≠ []) :
    stopRunning s = gaugeCancel .line (lineTo .stopping .request s) := by
  have hb : bothEmpty s = false := by
    simp only [bothEmpty, Bool.and_eq_false_iff, List.isEmpty_eq_false_iff]
    exact h
  simp [stopRunning, hb]

/-- Settles O15, case by case over the line state. -/
theorem lineStartAndStop : Obligations.LineStartAndStop := by
  constructor
  · intro g s hr
    have hstart : exec (.lineStart g) s = .next (s.answered 0x10#8 g (lineStart s)) := request_answered hr _ _ _
    rw [hstart]
    simp only [lineStart, answered_refuseHalted, answered_refuseIf, ← configured_iff]
    refine ⟨fun h => ?_, fun h hc => ?_, fun h hc => ?_, fun h hc => ?_, fun h hc => ?_⟩
    · simp [h]
    · simp [h, hc]
    · exact congrArg _ (State.eq_of_blocks (by
        simp [h, hc, enterSpinup, cutterTo, lineTo, levelsFollow, Tsc.spinningUp, Cutter.driven]))
    · exact congrArg _ (State.eq_of_blocks (by simp [h, hc, lineTo]))
    · simp [h, hc]
  · intro g s hr
    have hstop : exec (.lineStop g) s = .next (s.answered 0x11#8 g (lineStop s)) := request_answered hr _ _ _
    rw [hstop]
    simp only [lineStop, answered_refuseHalted, answered_taken]
    refine ⟨fun h => ?_, fun h => ?_, fun h h1 h2 hc hv => ?_, fun h h1 h2 hc hv => ?_, fun h hq hv => ?_,
      fun h hq hv => ?_⟩
    · simp [h]
    · rcases h with h | h <;> simp [h]
    · exact congrArg _ (State.eq_of_blocks (by
        simp [h, stopRunning_empty s h1 h2, gaugeCancel_idle, hv, hc, cutterOff, cutterTo, lineTo, Tsc.switchedOff,
          Cutter.driven]))
    · exact congrArg _ (State.eq_of_blocks (by
        simp [h, stopRunning_empty s h1 h2, gaugeCancel_inFlight, hv, hc, cutterOff, cutterTo, lineTo, Tsc.switchedOff,
          Cutter.driven]))
    · exact congrArg _ (State.eq_of_blocks (by simp [h, stopRunning_busy s hq, gaugeCancel_idle, hv, lineTo]))
    · exact congrArg _ (State.eq_of_blocks (by simp [h, stopRunning_busy s hq, gaugeCancel_inFlight, hv, lineTo]))

end Sys2Proof.Machine
end

section
namespace Sys2Proof.Machine

open Sys2Proof

/-! ## Settings -/

theorem watching_iff (s : State) : watching s = true ↔ s.ltr.lineState = .running ∨ s.ltr.lineState = .stopping := by
  simp [watching]

/-- An outcome by a chain of checks, from the owner's answer by the same chain. -/
theorem next_congr {t u : State} (h : t = u) : (.next t : Outcome) = .next u := congrArg _ h

theorem paceOk_iff (p : PaceSettings) : paceOk p = true ↔
    (10 ≤ p.scale ∧ p.scale ≤ 2000) ∧ (100 ≤ p.slotPitch ∧ p.slotPitch ≤ 2000)
      ∧ (10 ≤ p.feedPulse ∧ p.feedPulse ≤ 1000) ∧ (p.t1 ≤ 32 ∧ p.t2 < p.t1 ∧ p.t3 < p.t2)
      ∧ (p.s1 ≤ 64 ∧ p.s2 < p.s1 ∧ p.s3 < p.s2) ∧ (1 ≤ p.b1 ∧ p.b1 < p.b2 ∧ p.b2 < p.b3 ∧ p.b3 ≤ 14)
      ∧ (p.g1 ≤ 255 ∧ p.g2 ≤ 255 ∧ p.g3 ≤ 255) := by
  simp only [paceOk, within, Bool.and_eq_true, decide_eq_true_eq]
  omega

theorem geometryOk_iff (g : Geometry) : geometryOk g = true ↔
    10 ≤ g.scale ∧ g.scale ≤ 2000 ∧ 50 ≤ g.dScan ∧ g.dScan ≤ 20000 ∧ 100 ≤ g.dSaw ∧ g.dSaw ≤ 40000
      ∧ 1 ≤ g.eyeTol ∧ g.eyeTol ≤ 200 ∧ 10 ≤ g.planLead ∧ g.planLead ≤ 40000
      ∧ 100 ≤ g.feedWindow ∧ g.feedWindow ≤ 20000
      ∧ g.eyeTol < g.dScan ∧ (g.dScan : Int) + g.eyeTol < g.dSaw - g.planLead ∧ g.eyeTol < g.planLead := by
  simp only [geometryOk, within, Bool.and_eq_true, decide_eq_true_eq]
  omega

theorem trimOk_iff (t : TrimSettings) : trimOk t = true ↔
    (20 ≤ t.sawDistance ∧ t.sawDistance ≤ 2000) ∧ t.sawLead ≤ 1000 ∧ t.sawLead < t.sawDistance
      ∧ (10 ≤ t.sawPulse ∧ t.sawPulse ≤ 500) ∧ (1 ≤ t.slipTol ∧ t.slipTol ≤ 50)
      ∧ (-5000 ≤ t.sawComp ∧ t.sawComp ≤ 5000) := by
  simp only [trimOk, within, withinInt, Bool.and_eq_true, decide_eq_true_eq]
  omega

theorem headsOk_iff (h : HeadsSettings) : headsOk h = true ↔
    h.hysteresis ≤ 600000 ∧ h.residency ≤ 600000 ∧ (100 ≤ h.spinUp ∧ h.spinUp ≤ 30000)
      ∧ (100 ≤ h.path ∧ h.path ≤ 100000) ∧ (100 ≤ h.speed ∧ h.speed ≤ 5000) := by
  simp only [headsOk, within, Bool.and_eq_true, decide_eq_true_eq]
  omega

theorem sortOk_iff (n : SortSettings) : sortOk n = true ↔
    (10 ≤ n.scale ∧ n.scale ≤ 2000) ∧ (100 ≤ n.dropWindow ∧ n.dropWindow ≤ 20000) := by
  simp [sortOk, within]

/-- A check whose condition is the failure of a test. -/
theorem not_eq_true_iff {b : Bool} {p : Prop} (h : b = true ↔ p) : (!b) = true ↔ ¬ p := by
  rw [Bool.not_eq_true', Bool.eq_false_iff, ne_eq, h]

/-- Settles O33, each request's chain of checks matched with the statement's. -/
theorem settingsAreReplaced : Obligations.SettingsAreReplaced := by
  refine ⟨fun t g s hr => ?_, fun g p s hr => ?_, fun g s hr => ⟨fun t => ?_, fun h => ?_, fun n => ?_⟩⟩
  · refine (request_answered hr 0x14#8 t (lineGeometry g)).trans (next_congr ?_)
    simp only [lineGeometry, answered_refuseHalted, answered_refuseIf]
    exact if_congr .rfl rfl (if_congr (not_eq_true_iff (geometryOk_iff g)) rfl (if_congr (watching_iff s) rfl rfl))
  · refine (request_answered hr 0x40#8 g (paceSet p)).trans (next_congr ?_)
    simp only [paceSet, answered_refuseHalted, answered_refuseIf]
    refine if_congr .rfl rfl (if_congr (not_eq_true_iff (paceOk_iff p)) rfl (if_congr ?_ rfl rfl))
    simp [watching_iff]
  · refine (request_answered hr 0x50#8 g (trimSet t)).trans (next_congr ?_)
    simp only [trimSet, answered_refuseHalted, answered_refuseIf]
    exact if_congr .rfl rfl (if_congr (not_eq_true_iff (trimOk_iff t)) rfl rfl)
  · refine (request_answered hr 0x51#8 g (headsSet h)).trans (next_congr ?_)
    simp only [headsSet, answered_refuseHalted, answered_refuseIf]
    exact if_congr .rfl rfl (if_congr (not_eq_true_iff (headsOk_iff h)) rfl rfl)
  · refine (request_answered hr 0x54#8 g (sortSet n)).trans (next_congr ?_)
    simp only [sortSet, answered_refuseHalted, answered_refuseIf]
    refine if_congr .rfl rfl (if_congr (not_eq_true_iff (sortOk_iff n)) rfl (if_congr ?_ rfl rfl))
    simp [watching_iff]

/-! ## Reads -/

/-- The place of a tag whose records before it carry others (R16). -/
theorem placeOf_append_cons (s : State) {r : Strip} {older younger : List Strip}
    (hs : s.ltr.strips = older ++ r :: younger) (h : ∀ x ∈ older, x.tag ≠ r.tag) :
    placeOf s r.tag = older.length + 1 := by
  have h0 : older.findIdx (fun x => x.tag == r.tag) = older.length := by
    simpa [List.findIdx_eq_length] using h
  simp [placeOf, hs, List.findIdx_append, h0, List.findIdx_cons]

theorem stripOf_append_cons (s : State) {r : Strip} {older younger : List Strip}
    (hs : s.ltr.strips = older ++ r :: younger) (h : ∀ x ∈ older, x.tag ≠ r.tag) : stripOf s r.tag = some r := by
  have h0 : older.find? (fun x => x.tag == r.tag) = none := by simpa using h
  simp [stripOf, hs, List.find?_append, h0]

theorem LabelState.code_eq_idxOf (l : LabelState) :
    l.code = [LabelState.pending, .printed, .lost].idxOf l := by cases l <;> rfl

theorem GaugeStatus.code_eq_idxOf (u : GaugeStatus) :
    u.code = [GaugeStatus.unverified, .pass, .suspect].idxOf u := by cases u <;> rfl

theorem CloseReason.code_eq_idxOf (r : CloseReason) :
    r.code = [CloseReason.full, .requested, .profile, .disable].idxOf r := by cases r <;> rfl

@[simp] theorem holdsNumber_be1_self (n : Nat) : holdsNumber (be1 n) 0 1 n := by
  simpa using holdsNumber_be1 n []

@[simp] theorem holdsNumber_be4_self (n : Nat) : holdsNumber (be4 n) 0 4 n := by
  simpa using holdsNumber_be4 n []

@[simp] theorem holdsNumber_beFlag_self (b : Bool) : holdsNumber (beFlag b) 0 1 b.toNat := by
  simpa using holdsNumber_beFlag b []

@[simp] theorem holdsText_beText_self (k : Nat) (t : Text) : holdsText (beText k t) 0 k t := by
  simpa using holdsText_beText k t []

theorem TallyKey.bytes_order (r : Text) : (TallyKey.order r).bytes = be1 0 ++ beText 12 r := rfl

theorem TallyKey.bytes_stock : TallyKey.stock.bytes = be1 1 ++ beText 12 [] := rfl

/-- Each byte of the tally i stands in the tallies' field (section 12.6). -/
theorem getElem?_talliesField {ts : List Tally} {i j : Nat} {t : Tally} (bs : List Byte) (hi : i < 6) (hj : j < 19)
    (h : ts[i]? = some t) : (beText 114 (ts.flatMap Tally.bytes) ++ bs)[19 * i + j]? = t.bytes[j]? := by
  obtain ⟨post, hp⟩ := drop_tallies h
  have hb : (ts.flatMap Tally.bytes)[19 * i + j]? = t.bytes[j]? := by
    rw [← List.getElem?_drop, hp, List.getElem?_append_left (by simpa using hj)]
  have hf := holdsText_beText 114 (ts.flatMap Tally.bytes) bs (19 * i + j) (by omega)
  rw [Nat.zero_add] at hf
  have hj' : j < t.bytes.length := by simpa using hj
  rw [hf, List.getD_eq_getElem?_getD, hb, List.getElem?_eq_getElem hj']
  rfl

/-- A number of the tally i stands in the tallies' field. -/
theorem holdsNumber_talliesField {ts : List Tally} {i o k n : Nat} {t : Tally} (bs : List Byte) (hi : i < 6)
    (hk : o + k ≤ 19) (h : ts[i]? = some t) (ht : holdsNumber t.bytes o k n) :
    holdsNumber (beText 114 (ts.flatMap Tally.bytes) ++ bs) (19 * i + o) k n := fun j hj => by
  rw [Nat.add_assoc, getElem?_talliesField bs hi (by omega) h, ht j hj]

/-- A text of the tally i stands in the tallies' field. -/
theorem holdsText_talliesField {ts : List Tally} {i o k : Nat} {t : Tally} {x : Text} (bs : List Byte) (hi : i < 6)
    (hk : o + k ≤ 19) (h : ts[i]? = some t) (ht : holdsText t.bytes o k x) :
    holdsText (beText 114 (ts.flatMap Tally.bytes) ++ bs) (19 * i + o) k x := fun j hj => by
  rw [Nat.add_assoc, getElem?_talliesField bs hi (by omega) h, ht j hj]

/-- Past the last tally the field holds 00h. -/
theorem holdsText_afterTallies {ts : List Tally} {i : Nat} (bs : List Byte) (hi : i < 6) (h : ts.length ≤ i) :
    holdsText (beText 114 (ts.flatMap Tally.bytes) ++ bs) (19 * i) 19 [] := fun j hj => by
  have hf := holdsText_beText 114 (ts.flatMap Tally.bytes) bs (19 * i + j) (by omega)
  rw [Nat.zero_add] at hf
  rw [hf, List.getD_eq_default _ _ (by rw [length_tallies]; omega)]
  rfl

/-- The check fields with the tallies' field singled out. -/
theorem Manifest.checkFields_tallies (m : Manifest) : ∃ pre post, pre.length = 35
    ∧ m.checkFields = pre ++ (beText 114 (m.tallies.flatMap Tally.bytes) ++ post) :=
  ⟨be4 m.number ++ be1 m.bin ++ be1 m.worst ++ be1 m.colour.code ++ m.perClass.toList.flatMap be2 ++ be2 m.pieces
      ++ be4 m.lineal ++ be4 m.shorts ++ be1 m.rows ++ be1 m.tallies.length,
    be1 m.profile ++ be1 m.gauge.code ++ beText 8 m.date ++ be1 m.reason.code, by simp, by simp [checkFields]⟩

/-- The check fields stand at their offsets (section 12.6). -/
theorem Manifest.checkLaid_checkFields (m : Manifest) : m.checkLaid m.checkFields := by
  obtain ⟨pre, post, hpre, hfields⟩ := m.checkFields_tallies
  have at35 : ∀ o k n, holdsNumber m.checkFields (35 + o) k n
      ↔ holdsNumber (beText 114 (m.tallies.flatMap Tally.bytes) ++ post) o k n := fun o k n => by
    rw [hfields, holdsNumber_append (by omega), hpre, Nat.add_sub_cancel_left]
  have text35 : ∀ o k x, holdsText m.checkFields (35 + o) k x
      ↔ holdsText (beText 114 (m.tallies.flatMap Tally.bytes) ++ post) o k x := fun o k x => by
    rw [hfields, holdsText_append (by omega), hpre, Nat.add_sub_cancel_left]
  refine ⟨m.length_checkFields, ?_, fun c n h1 h8 hc => ?_, fun i t hi ht => ⟨?_, fun r hr => ⟨?_, ?_⟩, fun hr => ⟨?_, ?_⟩⟩,
    fun i hi ht => ?_, ?_⟩
  · simp [holdsNumbers, checkFields, holdsNumber_append, GaugeStatus.code_eq_idxOf, CloseReason.code_eq_idxOf]
    cases m.colour <;> simp [BundleColour.code]
  · have hx : m.perClass.toList[c - 1]? = some n := by
      simp only [tabGet, if_neg (show ¬ c = 0 by omega)] at hc
      simpa using hc
    simp only [checkFields, List.append_assoc]
    rw [holdsNumber_append (by simp; omega), holdsNumber_append (by simp; omega), holdsNumber_append (by simp; omega),
      holdsNumber_append (by simp; omega)]
    convert holdsNumber_flatMap_be2 _ hx using 1
    simp; omega
  · have hn : holdsNumber t.bytes 13 2 t.pieces ∧ holdsNumber t.bytes 15 4 t.mm := by
      simp [Tally.bytes, holdsNumber_append]
    simp only [holdsNumbers, List.forall_mem_cons, Nat.add_assoc 35, at35]
    exact ⟨holdsNumber_talliesField post hi (by omega) ht hn.1,
      holdsNumber_talliesField post hi (by omega) ht hn.2, by simp⟩
  · exact (at35 _ _ _).mpr (holdsNumber_talliesField (o := 0) post hi (by omega) ht (by
      simp [Tally.bytes, hr, TallyKey.bytes_order]))
  · rw [Nat.add_assoc]
    exact (text35 _ _ _).mpr (holdsText_talliesField post hi (by omega) ht (by
      simp [Tally.bytes, hr, TallyKey.bytes_order, holdsText_append]))
  · exact (at35 _ _ _).mpr (holdsNumber_talliesField (o := 0) post hi (by omega) ht (by
      simp [Tally.bytes, hr, TallyKey.bytes_stock]))
  · rw [Nat.add_assoc]
    exact (text35 _ _ _).mpr (holdsText_talliesField post hi (by omega) ht (by
      simp [Tally.bytes, hr, TallyKey.bytes_stock, holdsText_append]))
  · exact (text35 _ _ _).mpr (holdsText_afterTallies post hi ht)
  · simp [checkFields, holdsText_append]

theorem Manifest.take_record (m : Manifest) : m.record.take 160 = m.checkFields := by
  rw [Manifest.record]
  simp [Manifest.length_checkFields]

/-- Settles O14, each read by its owner's answer. -/
theorem readsAnswerAndChangeNothing : Obligations.ReadsAnswerAndChangeNothing := by
  refine ⟨fun g s hr => ?_, fun g s hr => ⟨fun r older younger hs ho => ?_, fun n hn => ?_, fun f n => ?_, fun b => ?_, ?_,
    fun n m hn hm => ?_, fun n hn hm => ?_⟩, fun m => ⟨?_, ?_, ?_, ?_⟩⟩
  · exact ⟨request_answered hr _ _ _, request_answered hr _ _ _, request_answered hr _ _ _, request_answered hr _ _ _,
      request_answered hr _ _ _, request_answered hr _ _ _, request_answered hr _ _ _, request_answered hr _ _ _,
      request_answered hr _ _ _, request_answered hr _ _ _, request_answered hr _ _ _⟩
  · refine (request_answered hr 0x16#8 g (stripRead r.tag)).trans (next_congr ?_)
    simp only [stripRead, stripOf_append_cons s hs ho, placeOf_append_cons s hs ho, answered_taken]
  · refine (request_answered hr 0x16#8 g (stripRead n)).trans (next_congr ?_)
    have hnone : stripOf s n = none := by simpa [stripOf] using hn
    simp only [stripRead, hnone, answered_error]
  · refine (request_answered hr 0x33#8 g (orderRead f n)).trans (next_congr ?_)
    have hok : (!lineOk f || !within 1 16 n || decide (32 < f + n - 1)) = true
        ↔ ¬ (1 ≤ f ∧ 1 ≤ n ∧ n ≤ 16 ∧ f + n ≤ 33) := by
      simp [lineOk, within]; omega
    simp only [orderRead, answered_refuseIf, answered_taken, hok, ite_not]
    refine if_congr .rfl ?_ rfl
    simp [beList, List.flatMap_map]
  · refine (request_answered hr 0x5B#8 g (binRead b)).trans (next_congr ?_)
    have hok : (!binOk b) = true ↔ ¬ (1 ≤ b ∧ b ≤ 14) := by
      simp [binOk, within]; omega
    simp only [binRead, answered_refuseIf, answered_taken, hok, ite_not]
  · refine (request_answered hr 0x5D#8 g (manifestRead 0)).trans (next_congr ?_)
    rfl
  · refine (request_answered hr 0x5D#8 g (manifestRead n)).trans (next_congr ?_)
    simp only [manifestRead, if_neg hn, manifestOf, hm, answered_taken]
  · refine (request_answered hr 0x5D#8 g (manifestRead n)).trans (next_congr ?_)
    have hnone : manifestOf s n = none := by simpa [manifestOf] using hm
    simp only [manifestRead, if_neg hn, hnone, answered_error]
  · refine ⟨by simp [Manifest.record, Manifest.length_checkFields], ?_, ?_, ?_⟩
    · rw [m.take_record]; exact m.checkLaid_checkFields
    · simp [holdsNumbers, Manifest.record, holdsNumber_append, Manifest.length_checkFields, LabelState.code_eq_idxOf]
    · have hc : m.clipped.flatMap be1 = m.clipped.map (BitVec.ofNat 8) := by
        rw [List.map_eq_flatMap]; rfl
      simp [Manifest.record, holdsText_append, Manifest.length_checkFields, hc]
  · exact m.take_record
  · simp [manifestSummary]
  · simp [holdsNumbers, manifestSummary, holdsNumber_append, LabelState.code_eq_idxOf]

end Sys2Proof.Machine
end

section
/-! PROOFS. The passage of 1 ms (O2), the emergency stop (O18) and the encoders and eye inputs (O19). -/

namespace Sys2Proof.Machine

open Sys2Proof

/-- Settles O2: with no command waiting a step is a tick, which in HALTED leaves the held times. -/
theorem emptyQueuePassesOneMs : Obligations.EmptyQueuePassesOneMs := by
  intro s hp
  refine ⟨tick s, step_tick s hp, ?_⟩
  by_cases h : s.ltr.lineState = .halted
  · have ht : tick s = tickAlways s := by simp [tick, h]
    rw [ht]
    exact ⟨rfl, rfl, rfl, fun _ => ⟨rfl, rfl, rfl, rfl⟩, fun hn => absurd h hn⟩
  · have ht : tick s = tickAlways (tickHeld s) := by simp [tick, h]
    rw [ht]
    exact ⟨rfl, rfl, rfl, fun hh => absurd hh h, fun _ => ⟨rfl, rfl, rfl, rfl⟩⟩

/-- Settles O18, from the entry to HALTED block by block. -/
theorem estopHaltsTheLine : Obligations.EstopHaltsTheLine := by
  intro s
  refine ⟨rfl, fun h => ?_, fun h he => ?_⟩
  · have ha : estopAssert s = s.setPins { s.pins with estop := true } := by simp [estopAssert, h]
    exact congrArg _ ha
  · have ha : estopAssert s = enterHalted (s.setPins { s.pins with estop := true }) := by simp [estopAssert, h, he]
    refine ⟨estopAssert s, rfl, ?_⟩
    rw [ha, enterHalted_eq]
    refine ⟨rfl, fun d hd => ?_, rfl, fun hv => ?_, fun hv => ?_, ?_⟩
    · obtain ⟨-, rfl⟩ : (∃ x, x ∈ s.srt.diverters) ∧ none = d := by simpa using hd
      rfl
    · exact if_neg (by simpa [verifying] using hv)
    · exact if_pos (by simpa [verifying] using hv)
    · have hn : (s.setPins { s.pins with estop := true }).haltNotices = s.haltNotices := rfl
      show ((s.setPins { s.pins with estop := true }).haltNotices.foldl Lif.raise s.lif) = _
      rw [hn]
      by_cases hc : s.tsc.cutter = .off <;> by_cases hv : verifying s = true <;> simp [State.haltNotices, hc, hv]

/-! ## Edges of the trim eyes -/

/-- An edge to the level the input has (log 3). -/
theorem trimEdge_same {e : TrimEye} {b : Bool} {s : State} (h : s.pins.eyes.get e = b) : trimEdge e b s = s := by
  simp [trimEdge, h]

/-- In STOPPED the level follows its input (section 1.5). -/
theorem trimEdge_stopped {e : TrimEye} {b : Bool} {s : State} (h : s.pins.eyes.get e ≠ b)
    (hl : s.ltr.lineState = .stopped) : trimEdge e b s = s.sees e b := by
  simp [trimEdge, h, hl, setLevel, State.sees, State.setPins, State.setLtr]

/-- In HALTED the level holds (section 1.5). -/
theorem trimEdge_halted {e : TrimEye} {b : Bool} {s : State} (h : s.pins.eyes.get e ≠ b)
    (hl : s.ltr.lineState = .halted) :
    trimEdge e b s = { s with pins := { s.pins with eyes := s.pins.eyes.put e b } } := by
  simp [trimEdge, h, hl, State.setPins]

/-- In RUNNING and STOPPING the edge is taken (R6). -/
theorem trimEdge_watching {e : TrimEye} {b : Bool} {s : State} (h : s.pins.eyes.get e ≠ b)
    (hl : s.ltr.lineState = .running ∨ s.ltr.lineState = .stopping) :
    trimEdge e b s = takeEdge e b (s.sees e b) := by
  rcases hl with hl | hl <;>
    simp [trimEdge, h, hl, setLevel, State.sees, State.setPins, State.setLtr]

/-- Settles O19, by the encoder and by the line state. -/
theorem encodersAndEyes : Obligations.EncodersAndEyes := by
  refine ⟨fun s => ⟨fun h e d => ?_, fun h => ?_⟩, fun s c e b hc => ?_⟩
  · exact next_congr (t := encoderPulse e d s) (by simp [encoderPulse, h])
  · have moved : ∀ e d t, encoderPulse e d s = t → exec (.encoderPulse e d) s = .next t := fun _ _ _ => congrArg _
    have hp : ∀ e d, encoderPulse e d s = match e with
        | .trim => trimPulse d s
        | .infeed => s.setFdp { s.fdp with pos := pulse s.fdp.pos s.fdp.settings.scale d }
        | .sort => s.setSrt { s.srt with pos := pulse s.srt.pos s.srt.settings.scale d } := fun e d => by
      cases e <;> simp [encoderPulse, h]
    refine ⟨moved _ _ _ (hp _ _), moved _ _ _ (hp _ _), moved _ _ _ (hp _ _), moved _ _ _ (hp _ _),
      fun d => ⟨_, moved _ _ _ (hp _ _), rfl, ?_, rfl⟩⟩
    cases d <;> rfl
  · have he : exec c s = .next (trimEdge e b s) := by
      simp only [List.mem_cons, Prod.mk.injEq, List.not_mem_nil, or_false] at hc
      rcases hc with ⟨rfl, rfl, rfl⟩ | ⟨rfl, rfl, rfl⟩ | ⟨rfl, rfl, rfl⟩ | ⟨rfl, rfl, rfl⟩ | ⟨rfl, rfl, rfl⟩ | ⟨rfl, rfl, rfl⟩ <;>
        rfl
    rw [he]
    exact ⟨fun h => congrArg _ (trimEdge_same h), fun h hl => congrArg _ (trimEdge_stopped h hl),
      fun h hl => congrArg _ (trimEdge_halted h hl)⟩

end Sys2Proof.Machine
end

section
/-! PROOFS. The slots of a feed period (O34). -/

namespace Sys2Proof.Machine

open Sys2Proof

theorem umOfMm_eq (mm : Nat) : umOfMm mm = BitVec.ofNat 32 (1000 * mm) := by rw [umOfMm, Nat.mul_comm]

/-- After tag 65,535 comes 1 (R3). -/
theorem tagAfter_spec (t : Nat) : (t < 65535 → tagAfter t = t + 1) ∧ tagAfter 65535 = 1 :=
  ⟨fun h => if_pos h, rfl⟩

theorem reached_iff (now p : Pos) : reached now p = true ↔ 0 ≤ (now - p).toInt := decide_eq_true_iff

theorem exceeded_iff (now p : Pos) : exceeded now p = true ↔ 0 < (now - p).toInt := decide_eq_true_iff

/-- A slot event is due when the infeed position has reached the next boundary, outside HALTED (R78). -/
theorem slotEvent_notDue (s : State)
    (h : s.ltr.lineState = .halted ∨ (s.fdp.pos - s.fdp.nextBoundary).toInt < 0) : slotEvent s = s := by
  have hd : ¬ (s.ltr.lineState ≠ .halted ∧ reached s.fdp.pos s.fdp.nextBoundary = true) := by
    rw [reached_iff]
    exact fun ⟨h1, h2⟩ => h.elim h1 fun h => by omega
  exact if_neg (by simpa using hd)

/-- A slot event within a feed period (R78). -/
theorem slotEvent_within (s : State) (hl : s.ltr.lineState ≠ .halted)
    (hd : 0 ≤ (s.fdp.pos - s.fdp.nextBoundary).toInt) (hi : s.fdp.slotIndex < 15) :
    slotEvent s = decideSlot (nextSlot s) := by
  have hn : ¬ (nextSlot s).fdp.slotIndex = 0 := by simp [nextSlot, hi]
  have hr := (reached_iff _ _).mpr hd
  simp [slotEvent, hl, hr, hn]

/-- The slot event that opens a feed period (R80). -/
theorem slotEvent_opens (s : State) (hl : s.ltr.lineState ≠ .halted)
    (hd : 0 ≤ (s.fdp.pos - s.fdp.nextBoundary).toInt) (hi : 15 ≤ s.fdp.slotIndex) :
    slotEvent s = decideSlot (periodStart (nextSlot s)) := by
  have hn : (nextSlot s).fdp.slotIndex = 0 := by simp [nextSlot, show ¬ s.fdp.slotIndex < 15 by omega]
  have hr := (reached_iff _ _).mpr hd
  simp [slotEvent, hl, hr, hn]

/-- The gap count of a pace level, by the level (R81). -/
theorem gapsOf_eq (p : PaceSettings) (l : Nat) :
    gapsOf p l = if l = 0 then 0 else if l = 1 then p.g1 else if l = 2 then p.g2 else p.g3 := by
  match l with
  | 0 | 1 | 2 => rfl
  | _ + 3 => rfl

/-- The levels of R80 read one condition after another. -/
theorem levelOf_decide (a b c : Prop) [Decidable a] [Decidable b] [Decidable c] :
    levelOf (decide a) (decide b) (decide c) = if a then 3 else if b then 2 else if c then 1 else 0 := by
  simp [levelOf]

/-- The start of a feed period, with every value read named as R80 and R81 name it. -/
theorem periodStart_nextSlot (s : State) {free sort blocked tl sl bl level : Nat} {p : PaceSettings}
    (hi : 15 ≤ s.fdp.slotIndex) (hp : p = s.fdp.settings) (hfree : free = 32 - s.ltr.strips.length)
    (hsort : sort = 64 - s.srt.pieces.length)
    (hblocked : blocked = s.bdb.bins.toList.countP fun b =>
      b.state == .closePending || b.state == .closing || b.state == .waitCart)
    (htl : tl = if free < p.t3 then 3 else if free < p.t2 then 2 else if free < p.t1 then 1 else 0)
    (hsl : sl = if sort < p.s3 then 3 else if sort < p.s2 then 2 else if sort < p.s1 then 1 else 0)
    (hbl : bl = if p.b3 ≤ blocked then 3 else if p.b2 ≤ blocked then 2 else if p.b1 ≤ blocked then 1 else 0)
    (hlevel : level = max tl (max sl bl)) :
    periodStart (nextSlot s) = { s with
      fdp := { s.fdp with
        slotIndex := 0, nextBoundary := s.fdp.nextBoundary + umOfMm p.slotPitch
        level := level, trackLevel := tl, sortLevel := sl, binLevel := bl
        trackFree := free, sortFree := sort, blockedBins := blocked
        gapCount := if level = 0 then 0 else if level = 1 then p.g1 else if level = 2 then p.g2 else p.g3 }
      lif := if level = s.fdp.level then s.lif
             else s.lif.raise (.paceLevel level s.fdp.level tl sl bl free sort blocked) } := by
  subst hp
  have hf : stripFree (nextSlot s) = free := hfree.symm
  have hs : pieceFree (nextSlot s) = sort := hsort.symm
  have hb : blockedBins (nextSlot s) = blocked := hblocked.symm
  have h1 : trackLevelOf s.fdp.settings free = tl := (levelOf_decide _ _ _).trans htl.symm
  have h2 : sortLevelOf s.fdp.settings sort = sl := (levelOf_decide _ _ _).trans hsl.symm
  have h3 : binLevelOf s.fdp.settings blocked = bl := (levelOf_decide _ _ _).trans hbl.symm
  have hset : (nextSlot s).fdp.settings = s.fdp.settings := rfl
  unfold periodStart
  simp only [hset, hf, hs, hb, h1, h2, h3, ← hlevel, ← gapsOf_eq]
  by_cases he : level = s.fdp.level <;>
    exact State.eq_of_blocks (by simp [he, nextSlot, show ¬ s.fdp.slotIndex < 15 by omega])

/-- Settles O34: a slot event is the slot's decision after the index and boundary advance and, at slot 0, the
feed period's start. -/
theorem slotsOfAFeedPeriod : Obligations.SlotsOfAFeedPeriod := by
  refine ⟨tagAfter_spec, umOfMm_eq, fun s h => congrArg Host.Outcome.next (slotEvent_notDue s h), fun s hl hd => ⟨fun hi => ?_, fun hi => ?_⟩⟩
  · refine ⟨slotEvent s, rfl, ?_⟩
    rw [slotEvent_within s hl hd hi]
    have hn : nextSlot s = { s with fdp := { s.fdp with
        slotIndex := s.fdp.slotIndex + 1
        nextBoundary := s.fdp.nextBoundary + umOfMm s.fdp.settings.slotPitch } } := by
      simp [nextSlot, hi, State.setFdp]
    rw [← hn]
    exact slotDecided_decideSlot _
  · intro free sort blocked tl sl bl level p hp hfree hsort hblocked htl hsl hbl hlevel
    refine ⟨slotEvent s, rfl, ?_⟩
    rw [slotEvent_opens s hl hd hi, periodStart_nextSlot s hi hp hfree hsort hblocked htl hsl hbl hlevel]
    exact slotDecided_decideSlot _

end Sys2Proof.Machine
end

section
/-! PROOFS. LINE_RESUME (O16). -/

namespace Sys2Proof.Machine

open Sys2Proof

/-- A trim eye whose level is its input's takes no edge (R21). -/
theorem resumeEdge_same (e : TrimEye) (s : State) (h : s.ltr.level = s.pins.eyes) : resumeEdge e s = s := by
  simp [resumeEdge, h]

/-- With no cart at a bin in WAIT_CART no discharge begins (R143). -/
theorem dischargeAll_none (s : State) (h : ∀ b, (binAt s b).state = .waitCart → tabGet s.pins.carts b ≠ some true) :
    dischargeAll s = s := by
  have one : ∀ b, dischargeStart b s = s := fun b => by
    refine if_neg ?_
    have hw : ¬ ((binAt s b).state = .waitCart ∧ cartPresent s b = true) := by
      rintro ⟨h1, h2⟩
      exact h b h1 (Option.getD_eq_iff.mp h2 |>.resolve_right (by simp))
    simp only [Bool.and_eq_true, beq_iff_eq, and_assoc]
    exact fun ⟨h1, h2, _⟩ => hw ⟨h1, h2⟩
  exact List.foldl_fixed' one _

/-- The five catch-ups of a resume, one after another (R21, R84, R118). -/
def caughtUp (s : State) : State :=
  resumeFeed (resumeDrop (resumeEdge .saw (resumeEdge .scan (resumeEdge .measure s))))

/-- The entry into RUNNING after the catch-ups, with its notices (R17, R109). -/
def resumed (old : LineState) (u : State) : State :=
  { u with
    tsc := u.tsc.spinningUp
    lif := (u.lif.raise (.lineState .running old .request)).raise (.cutterState .spinup u.tsc.cutter .request) }

theorem enterSpinup_raise (old : LineState) (u : State) :
    enterSpinup .request (u.raise (.lineState .running old .request)) = resumed old u := rfl

theorem resume_eq (s : State) : resume s
    = dischargeAll (resumed s.ltr.lineState (caughtUp (s.setLtr { s.ltr with lineState := .running }))) := by
  unfold resume caughtUp
  dsimp only
  rw [enterSpinup_raise]

/-- The answer to a LINE_RESUME that is taken (R21). -/
theorem answered_lineResume (g : Byte) (s : State) (h : s.ltr.lineState = .halted) (he : s.pins.estop = false)
    (hc : s.hasConfiguration) : s.answered 0x12#8 g (lineResume s)
      = { resume s with lif := (resume s).lif.answering 0x12#8 g .ok [] } := by
  rw [← configured_iff] at hc
  simp [lineResume, h, he, hc]

/-- Each catch-up of a resume is that of its own command, and together they leave every level at its input (R21). -/
theorem caughtUp_spec (s : State) (h : s.ltr.lineState = .running) :
    (caughtUp s).pins = s.pins ∧ (caughtUp s).ltr.lineState = .running
      ∧ (caughtUp s).ltr.trimPos = s.ltr.trimPos ∧ (caughtUp s).ltr.level = s.pins.eyes
      ∧ (caughtUp s).srt.level = s.pins.drop ∧ (caughtUp s).fdp.feedReady = s.pins.feedReady
      ∧ ∃ u1 u2 u3 u4 : State, s.eyeCatchesUp .measure u1 ∧ u1.eyeCatchesUp .scan u2 ∧ u2.eyeCatchesUp .saw u3
        ∧ u3.dropCatchesUp u4 ∧ u4.feedCatchesUp (caughtUp s) := by
  obtain ⟨p1, r1, t1, l1, d1, f1⟩ := resumeEdge_keeps s .measure h
  obtain ⟨p2, r2, t2, l2, d2, f2⟩ := resumeEdge_keeps _ .scan r1
  obtain ⟨p3, r3, t3, l3, d3, f3⟩ := resumeEdge_keeps _ .saw r2
  obtain ⟨p4, r4, t4, l4, d4, f4⟩ := resumeDrop_keeps _ r3
  obtain ⟨p5, r5, t5, l5, d5, f5⟩ := resumeFeed_keeps _ r4
  refine ⟨?_, r5, ?_, ?_, ?_, ?_, _, _, _, _, eyeCatchesUp_resumeEdge .measure s h, eyeCatchesUp_resumeEdge .scan _ r1,
    eyeCatchesUp_resumeEdge .saw _ r2, dropCatchesUp_resumeDrop _ r3, feedCatchesUp_resumeFeed _ r4⟩ <;>
    unfold caughtUp
  · rw [p5, p4, p3, p2, p1]
  · rw [t5, t4, t3, t2, t1]
  · rw [l5, l4, l3, l2, l1, p2, p1]
    rfl
  · rw [d5, d4, p3, p2, p1]
  · rw [f5, p4, p3, p2, p1]

/-- Settles O16: the catch-ups are those of the resume's own chain. -/
theorem lineResumeReturnsToRunning : Obligations.LineResumeReturnsToRunning := by
  intro g s hr
  have hres : exec (.lineResume g) s = .next (s.answered 0x12#8 g (lineResume s)) := request_answered hr _ _ _
  rw [hres]
  refine ⟨fun h => ?_, fun h he => ?_, fun h he hc => ?_, fun h he hc h1 h2 h3 h4 => ?_, fun h he hc => ?_⟩
  · simp [lineResume, h]
  · simp [lineResume, h, he]
  · rw [← configured_iff] at hc
    simp [lineResume, h, he, hc]
  · rw [answered_lineResume g s h he hc, resume_eq]
    have hcaught : caughtUp (s.setLtr { s.ltr with lineState := .running })
        = s.setLtr { s.ltr with lineState := .running } := by
      simp [caughtUp, resumeEdge_same _ (s.setLtr { s.ltr with lineState := .running }) h1, resumeDrop, resumeFeed, h2, h3]
    have hnone : dischargeAll (resumed s.ltr.lineState (s.setLtr { s.ltr with lineState := .running })) = _ :=
      dischargeAll_none _ h4
    rw [hcaught, hnone, h]
    rfl
  · have h0 : (s.setLtr { s.ltr with lineState := .running }).ltr.lineState = .running := rfl
    obtain ⟨hp, hl, ht, he', hd, hf, u1, u2, u3, u4, c1, c2, c3, c4, c5⟩ := caughtUp_spec _ h0
    rw [answered_lineResume g s h he hc, resume_eq, h]
    generalize caughtUp (s.setLtr { s.ltr with lineState := .running }) = u at *
    obtain ⟨hall, hbins⟩ := dischargeAll_spec (resumed .halted u) (by simp [resumed, hl])
    refine ⟨_, rfl, ?_⟩
    generalize dischargeAll (resumed .halted u) = t at *
    rw [hall]
    refine ⟨hl, ht, he', hd, hf, rfl, rfl, hp, u1, u2, u3, u4, u, c1, c2, c3, c4, c5, rfl, fun b => ?_⟩
    refine (hbins b).trans ?_
    rw [show (resumed .halted u).pins = s.pins from hp]
    rfl

end Sys2Proof.Machine
end

section
/-! PROOFS. The edges of the measure, scan and saw eyes (O20, O21). -/

namespace Sys2Proof.Machine

open Sys2Proof

/-! ## The record an edge is matched to -/

/-- A record is expected at an eye where it has a window there whose opening is reached (R6). -/
theorem expectedAt_iff (r : Strip) (e : TrimEye) :
    r.expectedAt e = true ↔ ∃ w, r.window e = some w ∧ w.reached = true := by
  unfold Strip.expectedAt
  cases r.window e <;> simp

/-- The oldest record expected at an eye is the one matched (R8, R10, R11). -/
theorem matchAt_oldest {s : State} {e : TrimEye} {older younger : List Strip} {r : Strip}
    (hs : s.ltr.strips = older ++ r :: younger) (ho : ∀ x ∈ older, x.expectedAt e = false)
    (hr : r.expectedAt e = true) : matchAt s e = some r := by
  have hnone : older.find? (fun x => x.expectedAt e) = none := by
    simpa [List.find?_eq_none] using ho
  simp [matchAt, hs, List.find?_append, hnone, hr]

theorem matchAt_none {s : State} {e : TrimEye} (h : ∀ x ∈ s.ltr.strips, x.expectedAt e = false) :
    matchAt s e = none := by
  simpa [matchAt, List.find?_eq_none] using h

/-- An edge's command in RUNNING and STOPPING, at an input that changes: the edge is taken (R6). -/
theorem exec_edge {s : State} (e : TrimEye) (b : Bool) (hw : watching s = true) (h : s.pins.eyes.get e = !b) :
    exec (edgeOf e b) s = .next (takeEdge e b (s.sees e b)) := by
  have hx : exec (edgeOf e b) s = .next (trimEdge e b s) := by cases e <;> cases b <;> rfl
  rw [hx, trimEdge_watching (by simp [h]) ((watching_iff s).mp hw)]

/-! ## The measure eye -/

theorem eligible_iff (r : Strip) :
    r.eligible = true ↔ (∃ l, r.length = some l) ∧ (∃ c, r.scan = some c) ∧ r.status = .pending := by
  simp [Strip.eligible, Option.isSome_iff_exists, and_assoc]

/-- The first entry of a key after a change of that key's entries which keeps the keys. -/
theorem find?_map_key {α : Type} (key : α → Nat) (k : Nat) (f : α → α) (hf : ∀ x, key (f x) = key x) (l : List α) :
    (l.map fun x => if key x == k then f x else x).find? (fun x => key x == k)
      = (l.find? fun x => key x == k).map f := by
  induction l with
  | nil => rfl
  | cons x xs ih =>
    by_cases hx : key x = k
    · simp [hx, hf]
    · simpa [hx, List.find?_cons, -List.find?_map] using ih

/-- The strip record of a tag after a change that keeps the tags. -/
theorem stripOf_modStrip (s : State) (tag : Nat) (f : Strip → Strip) (hf : ∀ x, (f x).tag = x.tag) :
    stripOf (s.modStrip tag f) tag = (stripOf s tag).map f := find?_map_key Strip.tag tag f hf s.ltr.strips

/-- The cut list of a tag after a change that keeps the tags. -/
theorem cutListOf_modCuts (s : State) (tag : Nat) (f : CutList → CutList) (hf : ∀ x, (f x).tag = x.tag) :
    cutListOf (s.modCuts tag f) tag = (cutListOf s tag).map f := find?_map_key CutList.tag tag f hf s.tsc.cutLists

/-- Two changes of the record of a tag, the first of which keeps the tags. -/
theorem modStrip_modStrip (s : State) (tag : Nat) (f g : Strip → Strip) (hf : ∀ x, (f x).tag = x.tag) :
    (s.modStrip tag f).modStrip tag g = s.modStrip tag (g ∘ f) := by
  refine State.eq_of_blocks ?_
  simp only [State.modStrip, State.setLtr, List.map_map, true_and, and_true]
  congr 1
  refine List.map_congr_left fun x _ => ?_
  by_cases hx : x.tag = tag <;> simp [hx, hf]

theorem stripOf_tag {s : State} {tag : Nat} {r : Strip} (h : stripOf s tag = some r) : r.tag = tag := by
  simpa using List.find?_some h

/-- The length as R24 holds it. -/
theorem lengthOf_eq (d c : Int) : (lengthOf d c : Int) = max 1 (min 65535 ((d + c + 500) / 1000)) := by
  unfold lengthOf; omega

theorem statusAfterLength_eq (l : Nat) (p : PlanStatus) : statusAfterLength l p
    = if p = .pending ∧ ¬ (150 ≤ l ∧ l ≤ 3000) then .uncut .outOfRange else p := by
  have hr : lengthInRange l = true ↔ 150 ≤ l ∧ l ≤ 3000 := by simp [lengthInRange, within]
  by_cases h : 150 ≤ l ∧ l ≤ 3000 <;> simp [statusAfterLength, hr, h, ← Bool.not_eq_true]

theorem afterMeasure_eq (p : Phase) : p.afterMeasure = if p = .measuring then .travelling else p := by
  cases p <;> rfl

/-- Outside a verification a leading edge at the measure eye is matched or a stray (R8). -/
theorem measureLead_matched {s : State} {r : Strip} (hv : verifying s = false) (hm : matchAt s .measure = some r) :
    measureLead s = measureMatch r s := by
  simp [measureLead, hv, hm]

theorem measureLead_stray {s : State} (hv : verifying s = false) (hm : matchAt s .measure = none) :
    measureLead s = measureStray s := by
  simp [measureLead, hv, hm]

/-- A record past its trailing edge at the measure eye (R9). -/
def Strip.measureEnded (r : Strip) : Strip := { r with phase := r.phase.afterMeasure }

/-- A trailing edge at the measure eye with a holder whose record has no length yet: the record's phase and length are
written, then an IDLE engine takes up (R9, R24, R25, R49). -/
theorem measureTrail_writes {s : State} {tag : Nat} {r : Strip} {p : Pos} (hv : verifying s = false)
    (hh : s.ltr.holder.measure = some tag) (hr : stripOf s tag = some r) (hl : r.length = none)
    (hp : r.leadPos = some p) :
    ∃ u, u = (setHolder .measure none s).modStrip tag
        (withLength (lengthOf (s.ltr.trimPos - p).toInt s.msu.comp) ∘ Strip.measureEnded)
      ∧ measureTrail s = takeUp u := by
  refine ⟨_, rfl, ?_⟩
  have hr' : stripOf ((setHolder .measure none s).modStrip tag Strip.measureEnded) tag = some r.measureEnded :=
    (stripOf_modStrip (setHolder .measure none s) tag Strip.measureEnded fun _ => rfl).trans (congrArg _ hr)
  have hw : measureTrail s = lengthWrite r.measureEnded ((setHolder .measure none s).modStrip tag Strip.measureEnded) := by
    unfold measureTrail
    rw [hv, hh]
    change (match stripOf ((setHolder .measure none s).modStrip tag Strip.measureEnded) tag with
      | none => _ | some r => _) = _
    rw [hr']
    rfl
  have hl' : r.measureEnded.length = none := hl
  have hp' : r.measureEnded.leadPos = some p := hp
  have ht : r.tag = tag := stripOf_tag hr
  have ht' : r.measureEnded.tag = tag := ht
  simp only [hw, lengthWrite, hl', hp', ht']
  exact congrArg takeUp (modStrip_modStrip _ _ Strip.measureEnded _ fun _ => rfl)

/-- Settles O20: matched, stray without and with a record, and the trailing edge. -/
theorem measureEyeEdges : Obligations.MeasureEyeEdges := by
  refine ⟨fun r => ⟨expectedAt_iff r, rfl, rfl, rfl, eligible_iff r⟩, fun _ _ _ => rfl,
    fun s => ⟨watching_iff s, by simp [verifying]⟩, tagAfter_spec, umOfMm_eq, fun s hw hv he => ⟨?_, ?_, ?_⟩,
    fun s hw hv he => ⟨?_, ?_⟩⟩
  · intro older younger r hs ho hr
    refine (exec_edge .measure true hw he).trans (next_congr ?_)
    refine (measureLead_matched (s := s.sees .measure true) hv (matchAt_oldest hs ho hr)).trans (State.eq_of_blocks ?_)
    simp [measureMatch, setHolder, State.modStrip, State.sees, PerEye.put, measured, scanWindow, sawWindow, deadlinePos]
  · intro hn hfull
    refine (exec_edge .measure true hw he).trans (next_congr ?_)
    refine (measureLead_stray (s := s.sees .measure true) hv (matchAt_none hn)).trans ?_
    have hrec : strayRecorded (countStray .measure (s.sees .measure true)) = false := by
      rcases hfull with h | h | h <;> simp [strayRecorded, stripFree, Config.stripCapacity, countStray, setHolder, State.sees, h]
    simp only [measureStray, hrec]
    exact State.eq_of_blocks (by simp [countStray, setHolder, State.sees, PerEye.put, PerEye.get, bump])
  · intro hn hroom hpfc
    refine ⟨strayStrip (countStray .measure (s.sees .measure true)), _, rfl, ?_,
      rfl, rfl, rfl, rfl, rfl, rfl, rfl, rfl, rfl, rfl, rfl, rfl, rfl, rfl, rfl⟩
    refine (exec_edge .measure true hw he).trans (next_congr ?_)
    refine (measureLead_stray (s := s.sees .measure true) hv (matchAt_none hn)).trans ?_
    have hrec : strayRecorded (countStray .measure (s.sees .measure true)) = true := by
      rcases hpfc with h | h <;> simp [strayRecorded, stripFree, Config.stripCapacity, countStray, setHolder, State.sees, h, hroom]
    simp only [measureStray, hrec]
    by_cases hi : s.tsc.cutter = .idleWait <;>
      exact State.eq_of_blocks (by
        simp [activity, cutterTo, Cutter.driven, hi, allocateStrip, countStray, setHolder, State.sees, PerEye.put, PerEye.get, bump])
  · intro hh
    refine (exec_edge .measure false hw he).trans (next_congr ?_)
    have hv' : verifying (s.sees .measure false) = false := hv
    have hh' : (s.sees .measure false).ltr.holder.measure = none := hh
    simp [takeEdge, measureTrail, hv', hh']
  · intro tag r p hh hr hl hp
    obtain ⟨u, hu, hedge⟩ := measureTrail_writes (s := s.sees .measure false) hv hh hr hl hp
    refine ⟨lengthOf (s.ltr.trimPos - p).toInt s.msu.comp, u, hu.trans (State.eq_of_blocks ?_), lengthOf_eq _ _,
      fun hb => ?_, fun hi => ?_⟩
    · simp [setHolder, State.modStrip, State.sees, PerEye.put, withLength, statusAfterLength_eq, afterMeasure_eq, Strip.measureEnded]
    · refine (exec_edge .measure false hw he).trans (next_congr (hedge.trans (takeUp_busy u ?_)))
      rw [hu]; exact hb
    · refine ⟨takeUp u, (exec_edge .measure false hw he).trans (next_congr hedge), takesUp_takeUp u ?_⟩
      rw [hu]; exact hi

/-! ## The scan and saw eyes -/

theorem scanLead_matched {s : State} {r : Strip} (hm : matchAt s .scan = some r) : scanLead s = scanMatch r s := by
  simp [scanLead, hm]

theorem scanLead_stray {s : State} (hm : matchAt s .scan = none) :
    scanLead s = (countStray .scan s).raise (.stray .scan s.ltr.trimPos 0) := by
  simp [scanLead, hm]

theorem sawLead_matched {s : State} {r : Strip} (hm : matchAt s .saw = some r) : sawLead s = sawMatch r s := by
  simp [sawLead, hm]

theorem sawLead_stray {s : State} (hm : matchAt s .saw = none) :
    sawLead s = (countStray .saw s).raise (.stray .saw s.ltr.trimPos 0) := by
  simp [sawLead, hm]

/-- The cut positions ascend: the pieces' ends but for the strip's own (R97). -/
theorem cutPositions_spec (l : Nat) (plan : List PlannedPiece) : (cutPositions l plan).Pairwise (· < ·)
    ∧ ∀ x, x ∈ cutPositions l plan ↔ x ≠ 0 ∧ x ≠ l ∧ ∃ p ∈ plan, p.start = x ∨ p.stop = x := by
  obtain ⟨hasc, hmem⟩ := foldl_insertPoint (plan.flatMap fun p => [p.start, p.stop]) [] .nil
  refine ⟨hasc.filter _, fun x => ?_⟩
  have hends : x ∈ plan.flatMap (fun p => [p.start, p.stop]) ↔ ∃ p ∈ plan, p.start = x ∨ p.stop = x := by
    simp only [List.mem_flatMap, List.mem_cons, List.not_mem_nil, or_false, @eq_comm _ x]
  rw [cutPositions, List.mem_filter, hmem, hends]
  simp only [List.not_mem_nil, false_or, Bool.and_eq_true, bne_iff_ne]
  exact ⟨fun ⟨h, h0, hl⟩ => ⟨h0, hl, h⟩, fun ⟨h0, hl, h⟩ => ⟨h, h0, hl⟩⟩

/-- The cuts of a new cut list, by their positions (R97). -/
theorem newCutList_cuts (s : State) (r : Strip) : (newCutList s r).cuts.map (·.x)
      = (if r.status = .ready then cutPositions (r.length.getD 0) (r.plan.getD []) else [])
    ∧ ∀ k ∈ (newCutList s r).cuts, k.state = .pending ∧ k.fireAt
        = s.ltr.trimPos + umOfMm (s.tsc.trim.sawDistance + k.x - s.tsc.trim.sawLead) := by
  constructor
  · simp [newCutList, Function.comp_def]
  · intro k hk
    obtain ⟨x, -, rfl⟩ := List.mem_map.mp hk
    exact ⟨rfl, rfl⟩

/-- Settles O21, by the record each edge is matched to. -/
theorem scanAndSawEyeEdges : Obligations.ScanAndSawEyeEdges := by
  refine ⟨fun r => ⟨expectedAt_iff r .scan, expectedAt_iff r .saw⟩, fun s hw => ⟨fun he => ?_, fun he hn => ?_, ?_⟩,
    fun s hw he => ⟨fun hn => ?_, ?_⟩⟩
  · exact (exec_edge .scan false hw he).trans (next_congr (State.eq_of_blocks (by
      simp [takeEdge, setHolder, State.sees, PerEye.put])))
  · refine (exec_edge .scan true hw he).trans (next_congr ?_)
    refine (scanLead_stray (s := s.sees .scan true) (matchAt_none hn)).trans (State.eq_of_blocks ?_)
    simp [countStray, setHolder, State.sees, PerEye.put, PerEye.get, bump]
  · intro older younger r he hs ho hr
    refine (exec_edge .scan true hw he).trans (next_congr ?_)
    refine (scanLead_matched (s := s.sees .scan true) (matchAt_oldest hs ho hr)).trans (State.eq_of_blocks ?_)
    by_cases hstray : r.stray = true
    · simp [scanMatch, hstray, setHolder, State.modStrip, State.sees, PerEye.put]
    · by_cases hroom : s.lif.announceQueue.length < 32 <;>
        simp [scanMatch, announce, hstray, hroom, setHolder, State.modStrip, State.sees, PerEye.put, Config.announceCapacity, bump]
  · refine (exec_edge .saw true hw he).trans (next_congr ?_)
    refine (sawLead_stray (s := s.sees .saw true) (matchAt_none hn)).trans (State.eq_of_blocks ?_)
    simp [countStray, setHolder, State.sees, PerEye.put, PerEye.get, bump]
  · intro older younger r hs ho hr
    obtain ⟨hx, hk⟩ := newCutList_cuts s r
    obtain ⟨hasc, hmem⟩ := cutPositions_spec (r.length.getD 0) (r.plan.getD [])
    refine ⟨newCutList s r, ?_, rfl, rfl, rfl, rfl, rfl, rfl, rfl, rfl, fun hne => ?_, fun hre x => ?_, ?_, hk⟩
    · refine (exec_edge .saw true hw he).trans (next_congr ?_)
      refine (sawLead_matched (s := s.sees .saw true) (matchAt_oldest hs ho hr)).trans (State.eq_of_blocks ?_)
      simp [sawMatch, cutListSetup, newCutList, setHolder, State.modStrip, State.sees, PerEye.put]
    · rw [if_neg hne] at hx
      exact List.map_eq_nil_iff.mp hx
    · rw [← hmem, ← (if_pos hre : (if r.status = .ready then cutPositions _ _ else []) = _), ← hx]
      simp
    · rw [hx]
      split
      · exact hasc
      · exact .nil

end Sys2Proof.Machine
end

section
/-! PROOFS. Expired windows and deadlines (O22). -/

namespace Sys2Proof.Machine

open Sys2Proof

/-- A window's expiry before its closing position is exceeded, or in HALTED (log 3). -/
theorem windowExpiry_notDue {s : State} {e : TrimEye} {r : Strip} {w : Window} (hr : stripOf s r.tag = some r)
    (hw : r.window e = some w)
    (h : s.ltr.lineState = .halted ∨ (s.ltr.trimPos - w.closesAt).toInt ≤ 0) : windowExpiry e r.tag s = s := by
  have hd : ¬ (s.ltr.lineState ≠ .halted ∧ exceeded s.ltr.trimPos w.closesAt = true) := by
    rw [exceeded_iff]
    exact fun ⟨h1, h2⟩ => h.elim h1 fun h => by omega
  simp only [windowExpiry, hr, hw]
  exact if_neg (by simpa using hd)

/-- A window exceeded outside HALTED (R12). -/
theorem windowExpiry_due {s : State} {e : TrimEye} {r : Strip} {w : Window} (hr : stripOf s r.tag = some r)
    (hw : r.window e = some w) (hl : s.ltr.lineState ≠ .halted) (h : 0 < (s.ltr.trimPos - w.closesAt).toInt) :
    windowExpiry e r.tag s = removeStrip r ((s.setLtr { s.ltr with
      missing := s.ltr.missing.put e (bump (s.ltr.missing.get e)) }).raise (.stripLost r.tag (eyeOf e) r.status)) := by
  simp [windowExpiry, hr, hw, hl, (exceeded_iff _ _).mpr h]

/-- A record whose deadline is delivered (R13). -/
def Strip.delivered (r : Strip) : Strip := { r with deadlineDone := true }

/-- A record whose deadline has made it UNCUT (R61). -/
def Strip.late (reason : UncutReason) (r : Strip) : Strip := { r with status := .uncut reason }

/-- A deadline not reached, delivered before or in HALTED (log 3). -/
theorem deliverDeadline_notDue {s : State} {r : Strip} {d : Pos} (hr : stripOf s r.tag = some r)
    (hd : r.deadline = some d)
    (h : s.ltr.lineState = .halted ∨ r.deadlineDone = true ∨ (s.ltr.trimPos - d).toInt < 0) :
    deliverDeadline r.tag s = s := by
  have hn : ¬ ((s.ltr.lineState ≠ .halted ∧ r.deadlineDone = false) ∧ reached s.ltr.trimPos d = true) := by
    rw [reached_iff]
    rintro ⟨⟨h1, h2⟩, h3⟩
    rcases h with h | h | h
    · exact h1 h
    · simp [h2] at h
    · omega
  simp only [deliverDeadline, hr, hd]
  exact if_neg (by simpa using hn)

/-- A deadline delivered (R13). -/
theorem deliverDeadline_due {s : State} {r : Strip} {d : Pos} (hr : stripOf s r.tag = some r)
    (hd : r.deadline = some d) (hl : s.ltr.lineState ≠ .halted) (hn : r.deadlineDone = false)
    (h : 0 ≤ (s.ltr.trimPos - d).toInt) :
    deliverDeadline r.tag s = deadlineAction r (s.modStrip r.tag Strip.delivered) := by
  simp only [deliverDeadline, hr, hd, hn, (reached_iff _ _).mpr h]
  exact if_pos (by simpa using hl)

/-- The Plan Engine's counting of a late strip, after the delivery of its deadline (R61). -/
theorem planLate_delivered (s : State) (tag : Nat) (reason : UncutReason) (ab : Bool) :
    planLate tag reason ab (s.modStrip tag Strip.delivered)
      = ((s.setPle (planLate tag reason ab s).ple).modStrip tag (Strip.late reason ∘ Strip.delivered)).raise
          (.planLate tag reason ab) := by
  rw [← modStrip_modStrip _ tag Strip.delivered (Strip.late reason) fun _ => rfl]
  cases reason <;> rfl

/-- Settles O22: a window's expiry is a removal, a deadline acts by plan status. -/
theorem windowsAndDeadlinesExpire : Obligations.WindowsAndDeadlinesExpire := by
  refine ⟨fun s e r w hr hw => ⟨fun h => ?_, fun hl h => ?_⟩, fun s r d hr hd => ⟨fun h => ?_, fun hl hn h => ?_⟩⟩
  · exact next_congr (windowExpiry_notDue hr hw h)
  · refine ⟨windowExpiry e r.tag s, rfl, ?_⟩
    rw [windowExpiry_due hr hw hl h]
    cases e <;> exact removesStrip_removeStrip r _
  · exact next_congr (deliverDeadline_notDue hr hd h)
  · have hx : exec (.deadline r.tag) s = .next (deadlineAction r (s.modStrip r.tag Strip.delivered)) :=
      next_congr (deliverDeadline_due hr hd hl hn h)
    have late : ∀ reason ab, deadlineAction r (s.modStrip r.tag Strip.delivered)
        = planLate r.tag reason ab (s.modStrip r.tag Strip.delivered) → exec (.deadline r.tag) s
          = .next (((s.setPle (planLate r.tag reason ab s).ple).modStrip r.tag (Strip.late reason ∘ Strip.delivered)).raise
            (.planLate r.tag reason ab)) := fun reason ab he => by
      rw [hx, he, planLate_delivered]
    refine ⟨fun h1 h2 => ?_, fun h1 h2 => ?_, fun h1 h2 h3 => ?_, fun h1 h2 h3 => ?_, fun c h1 h2 h3 => ?_⟩
    · have hs : deadlineAction r (s.modStrip r.tag Strip.delivered) = s.modStrip r.tag Strip.delivered := by
        cases h : r.status with
        | pending => exact absurd h h1
        | computing => exact absurd h h2
        | ready => simp [deadlineAction, h]
        | uncut => simp [deadlineAction, h]
      rw [hx, hs]
      exact next_congr (State.eq_of_blocks (by simp [State.modStrip, Strip.delivered]))
    · refine (late .noLength false ?_).trans (next_congr (State.eq_of_blocks ?_))
      · simp [deadlineAction, h1, h2]
      · simp [State.modStrip, planLate, bump, Strip.late, Strip.delivered]
    · refine (late .noScan false ?_).trans (next_congr (State.eq_of_blocks ?_))
      · simp [deadlineAction, h1, Option.isSome_iff_ne_none.mp h2, h3]
      · simp [State.modStrip, planLate, bump, Strip.late, Strip.delivered]
    · refine (late .late false ?_).trans (next_congr (State.eq_of_blocks ?_))
      · simp [deadlineAction, h1, Option.isSome_iff_ne_none.mp h2, Option.isSome_iff_ne_none.mp h3]
      · simp [State.modStrip, planLate, bump, Strip.late, Strip.delivered]
    · have ha : deadlineAction r (s.modStrip r.tag Strip.delivered)
          = abandon r.tag (planLate r.tag .late true (s.modStrip r.tag Strip.delivered)) := by
        simp [deadlineAction, h1]
      have ht := takesUp_abandon r.tag (planLate r.tag .late true (s.modStrip r.tag Strip.delivered)) c h2 h3
      refine ⟨_, _, hx.trans (next_congr ha), ?_, ht⟩
      rw [planLate_delivered]
      exact State.eq_of_blocks (by simp [State.modStrip, planLate, bump, Strip.late, Strip.delivered])

end Sys2Proof.Machine
end

section
/-! PROOFS. The trailing edge at the saw eye (O39). -/

namespace Sys2Proof.Machine

open Sys2Proof

/-- A strip with a record and a cut list, as from its matched leading edge at the saw to its end there (R97, R102). -/
def AtSaw (s : State) (tag : Nat) : Prop := (stripOf s tag).isSome = true ∧ (cutListOf s tag).isSome = true

/-- A strip at the saw stays there through what leaves the records and the cut lists. -/
theorem AtSaw.congr {s t : State} {tag : Nat} (h : AtSaw s tag) (hs : t.ltr.strips = s.ltr.strips)
    (hc : t.tsc.cutLists = s.tsc.cutLists) : AtSaw t tag := by
  unfold AtSaw stripOf cutListOf at *
  rwa [hs, hc]

theorem AtSaw.modCuts {s : State} {tag : Nat} (h : AtSaw s tag) (f : CutList → CutList) (hf : ∀ x, (f x).tag = x.tag) :
    AtSaw (s.modCuts tag f) tag := by
  obtain ⟨hs, hc⟩ := h
  exact ⟨hs, by rw [cutListOf_modCuts s tag f hf, Option.isSome_map]; exact hc⟩

theorem AtSaw.modStrip {s : State} {tag : Nat} (h : AtSaw s tag) (f : Strip → Strip) (hf : ∀ x, (f x).tag = x.tag) :
    AtSaw (s.modStrip tag f) tag := by
  obtain ⟨hs, hc⟩ := h
  exact ⟨by rw [stripOf_modStrip s tag f hf, Option.isSome_map]; exact hs, hc⟩

theorem AtSaw.createPlanned {s : State} {r : Strip} (h : AtSaw s r.tag) (c : CutList) (i : Nat) :
    AtSaw (createPlanned c r i s) r.tag := by
  unfold Machine.createPlanned
  split
  · exact h
  · split
    · exact h
    · exact (h.modStrip (markCreated i) fun _ => rfl).congr (by simp) (by simp [countCreated])

theorem AtSaw.createUncut {s : State} {r : Strip} (h : AtSaw s r.tag) (c : CutList) :
    AtSaw (createUncut c r s) r.tag := h.congr (by simp [Machine.createUncut]) (by simp [Machine.createUncut, countCreated])

theorem AtSaw.trailCreation {s : State} {r : Strip} (h : AtSaw s r.tag) (c : CutList) :
    AtSaw (trailCreation c r s) r.tag := by
  unfold Machine.trailCreation
  split
  · exact h.createUncut c
  · unfold createAt
    split
    · exact h
    · exact h.createPlanned c _

theorem AtSaw.slipCheck {s : State} {r : Strip} (h : AtSaw s r.tag) (l2 : Nat) : AtSaw (slipCheck r l2 s) r.tag := by
  unfold Machine.slipCheck
  split
  · exact h
  · split
    · exact (h.modCuts (fun c => { c with slip := .slip }) fun _ => rfl).congr (by simp [markForced]) (by simp [markForced])
    · exact h.modCuts (fun c => { c with slip := .pass }) fun _ => rfl

theorem AtSaw.doneAtSaw {s : State} {tag : Nat} (h : AtSaw s tag) : s.doneAtSaw tag (doneTest tag s) := by
  obtain ⟨hs, hc⟩ := h
  obtain ⟨r, hr⟩ := Option.isSome_iff_exists.mp hs
  obtain ⟨c, hc⟩ := Option.isSome_iff_exists.mp hc
  exact doneAtSaw_doneTest s tag c r hc hr

/-- A cut of the list has been MISSED (R98). -/
theorem anyMissed_iff (c : CutList) : c.anyMissed = true ↔ ∃ k ∈ c.cuts, k.state = .missed := by
  simp [CutList.anyMissed]

/-- What the trailing edge creates: an uncut piece of a strip not READY or with a cut missed, else the planned piece
that runs to the strip's end, where there is one (R99 to R101). -/
theorem trailCreation_uncut {c : CutList} (r : Strip) (s : State)
    (h : c.status ≠ .ready ∨ ∃ k ∈ c.cuts, k.state = .missed) : trailCreation c r s = createUncut c r s := by
  rw [← anyMissed_iff] at h
  exact if_pos (by simpa using h)

theorem trailCreation_planned {c : CutList} (r : Strip) (s : State) (h1 : c.status = .ready)
    (h2 : ∀ k ∈ c.cuts, k.state ≠ .missed) : trailCreation c r s = createAt (pieceAtEnd c r) c r s := by
  have hm : ¬ c.anyMissed = true := by
    rw [anyMissed_iff]
    exact fun ⟨k, hk, he⟩ => h2 k hk he
  exact if_neg (by simp [h1, hm])

/-- The two lengths of the slip check, apart by more than the tolerance (R101). -/
theorem slipped_iff (t : TrimSettings) (l l2 : Nat) :
    slipped t l l2 = true ↔ (t.slipTol : Int) < l2 - l ∨ (t.slipTol : Int) < l - l2 := by
  unfold slipped
  split <;> simp <;> omega

theorem slipCheck_absent {r : Strip} (h : r.length = none) (l2 : Nat) (v : State) : slipCheck r l2 v = v := by
  simp [slipCheck, h]

/-- The slip check passed (R101). -/
theorem slipCheck_pass {r : Strip} {l l2 : Nat} {v : State} (hl : r.length = some l)
    (h : ¬ ((v.tsc.trim.slipTol : Int) < l2 - l ∨ (v.tsc.trim.slipTol : Int) < l - l2)) :
    slipCheck r l2 v = { v with tsc := { v.tsc with
      cutLists := v.tsc.cutLists.map fun x => if x.tag = r.tag then { x with slip := .pass } else x } } := by
  rw [← slipped_iff] at h
  exact State.eq_of_blocks (by simp [slipCheck, hl, h, State.modCuts])

/-- The slip check failed (R101, R117). -/
theorem slipCheck_slip {r : Strip} {l l2 : Nat} {v : State} (hl : r.length = some l)
    (h : (v.tsc.trim.slipTol : Int) < l2 - l ∨ (v.tsc.trim.slipTol : Int) < l - l2) :
    slipCheck r l2 v = { v with
      tsc := { v.tsc with
        slipped := min (v.tsc.slipped + 1) 65535
        cutLists := v.tsc.cutLists.map fun x => if x.tag = r.tag then { x with slip := .slip } else x }
      srt := { v.srt with pieces := v.srt.pieces.map fun p =>
        if p.tag = r.tag ∧ p.isExpected = true then { p with force := true } else p }
      lif := v.lif.raise (.stripSlip r.tag l l2
        (v.srt.pieces.countP fun p => p.tag == r.tag && p.isExpected)
        (v.srt.pieces.countP fun p => p.tag == r.tag && !p.isExpected)) } := by
  rw [← slipped_iff] at h
  exact State.eq_of_blocks (by
    simp [slipCheck, hl, h, State.modCuts, markForced, expectedCount, assignedCount, bump])

theorem trailCreation_trim (c : CutList) (r : Strip) (s : State) :
    (trailCreation c r s).tsc.trim = s.tsc.trim := by
  unfold trailCreation createAt createPlanned createUncut
  split
  · simp [countCreated]
  · split
    · rfl
    · split
      · rfl
      · split <;> simp [countCreated]

/-- A cut list that has seen its trailing edge, with the length measured there (R101). -/
def CutList.trailed (l2 : Nat) (c : CutList) : CutList := { c with trailSeen := true, length2 := some l2 }

/-- A trailing edge at the saw with a holder in the queue (R9, R101). -/
theorem sawTrailEdge_held {s : State} {r : Strip} {c : CutList} {l2 : Nat} (hh : s.ltr.holder.saw = some r.tag)
    (hr : stripOf s r.tag = some r) (hc : cutListOf s r.tag = some c)
    (hl2 : l2 = lengthOf (s.ltr.trimPos - c.p0).toInt s.tsc.trim.sawComp) :
    sawTrailEdge s = doneTest r.tag (slipCheck r l2 (trailCreation (c.trailed l2) r
      ((setHolder .saw none s).modCuts r.tag (CutList.trailed l2)))) := by
  have hr' : stripOf (setHolder .saw none s) r.tag = some r := hr
  have hc' : cutListOf (setHolder .saw none s) r.tag = some c := hc
  subst hl2
  simp only [sawTrailEdge, hh, hr', sawTrail, hc']
  rfl

/-- Settles O39: what the edge creates, the slip check and the strip's end, one after another. -/
theorem sawTrailingEdges : Obligations.SawTrailingEdges := by
  intro s hw he
  have hedge := exec_edge .saw false hw he
  refine ⟨fun hh => ?_, fun r c c' l2 hh hr hc hl2 hc' => ?_⟩
  · have hh' : (s.sees .saw false).ltr.holder.saw = none := hh
    exact hedge.trans (next_congr (by simp [takeEdge, sawTrailEdge, hh']))
  · have hlen : l2 = lengthOf (s.ltr.trimPos - c.p0).toInt s.tsc.trim.sawComp := by
      have := lengthOf_eq (s.ltr.trimPos - c.p0).toInt s.tsc.trim.sawComp
      omega
    subst hc'
    obtain ⟨u, hu⟩ : ∃ u, u = (setHolder .saw none (s.sees .saw false)).modCuts r.tag (CutList.trailed l2) := ⟨_, rfl⟩
    have hx : exec .sawTrailingEdge s
        = .next (doneTest r.tag (slipCheck r l2 (trailCreation (c.trailed l2) r u))) := by
      rw [hu]
      exact hedge.trans (next_congr (sawTrailEdge_held (s := s.sees .saw false) hh hr hc hlen))
    have hat0 : AtSaw (setHolder .saw none (s.sees .saw false)) r.tag :=
      ⟨Option.isSome_iff_exists.mpr ⟨r, hr⟩, Option.isSome_iff_exists.mpr ⟨c, hc⟩⟩
    have hat : AtSaw u r.tag := hu ▸ hat0.modCuts (CutList.trailed l2) fun _ => rfl
    have htrim : (trailCreation (c.trailed l2) r u).tsc.trim = s.tsc.trim := by
      rw [trailCreation_trim, hu]; rfl
    refine ⟨_, u, trailCreation (c.trailed l2) r u, _, hx, hu.trans (State.eq_of_blocks ?_), fun h => ?_,
      fun h1 h2 => ⟨fun j hj => ?_, fun hj => ?_⟩, fun hl => ?_, fun l hl => ⟨fun h1 h2 => ?_, fun h => ?_⟩,
      ((hat.trailCreation _).slipCheck l2).doneAtSaw⟩
    · simp [setHolder, State.sees, State.modCuts, PerEye.put, CutList.trailed]
    · rw [trailCreation_uncut (c := c.trailed l2) r u h]
      exact createsUncut_createUncut _ r u
    · have hend : pieceAtEnd (c.trailed l2) r = some j := (endPiece_iff _ r j).mp hj
      rw [trailCreation_planned (c := c.trailed l2) r u h1 h2, hend]
      exact createsPlanned_createPlanned _ r j u
    · have hnone : pieceAtEnd (c.trailed l2) r = none :=
        Option.eq_none_iff_forall_ne_some.mpr fun j hj' => hj j ((endPiece_iff _ r j).mpr hj')
      rw [trailCreation_planned (c := c.trailed l2) r u h1 h2, hnone]
      rfl
    · exact slipCheck_absent hl l2 _
    · exact slipCheck_pass hl (by rw [htrim]; omega)
    · exact slipCheck_slip hl (by rw [htrim]; exact h)

end Sys2Proof.Machine
end

section
/-! PROOFS. LINE_CLEAR (O17): what closings and clearings leave of the composer, the slots, the manifests and the bins,
and what they come to where no close completion comes in. -/

namespace Sys2Proof.Machine

open Sys2Proof

/-! ## What closings and clearings leave -/

/-- t follows from s by closings and by discards of pieces, `taken b` of them assigned to bin b: nothing else of the
composer, the slots, the manifests and the bins' bundles changes. -/
structure Clears (taken : Nat → Nat) (s t : State) : Prop where
  composer : t.lcp = { s.lcp with engine := t.lcp.engine, renderOrder := t.lcp.renderOrder }
  slots : t.prq = { s.prq with slots := t.prq.slots }
  manifests : s.bdb.manifests <+: t.bdb.manifests
  bins : ∀ b, (binAt t b).bundle = (binAt s b).bundle ∧ (binAt t b).settings = (binAt s b).settings
    ∧ (binAt t b).incoming = (binAt s b).incoming - taken b

/-- Closings alone: no piece is discarded. -/
abbrev Closes (s t : State) : Prop := Clears (fun _ => 0) s t

theorem Closes.refl (s : State) : Closes s s := ⟨rfl, rfl, ⟨[], List.append_nil _⟩, fun _ => ⟨rfl, rfl, rfl⟩⟩

theorem Clears.trans {f g : Nat → Nat} {s t u : State} (h : Clears f s t) (h' : Clears g t u) :
    Clears (fun b => f b + g b) s u := by
  refine ⟨?_, ?_, h.manifests.trans h'.manifests, fun b => ?_⟩
  · rw [h'.composer, h.composer]
  · rw [h'.slots, h.slots]
  · obtain ⟨b1, s1, i1⟩ := h.bins b
    obtain ⟨b2, s2, i2⟩ := h'.bins b
    exact ⟨b2.trans b1, s2.trans s1, by rw [i2, i1, Nat.sub_sub]⟩

theorem Closes.trans {s t u : State} (h : Closes s t) (h' : Closes t u) : Closes s u := Clears.trans h h'

theorem Clears.closes {f : Nat → Nat} {s t u : State} (h : Clears f s t) (h' : Closes t u) : Clears f s u :=
  Clears.trans h h'

/-- The same of states with the same composer, slots, manifests and bins. -/
theorem Clears.congr {f : Nat → Nat} {s s' t t' : State} (h : Clears f s t)
    (hs : s'.lcp = s.lcp ∧ s'.prq = s.prq ∧ s'.bdb = s.bdb) (ht : t'.lcp = t.lcp ∧ t'.prq = t.prq ∧ t'.bdb = t.bdb) :
    Clears f s' t' := by
  obtain ⟨hs1, hs2, hs3⟩ := hs
  obtain ⟨ht1, ht2, ht3⟩ := ht
  have bs : ∀ b, binAt s' b = binAt s b := fun b => by unfold binAt; rw [hs3]
  have bt : ∀ b, binAt t' b = binAt t b := fun b => by unfold binAt; rw [ht3]
  exact ⟨by rw [ht1, hs1]; exact h.composer, by rw [ht2, hs2]; exact h.slots, by rw [ht3, hs3]; exact h.manifests,
    fun b => by rw [bt, bs]; exact h.bins b⟩

/-- A bin that does not exist reads as a bin after reset. -/
theorem binAt_outside (s : State) (b : Nat) (h : ¬ (1 ≤ b ∧ b ≤ 14)) : binAt s b = .initial := by
  have : tabGet s.bdb.bins b = none := by
    rw [← Option.not_isSome_iff_eq_none]; exact fun hb => h ((tabGet_range _ _).mp hb)
  simp [binAt, this]

/-- A change of one bin that leaves its bundle and its settings. -/
theorem clears_modBin (s : State) (b n : Nat) (f : Bin → Bin)
    (hf : ∀ x, (f x).bundle = x.bundle ∧ (f x).settings = x.settings ∧ (f x).incoming = x.incoming - n) :
    Clears (fun j => if j = b then n else 0) s (s.modBin b f) := by
  refine ⟨rfl, rfl, ⟨[], List.append_nil _⟩, fun j => ?_⟩
  rw [binAt_modBin]
  by_cases hj : j = b
  · subst hj
    by_cases hb : 1 ≤ j ∧ j ≤ 14
    · rw [if_pos ⟨rfl, hb⟩, if_pos rfl]
      exact hf _
    · rw [if_neg fun h => hb h.2, binAt_outside s j hb]
      exact ⟨rfl, rfl, (Nat.zero_sub _).symm⟩
  · rw [if_neg fun h => hj h.1, if_neg hj]
    exact ⟨rfl, rfl, rfl⟩

theorem closes_modBin (s : State) (b : Nat) (f : Bin → Bin)
    (hf : ∀ x, (f x).bundle = x.bundle ∧ (f x).settings = x.settings ∧ (f x).incoming = x.incoming) :
    Closes s (s.modBin b f) := by
  simpa using clears_modBin s b 0 f hf

/-- A close completion (R139). -/
theorem closes_closeComplete (s : State) (b k : Nat) (rest : List Nat) (ho : s.bdb.closingOrder = b :: rest)
    (hk : 1 ≤ k ∧ k ≤ 4) : Closes s (closeComplete b k s) := by
  obtain ⟨m, r, -, ht, hother, hself, -⟩ := completesClose_closeComplete s b k rest ho hk
  refine ⟨by rw [ht], by rw [ht], by rw [ht]; exact ⟨_, rfl⟩, fun j => ?_⟩
  by_cases hj : j = b
  · subst hj
    by_cases hb : 1 ≤ j ∧ j ≤ 14
    · obtain ⟨d, hd, -⟩ := hself hb.1 hb.2
      rw [hd]
      exact ⟨rfl, rfl, rfl⟩
    · rw [binAt_outside _ j hb, binAt_outside _ j hb]
      exact ⟨rfl, rfl, rfl⟩
  · rw [hother j hj]
    exact ⟨rfl, rfl, rfl⟩

theorem closes_attempts (n : Nat) (s : State) : Closes s (attempts n s) := by
  induction n generalizing s with
  | zero => exact .refl s
  | succ n ih =>
    unfold attempts
    split
    · next b rest k ho hk =>
      obtain ⟨h1, h4, -⟩ := (freeSlot_some s k).mp hk
      split
      · exact (closes_closeComplete s b k rest ho ⟨h1, h4⟩).trans (ih _)
      · exact .refl s
    · exact .refl s

theorem closes_attempt (s : State) : Closes s (attempt s) := closes_attempts _ s

theorem closes_closingEntry (b : Nat) (s : State) : Closes s (closingEntry b s) := by
  have h := closes_modBin s b (fun x => { x with state := .closing }) fun _ => ⟨rfl, rfl, rfl⟩
  have h' : ∀ u : State, Closes u (u.setBdb { u.bdb with closingOrder := u.bdb.closingOrder ++ [b] }) := fun u =>
    ⟨rfl, rfl, ⟨[], List.append_nil _⟩, fun _ => ⟨rfl, rfl, rfl⟩⟩
  exact (h.trans (h' _)).trans (closes_attempt _)

theorem closes_settlePending (b : Nat) (s : State) : Closes s (settlePending b s) := by
  unfold settlePending
  split
  · exact closes_closingEntry b s
  · exact .refl s

theorem closes_closeRequest (b : Nat) (r : CloseReason) (s : State) : Closes s (closeRequest b r s) := by
  unfold closeRequest
  split
  · exact (closes_modBin s b _ fun _ => by exact ⟨rfl, rfl, rfl⟩).trans (closes_settlePending b _)
  · exact .refl s

/-- A fold of closings is closings. -/
theorem closes_foldl {α : Type} (f : State → α → State) (hf : ∀ s a, Closes s (f s a)) (l : List α) (s : State) :
    Closes s (l.foldl f s) := by
  induction l generalizing s with
  | nil => exact .refl s
  | cons a l ih => exact (hf s a).trans (ih _)

theorem closes_profileClose (s : State) (b : Nat) : Closes s (profileClose s b) := by
  unfold profileClose
  split
  · exact closes_closeRequest b .profile s
  · exact .refl s

theorem closes_drainTest (s : State) : Closes s (drainTest s) := by
  unfold drainTest
  split
  · exact (closes_foldl _ closes_profileClose binNumbers s).congr ⟨rfl, rfl, rfl⟩ (by simp)
  · exact .refl s

theorem closes_dischargeStart (s : State) (b : Nat) : Closes s (dischargeStart b s) := by
  unfold dischargeStart
  dsimp only
  split
  · exact closes_modBin s b _ fun _ => by exact ⟨rfl, rfl, rfl⟩
  · exact .refl s

theorem closes_dischargeAll (s : State) : Closes s (dischargeAll s) :=
  closes_foldl _ closes_dischargeStart _ s

/-! ## The pieces discarded (R22) -/

/-- The bins of the ASSIGNED pieces of a list, each counting 1 (R130). -/
def arrivalsOf (ps : List Piece) : List (Nat × Nat) :=
  ps.filterMap fun p => match p.place with | .assigned b _ _ => some (b, 1) | .expected _ => none

theorem arrivalsOf_append (ps qs : List Piece) : arrivalsOf (ps ++ qs) = arrivalsOf ps ++ arrivalsOf qs :=
  List.filterMap_append

/-- What two lists of releases take from a number. -/
theorem takenFrom_append_list (k : Nat) (rs rs' : List (Nat × Nat)) :
    takenFrom k (rs ++ rs') = takenFrom k rs + takenFrom k rs' := by
  simp [takenFrom]

/-- One piece discarded: its bin's incoming count falls, and a bin then left with none may close (R22). -/
theorem clears_clearPiece (s : State) (p : Piece) :
    Clears (fun b => takenFrom b (arrivalsOf [p])) s (clearPiece s p) := by
  have h0 : Closes s (dropPiece p.tag p.index (release p.line p.net s)) :=
    (Closes.refl s).congr ⟨rfl, rfl, rfl⟩ (by simp)
  unfold clearPiece
  dsimp only
  split
  · next hp => simpa [arrivalsOf, hp, takenFrom] using h0
  · next b _ _ hp =>
    have h1 := Clears.trans h0 (clears_modBin _ b 1 (fun x => { x with incoming := x.incoming - 1 })
      fun _ => ⟨rfl, rfl, rfl⟩)
    convert h1.closes (closes_settlePending b _) using 1
    funext j
    by_cases hj : j = b
    · simp [arrivalsOf, hp, takenFrom, hj]
    · simp [arrivalsOf, hp, takenFrom, hj, Ne.symm hj]

theorem clears_foldl_clearPiece (ps : List Piece) (s : State) :
    Clears (fun b => takenFrom b (arrivalsOf ps)) s (ps.foldl clearPiece s) := by
  induction ps generalizing s with
  | nil => exact Closes.refl s
  | cons p ps ih =>
    have h := (clears_clearPiece s p).trans (ih (clearPiece s p))
    simp only [← takenFrom_append_list, ← arrivalsOf_append] at h
    exact h

end Sys2Proof.Machine
end

section
namespace Sys2Proof.Machine

open Sys2Proof

/-! ## The order lines and the notices of the releases (R22, R74, R77) -/

theorem lineAt_congr {s t : State} (h : t.otu = s.otu) (k : Nat) : lineAt t k = lineAt s k := by
  unfold lineAt; rw [h]

/-- A release works on the order lines alone. -/
theorem release_otu_congr {s t : State} (h : t.otu = s.otu) (l : Option Nat) (n : Nat) :
    (release l n t).otu = (release l n s).otu := by
  cases l with
  | none => exact h
  | some k => simp [release, drainLine, State.modLine, lineAt, apply_ite State.otu, h]

/-- Its notice too depends on them alone. -/
theorem release_lif_congr {s t : State} (h : t.otu = s.otu) (h' : t.lif = s.lif) (l : Option Nat) (n : Nat) :
    (release l n t).lif = (release l n s).lif := by
  cases l with
  | none => exact h'
  | some k => rw [(release_spec k n t).2, (release_spec k n s).2, lineAt_congr h, h']

theorem releaseAll_otu_congr {s t : State} (h : t.otu = s.otu) (rs : List (Nat × Nat)) :
    (releaseAll rs t).otu = (releaseAll rs s).otu := by
  induction rs generalizing s t with
  | nil => exact h
  | cons r rs ih => exact ih (release_otu_congr h _ _)

theorem releaseAll_lif_congr {s t : State} (h : t.otu = s.otu) (h' : t.lif = s.lif) (rs : List (Nat × Nat)) :
    (releaseAll rs t).lif = (releaseAll rs s).lif := by
  induction rs generalizing s t with
  | nil => exact h'
  | cons r rs ih => exact ih (release_otu_congr h _ _) (release_lif_congr h h' _ _)

theorem releaseAll_append (rs rs' : List (Nat × Nat)) (s : State) :
    releaseAll (rs ++ rs') s = releaseAll rs' (releaseAll rs s) := List.foldl_append

/-- What a piece's discard leaves: the line's account with its release, the Piece Sort Queue without it, and what a
closing changes (R22). -/
theorem clearPiece_blocks (s : State) (p : Piece) : clearPiece s p = { s with
    otu := (releaseAll p.reservations s).otu, srt := { s.srt with pieces := (clearPiece s p).srt.pieces }
    bdb := (clearPiece s p).bdb, lcp := (clearPiece s p).lcp, prq := (clearPiece s p).prq
    lif := (clearPiece s p).lif } := by
  refine State.eq_of_blocks ?_
  rw [← release_piece]
  unfold clearPiece
  dsimp only
  split <;> simp [dropPiece]

theorem foldl_clearPiece_blocks (ps : List Piece) (s : State) : ps.foldl clearPiece s = { s with
    otu := (releaseAll (ps.flatMap Piece.reservations) s).otu
    srt := { s.srt with pieces := (ps.foldl clearPiece s).srt.pieces }
    bdb := (ps.foldl clearPiece s).bdb, lcp := (ps.foldl clearPiece s).lcp, prq := (ps.foldl clearPiece s).prq
    lif := (ps.foldl clearPiece s).lif } := by
  induction ps generalizing s with
  | nil => rfl
  | cons p ps ih =>
    have ho : (releaseAll (ps.flatMap Piece.reservations) (clearPiece s p)).otu
        = (releaseAll ((p :: ps).flatMap Piece.reservations) s).otu := by
      rw [List.flatMap_cons, releaseAll_append]
      exact releaseAll_otu_congr (by rw [clearPiece_blocks]) _
    rw [List.foldl_cons, ih, ho]
    generalize ps.foldl clearPiece (clearPiece s p) = t
    rw [clearPiece_blocks s p]

/-- LINE_CLEAR's releases of the records' reservations (R22). -/
theorem clearStrips_releases (s : State) :
    (clearStrips s).otu = (releaseAll (s.ltr.strips.flatMap Strip.reservations) s).otu
      ∧ (clearStrips s).lif = (releaseAll (s.ltr.strips.flatMap Strip.reservations) s).lif := by
  have ho := releaseAll_otu_congr (s := s) (t := s.setPle { s.ple with engine := none }) rfl
    (s.ltr.strips.flatMap Strip.reservations)
  have hn := releaseAll_lif_congr (s := s) (t := s.setPle { s.ple with engine := none }) rfl rfl
    (s.ltr.strips.flatMap Strip.reservations)
  unfold clearStrips
  dsimp only
  rw [foldl_releasePlan]
  exact ⟨ho, hn⟩

/-- The pieces' step of LINE_CLEAR (R22). -/
theorem clearPieces_eq (s : State) : clearPieces s = { s with
    otu := (releaseAll (s.srt.pieces.flatMap Piece.reservations) s).otu, srt := { s.srt with pieces := [] }
    bdb := (clearPieces s).bdb, lcp := (clearPieces s).lcp, prq := (clearPieces s).prq, lif := (clearPieces s).lif } := by
  have hp := (clearPieces_queues s).2
  unfold clearPieces at hp ⊢
  conv_lhs => rw [foldl_clearPiece_blocks, hp]

/-- LINE_CLEAR with the strips and the pieces gone (R22). -/
theorem clearPieces_clearStrips (s : State) : clearPieces (clearStrips s) = { s with
    ltr := { s.ltr with strips := [] }, ple := { s.ple with engine := none }
    otu := (releaseAll s.allReservations s).otu, tsc := { s.tsc with cutLists := [] }
    srt := { s.srt with pieces := [] }, bdb := (clearPieces (clearStrips s)).bdb
    lcp := (clearPieces (clearStrips s)).lcp, prq := (clearPieces (clearStrips s)).prq
    lif := (clearPieces (clearStrips s)).lif } := by
  have hs : (clearStrips s).srt = s.srt := by rw [clearStrips_eq]
  have ho : (releaseAll (s.srt.pieces.flatMap Piece.reservations) (clearStrips s)).otu
      = (releaseAll s.allReservations s).otu := by
    unfold State.allReservations
    rw [releaseAll_append]
    exact releaseAll_otu_congr (clearStrips_releases s).1 _
  conv_lhs => rw [clearPieces_eq, hs, ho]
  generalize clearPieces (clearStrips s) = t
  rw [clearStrips_eq]

/-! ## Discards where no close completion comes in (R22, R130, R137) -/

/-- A bin after releases of its incoming count (R22, R130): in CLOSE_PENDING it passes to CLOSING at 0. -/
def Bin.cleared (x : Bin) (b : Nat) (rs : List (Nat × Nat)) : Bin :=
  { x with
    incoming := x.incoming - takenFrom b rs
    state := if x.state = .closePending ∧ b ∈ rs.map (·.1) ∧ x.incoming ≤ takenFrom b rs then .closing else x.state }

/-- A bin after one piece fewer is on its way. -/
def Bin.oneFewer (x : Bin) : Bin :=
  { x with incoming := x.incoming - 1
           state := if x.state = .closePending ∧ x.incoming ≤ 1 then .closing else x.state }

theorem cleared_nil (x : Bin) (b : Nat) : x.cleared b [] = x := by simp [Bin.cleared, takenFrom]

theorem cleared_other (x : Bin) (b : Nat) (rs : List (Nat × Nat)) (r : Nat × Nat) (h : r.1 ≠ b) :
    x.cleared b (rs ++ [r]) = x.cleared b rs := by
  have : b ≠ r.1 := Ne.symm h
  simp only [Bin.cleared, takenFrom_append, List.map_append, List.mem_append, List.map_cons, List.map_nil,
    List.mem_singleton, h, this, or_false, if_false, Nat.add_zero]

/-- The bin is still CLOSE_PENDING with at most one piece on its way exactly where that piece's discard is the first to
leave it with none. -/
theorem cleared_closes_iff (x : Bin) (b : Nat) (rs : List (Nat × Nat)) :
    ((x.cleared b rs).state = .closePending ∧ (x.cleared b rs).incoming ≤ 1) ↔
      (x.state = .closePending ∧ x.incoming ≤ takenFrom b rs + 1
        ∧ (b ∈ rs.map (·.1) → takenFrom b rs < x.incoming)) := by
  unfold Bin.cleared
  by_cases hc : x.state = .closePending
  · by_cases hm : b ∈ rs.map (·.1) ∧ x.incoming ≤ takenFrom b rs
    · simp only [hc, hm, and_self, if_true, reduceCtorEq, false_and, true_and, false_iff, not_and]
      exact fun _ h => absurd (h trivial) (by omega)
    · rw [if_neg fun h => hm h.2]
      simp only [hc, true_and]
      exact ⟨fun h => ⟨by omega, fun hb => Nat.lt_of_not_le fun hl => hm ⟨hb, hl⟩⟩, fun h => by omega⟩
  · simp [hc]

theorem cleared_append (x : Bin) (b : Nat) (rs : List (Nat × Nat)) :
    x.cleared b (rs ++ [(b, 1)]) = (x.cleared b rs).oneFewer := by
  have ht : takenFrom b (rs ++ [(b, 1)]) = takenFrom b rs + 1 := by rw [takenFrom_append, if_pos rfl]
  have hm : b ∈ (rs ++ [(b, 1)]).map Prod.fst := by simp
  unfold Bin.cleared Bin.oneFewer
  rw [ht]
  congr 1
  · by_cases hc : x.state = .closePending
    · by_cases hr : b ∈ rs.map (·.1) ∧ x.incoming ≤ takenFrom b rs
      · rw [if_pos ⟨hc, hm, by omega⟩]
        simp [hc, hr]
      · simp only [hc, hr, true_and, if_false]
        congr 1
        exact propext ⟨fun h => by omega, fun h => ⟨hm, by omega⟩⟩
    · simp [hc]

/-- Only a bin in CLOSE_PENDING passes to another state, and only to CLOSING. -/
theorem cleared_state_iff (x : Bin) (b : Nat) (rs : List (Nat × Nat)) {st : BinState}
    (h : st = .opened ∨ st = .waitCart) : (x.cleared b rs).state = st ↔ x.state = st := by
  unfold Bin.cleared
  by_cases hc : x.state = .closePending
  · rcases h with rfl | rfl <;> simp only [hc, true_and, reduceCtorEq, iff_false] <;> split <;> simp
  · simp [hc]

/-- A change that leaves the bin after reset as it is, of a bin that exists or not. -/
theorem binAt_modBin_same (s : State) (b : Nat) (f : Bin → Bin) (hf : f .initial = .initial) (j : Nat) :
    binAt (s.modBin b f) j = if j = b then f (binAt s b) else binAt s j := by
  rw [binAt_modBin]
  by_cases hb : 1 ≤ b ∧ b ≤ 14
  · simp [hb]
  · rw [if_neg fun h => hb h.2, binAt_outside s b hb, hf]
    split
    · next h => rw [h, binAt_outside s b hb]
    · rfl

/-- Without the hold no close completion comes in (R138). -/
theorem attempt_unheld (s : State) (h : s.lcp.hold = false) : attempt s = s := by
  have hc : closeResources s = false := by simp [closeResources, h]
  unfold attempt
  cases s.bdb.closingOrder.length with
  | zero => rfl
  | succ n => unfold attempts; simp only [hc, Bool.false_eq_true, if_false]; split <;> rfl

/-- No close completion comes in where a piece is discarded from bin b: the bin does not wait, or the hold is clear. -/
def Quiet (s : State) (b : Nat) : Prop := (binAt s b).state ≠ .closePending ∨ s.lcp.hold = false

/-- The bin of a discarded piece, where no close completion comes in (R130, R137). -/
theorem settlePending_quiet (s : State) (b : Nat) (hq : Quiet s b) : settlePending b s =
    if (binAt s b).state = .closePending ∧ (binAt s b).incoming = 0 then
      (s.modBin b (fun x => { x with state := .closing })).setBdb
        { (s.modBin b (fun x => { x with state := .closing })).bdb with closingOrder := s.bdb.closingOrder ++ [b] }
    else s := by
  unfold settlePending
  simp only [Bool.and_eq_true, beq_iff_eq]
  split
  · next hc =>
    have hh : s.lcp.hold = false := hq.resolve_left fun h => h hc.1
    unfold closingEntry
    dsimp only
    exact attempt_unheld _ hh
  · rfl

/-- A discard from bin b where no close completion comes in (R22, R130, R137). -/
theorem clearPiece_assigned (s : State) (p : Piece) (b : Nat) (e f : Pos) (hp : p.place = .assigned b e f)
    (hq : Quiet s b) :
    (clearPiece s p).lcp = s.lcp ∧ (clearPiece s p).prq = s.prq
      ∧ (clearPiece s p).lif = (release p.line p.net s).lif
      ∧ (clearPiece s p).bdb = { s.bdb with
          bins := (clearPiece s p).bdb.bins
          closingOrder := s.bdb.closingOrder ++
            if (binAt s b).state = .closePending ∧ (binAt s b).incoming ≤ 1 then [b] else [] }
      ∧ ∀ j, binAt (clearPiece s p) j = if j = b then (binAt s b).oneFewer else binAt s j := by
  have hd : clearPiece s p = settlePending b
      ((dropPiece p.tag p.index (release p.line p.net s)).modBin b
        fun x => { x with incoming := x.incoming - 1 }) := by
    unfold clearPiece
    rw [hp]
  have h0 : ∀ j, binAt (dropPiece p.tag p.index (release p.line p.net s)) j = binAt s j := fun j => by
    simp [binAt]
  have h1 : (dropPiece p.tag p.index (release p.line p.net s)).lcp = s.lcp
    ∧ (dropPiece p.tag p.index (release p.line p.net s)).prq = s.prq
    ∧ (dropPiece p.tag p.index (release p.line p.net s)).bdb = s.bdb
    ∧ (dropPiece p.tag p.index (release p.line p.net s)).lif = (release p.line p.net s).lif := by
    simp [dropPiece]
  rw [hd]
  generalize dropPiece p.tag p.index (release p.line p.net s) = t at h0 h1
  obtain ⟨hl, hr, hb, hn⟩ := h1
  have h2 := fun j => (binAt_modBin_same t b (fun x => { x with incoming := x.incoming - 1 }) rfl j).trans
    (by rw [h0, h0] : _ = if j = b then { binAt s b with incoming := (binAt s b).incoming - 1 } else binAt s j)
  have h3 : binAt (t.modBin b fun x => { x with incoming := x.incoming - 1 }) b
      = { binAt s b with incoming := (binAt s b).incoming - 1 } := by rw [h2, if_pos rfl]
  rw [settlePending_quiet _ b (by unfold Quiet; rw [h3]; simpa [Quiet, State.modBin, hl] using hq), h3]
  by_cases hc : (binAt s b).state = .closePending ∧ (binAt s b).incoming ≤ 1
  · rw [if_pos ⟨hc.1, by simp; omega⟩, if_pos hc]
    refine ⟨hl, hr, hn, by simp [State.modBin, hb], fun j => ?_⟩
    have hex := bin_exists s b (by rw [hc.1]; simp)
    refine (binAt_modBin _ j b _).trans ?_
    rw [h3, h2]
    by_cases hj : j = b
    · simp [hj, hex, Bin.oneFewer, hc]
    · simp [hj]
  · rw [if_neg fun h => hc ⟨h.1, by have := h.2; simp at this; omega⟩, if_neg hc]
    refine ⟨hl, hr, hn, by simp [State.modBin, hb], fun j => ?_⟩
    rw [h2]
    by_cases hj : j = b
    · simp [hj, Bin.oneFewer, hc]
    · simp [hj]

/-- What discards leave of the composer, the slots and the bins where no close completion comes in: a bin that waits in
CLOSE_PENDING joins the closing order at its last piece (R22, R130, R137). -/
structure Discards (rs : List (Nat × Nat)) (s t : State) : Prop where
  composer : t.lcp = s.lcp
  slots : t.prq = s.prq
  orders : t.bdb = { s.bdb with
    bins := t.bdb.bins
    closingOrder := s.bdb.closingOrder ++ emptied (fun b => (binAt s b).state == .closePending)
      (fun b => (binAt s b).incoming) rs }
  bins : ∀ b, binAt t b = (binAt s b).cleared b rs

theorem Discards.refl (s : State) : Discards [] s s :=
  ⟨rfl, rfl, by simp [emptied], fun b => (cleared_nil _ b).symm⟩

/-- One more piece discarded. -/
theorem Discards.clearPiece {rs : List (Nat × Nat)} {s t : State} (h : Discards rs s t) (p : Piece)
    (hq : ∀ b, Quiet s b) :
    Discards (rs ++ arrivalsOf [p]) s (clearPiece t p) ∧ (clearPiece t p).lif = (release p.line p.net t).lif := by
  obtain ⟨h1, h2, h3, h4⟩ := h
  cases hp : p.place with
  | expected e =>
    have hd : Machine.clearPiece t p = dropPiece p.tag p.index (release p.line p.net t) := by
      unfold Machine.clearPiece
      rw [hp]
    have ha : arrivalsOf [p] = [] := by simp [arrivalsOf, hp]
    rw [hd, ha, List.append_nil]
    refine ⟨⟨?_, ?_, ?_, fun b => ?_⟩, by simp [dropPiece]⟩
    · simpa [dropPiece] using h1
    · simpa [dropPiece] using h2
    · simpa [dropPiece] using h3
    · rw [← h4]
      simp [binAt, dropPiece]
  | assigned b e f =>
    have ha : arrivalsOf [p] = [(b, 1)] := by simp [arrivalsOf, hp]
    have hqt : Quiet t b := by
      unfold Quiet
      rw [h4, h1]
      exact (hq b).imp_left fun hb => by simp [Bin.cleared, hb]
    obtain ⟨c1, c2, c3, c4, c5⟩ := clearPiece_assigned t p b e f hp hqt
    rw [ha]
    refine ⟨⟨c1.trans h1, c2.trans h2, ?_, fun j => ?_⟩, c3⟩
    · rw [c4, h3, emptied_append, h4]
      simp only [cleared_closes_iff, List.append_assoc, beq_iff_eq]
    · rw [c5]
      by_cases hj : j = b
      · rw [if_pos hj, hj, h4, cleared_append]
      · rw [if_neg hj, h4, cleared_other _ _ _ _ (Ne.symm hj)]

/-- The pieces of a list discarded where no close completion comes in, and the ORDER_DONEs of their releases. -/
theorem discards_foldl (ps : List Piece) (s : State) (hq : ∀ b, Quiet s b) :
    Discards (arrivalsOf ps) s (ps.foldl clearPiece s)
      ∧ (ps.foldl clearPiece s).lif = (releaseAll (ps.flatMap Piece.reservations) s).lif := by
  induction ps using List.reverseRecOn with
  | nil => exact ⟨.refl s, rfl⟩
  | append_singleton ps p ih =>
    obtain ⟨hd, hn⟩ := ih
    obtain ⟨hd', hn'⟩ := hd.clearPiece p hq
    rw [List.foldl_append, arrivalsOf_append, List.flatMap_append, releaseAll_append]
    refine ⟨hd', hn'.trans ?_⟩
    rw [release_piece, List.flatMap_singleton]
    exact releaseAll_lif_congr (by rw [foldl_clearPiece_blocks]) hn _

end Sys2Proof.Machine
end

section
/-! PROOFS. LINE_CLEAR (O17): the request itself. -/

namespace Sys2Proof.Machine

open Sys2Proof

/-- The Line Tracker's step of LINE_CLEAR (R22). -/
theorem clearLine_eq (s : State) : clearLine s = { s with
    ltr := { s.ltr with holder := ⟨none, none, none⟩, lineState := .stopped, level := s.pins.eyes }
    srt := { s.srt with level := s.pins.drop }, fdp := { s.fdp with feedReady := s.pins.feedReady }
    lif := s.lif.raise (.lineState .stopped s.ltr.lineState .request) } := rfl

/-- LINE_CLEAR up to the drain test: the line is empty and STOPPED, and the discharges that waited have begun (R22,
R143). -/
def clearedLine (s : State) : State := dischargeAll (clearLine (clearPieces (clearStrips s)))

theorem clearAll_clearedLine (s : State) : clearAll s = drainTest (clearedLine s) := rfl

/-- What LINE_CLEAR leaves before its drain test (R22). -/
theorem clearedLine_eq (s : State) : clearedLine s = { s with
    ltr := { s.ltr with strips := [], holder := ⟨none, none, none⟩, lineState := .stopped, level := s.pins.eyes }
    ple := { s.ple with engine := none }, otu := (releaseAll s.allReservations s).otu
    fdp := { s.fdp with feedReady := s.pins.feedReady }, tsc := { s.tsc with cutLists := [] }
    srt := { s.srt with pieces := [], level := s.pins.drop }, bdb := (clearedLine s).bdb, lcp := (clearedLine s).lcp
    prq := (clearedLine s).prq, lif := (clearedLine s).lif } := by
  unfold clearedLine
  obtain ⟨hd, -⟩ := dischargeAll_spec (clearLine (clearPieces (clearStrips s))) (by simp [clearLine_eq])
  generalize dischargeAll (clearLine (clearPieces (clearStrips s))) = t at *
  rw [hd, clearLine_eq, clearPieces_clearStrips]

/-- LINE_CLEAR's discards and closings (R22, R130). -/
theorem clears_clearedLine (s : State) : Clears (fun b => takenFrom b s.arrivals) s (clearedLine s) := by
  have hs : (clearStrips s).lcp = s.lcp ∧ (clearStrips s).prq = s.prq ∧ (clearStrips s).bdb = s.bdb := by
    rw [clearStrips_eq]; exact ⟨rfl, rfl, rfl⟩
  have ha : (clearStrips s).srt.pieces = s.srt.pieces := by rw [clearStrips_eq]
  have hp := clears_foldl_clearPiece (clearStrips s).srt.pieces (clearStrips s)
  rw [ha] at hp
  have hl : Clears (fun b => takenFrom b s.arrivals) s (clearLine (clearPieces (clearStrips s))) := by
    unfold clearPieces
    rw [ha]
    exact hp.congr ⟨hs.1.symm, hs.2.1.symm, hs.2.2.symm⟩ ⟨rfl, rfl, rfl⟩
  exact hl.closes (closes_dischargeAll _)

/-- The strips and the pieces gone where no close completion comes in (R22): the bins, and the ORDER_DONEs of the
releases. -/
theorem clearPieces_clearStrips_quiet (s : State) (hq : ∀ b, Quiet s b) :
    Discards s.arrivals s (clearPieces (clearStrips s))
      ∧ (clearPieces (clearStrips s)).lif = (s.ordersDone s.allReservations).foldl Lif.raise s.lif := by
  have hs : (clearStrips s).lcp = s.lcp ∧ (clearStrips s).prq = s.prq ∧ (clearStrips s).bdb = s.bdb
      ∧ (clearStrips s).srt.pieces = s.srt.pieces := by
    rw [clearStrips_eq]; exact ⟨rfl, rfl, rfl, rfl⟩
  obtain ⟨sl, sr, sb, sp⟩ := hs
  have hb : ∀ b, binAt (clearStrips s) b = binAt s b := fun b => by unfold binAt; rw [sb]
  obtain ⟨⟨d1, d2, d3, d4⟩, dn⟩ := discards_foldl s.srt.pieces (clearStrips s) fun b => by
    unfold Quiet; rw [hb, sl]; exact hq b
  unfold clearPieces
  rw [sp]
  simp only [hb, sb] at d3 d4
  refine ⟨⟨d1.trans sl, d2.trans sr, d3, d4⟩, ?_⟩
  rw [dn, ← (releaseAll_spec s.allReservations s).2]
  unfold State.allReservations
  rw [releaseAll_append]
  exact releaseAll_lif_congr (clearStrips_releases s).1 (clearStrips_releases s).2 _

/-- LINE_CLEAR before its drain test where no close completion comes in (R22, R130, R137, R143): the bins, the closing
order and the notices. -/
theorem clearedLine_quiet (s : State) (hq : ∀ b, Quiet s b) (hh : s.ltr.lineState = .halted) :
    (clearedLine s).lcp = s.lcp ∧ (clearedLine s).prq = s.prq
      ∧ (clearedLine s).bdb = { s.bdb with
          bins := (clearedLine s).bdb.bins
          closingOrder := s.bdb.closingOrder ++ emptied (fun b => (binAt s b).state == .closePending)
            (fun b => (binAt s b).incoming) s.arrivals }
      ∧ (clearedLine s).lif
          = ((s.ordersDone s.allReservations).foldl Lif.raise s.lif).raise (.lineState .stopped .halted .request)
      ∧ ∀ b, binAt (clearedLine s) b = { (binAt s b).cleared b s.arrivals with
          discharge := if (binAt s b).state = .waitCart ∧ tabGet s.pins.carts b = some true
              ∧ (binAt s b).discharge = none then some (binAt s b).settings.dischargePulse
            else (binAt s b).discharge } := by
  obtain ⟨⟨d1, d2, d3, d4⟩, dn⟩ := clearPieces_clearStrips_quiet s hq
  have hu := clearPieces_clearStrips s
  obtain ⟨a1, a2⟩ := dischargeAll_spec (clearLine (clearPieces (clearStrips s))) (by simp [clearLine_eq])
  unfold clearedLine
  generalize clearPieces (clearStrips s) = u at *
  have up : u.pins = s.pins ∧ u.ltr.lineState = .halted := by rw [hu]; exact ⟨rfl, hh⟩
  have e : ∀ b, binAt (clearLine u) b = (binAt s b).cleared b s.arrivals := d4
  generalize dischargeAll (clearLine u) = t at *
  refine ⟨?_, ?_, ?_, ?_, fun b => ?_⟩
  · rw [a1]; exact d1
  · rw [a1]; exact d2
  · rw [a1, clearLine_eq, d3]
  · rw [a1, clearLine_eq, dn, up.2]
  · have hx : (binAt s b).state = .waitCart → 1 ≤ b ∧ b ≤ 14 := fun h => bin_exists s b (by rw [h]; simp)
    rw [a2, e, show (clearLine u).pins = s.pins from up.1]
    by_cases hw : (binAt s b).state = .waitCart ∧ tabGet s.pins.carts b = some true ∧ (binAt s b).discharge = none
    · rw [if_pos ⟨(hx hw.1).1, (hx hw.1).2, (cleared_state_iff _ _ _ (.inr rfl)).mpr hw.1, hw.2⟩, if_pos hw]
      rfl
    · rw [if_neg fun h => hw ⟨(cleared_state_iff _ _ _ (.inr rfl)).mp h.2.2.1, h.2.2.2⟩, if_neg hw]
      rfl

theorem clearedLine_queuesEmpty (s : State) : (clearedLine s).queuesEmpty := by
  rw [clearedLine_eq]
  exact ⟨rfl, rfl⟩

/-- LINE_CLEAR's drain test: in DRAINING the tooling begins, otherwise nothing follows (R90). -/
theorem drainTest_clearedLine (s : State) :
    (s.pfc.changeover = .draining → s.toolingBegun (drainTest (clearedLine s)).pfc)
      ∧ (s.pfc.changeover ≠ .draining → drainTest (clearedLine s) = clearedLine s) := by
  have hpfc : (clearedLine s).pfc = s.pfc := by rw [clearedLine_eq]
  obtain ⟨hdrain, hrest⟩ := toolsWhenEmpty_drainTest (clearedLine s)
  refine ⟨fun hd => ?_, fun hd => hrest (.inl (by rwa [hpfc]))⟩
  have := (hdrain (by rw [hpfc, hd]) (clearedLine_queuesEmpty s)).1
  unfold State.toolingBegun at this ⊢
  rwa [hpfc] at this

/-- LINE_CLEAR's drain test where it finds nothing to close: in DRAINING its notice, and no change of the bins. -/
theorem drainTest_clearedLine_quiet (s : State) (hq : ∀ b, Quiet s b) (hh : s.ltr.lineState = .halted)
    (hno : s.pfc.changeover ≠ .draining ∨ s.nothingOpen) :
    ((drainTest (clearedLine s)).lcp = (clearedLine s).lcp ∧ (drainTest (clearedLine s)).prq = (clearedLine s).prq
        ∧ (drainTest (clearedLine s)).bdb = (clearedLine s).bdb)
      ∧ (s.pfc.changeover ≠ .draining → drainTest (clearedLine s) = clearedLine s)
      ∧ (s.pfc.changeover = .draining → drainTest (clearedLine s) = { clearedLine s with
          pfc := (drainTest (clearedLine s)).pfc
          lif := (((s.ordersDone s.allReservations).foldl Lif.raise s.lif).raise
            (.lineState .stopped .halted .request)).raise
              (.profileState .tooling .draining s.pfc.target s.pfc.active .drained) }) := by
  have hpfc : (clearedLine s).pfc = s.pfc := by rw [clearedLine_eq]
  obtain ⟨-, -, -, q4, q5⟩ := clearedLine_quiet s hq hh
  have hsame := (drainTest_clearedLine s).2
  have hopen : s.pfc.changeover = .draining → drainTest (clearedLine s) = { clearedLine s with
      pfc := (drainTest (clearedLine s)).pfc
      lif := (((s.ordersDone s.allReservations).foldl Lif.raise s.lif).raise
        (.lineState .stopped .halted .request)).raise
          (.profileState .tooling .draining s.pfc.target s.pfc.active .drained) } := fun hd => by
    have hnothing : (clearedLine s).nothingOpen := fun b hb => by
      rw [q5] at hb
      rw [((clears_clearedLine s).bins b).1]
      exact hno.resolve_left (fun hn => hn hd) b ((cleared_state_iff _ _ _ (.inl rfl)).mp hb)
    have ht := ((toolsWhenEmpty_drainTest _).1 (by rw [hpfc, hd]) (clearedLine_queuesEmpty s)).2.2.2 hnothing
    rwa [q4, hpfc] at ht
  refine ⟨?_, hsame, hopen⟩
  generalize drainTest (clearedLine s) = t at *
  generalize clearedLine s = w at *
  by_cases hd : s.pfc.changeover = .draining
  · rw [hopen hd]; exact ⟨rfl, rfl, rfl⟩
  · rw [hsame hd]; exact ⟨rfl, rfl, rfl⟩

theorem binAt_setLif (s : State) (v : Lif) (b : Nat) : binAt { s with lif := v } b = binAt s b := rfl

/-- The answer to a LINE_CLEAR that is taken (R22). -/
theorem answered_lineClear (g : Byte) (s : State) (h : s.ltr.lineState = .halted) (he : s.pins.estop = false) :
    s.answered 0x13#8 g (lineClear s) = { clearAll s with
      lif := (clearAll s).lif.answering 0x13#8 g .ok (be1 s.ltr.strips.length ++ be1 s.srt.pieces.length) } := by
  simp [lineClear, h, he]

/-- Settles O17: LINE_CLEAR is the discards, the closings and the drain test one after another. -/
theorem lineClearEmptiesTheLine : Obligations.LineClearEmptiesTheLine := by
  intro g s hr
  have hex : exec (.lineClear g) s = .next (s.answered 0x13#8 g (lineClear s)) := request_answered hr _ _ _
  rw [hex]
  refine ⟨fun h => ?_, fun h he => ?_, fun h he => ?_⟩
  · simp [lineClear, h]
  · simp [lineClear, h, he]
  · rw [answered_lineClear g s h he, clearAll_clearedLine]
    have hw := clearedLine_eq s
    have hc := clears_clearedLine s
    have hpfc : (clearedLine s).pfc = s.pfc := by rw [hw]
    obtain ⟨f1, f2, f3, f4, f5, f6, f7, f8, f9, f10⟩ := drainTest_frame (clearedLine s)
    have hct := hc.closes (closes_drainTest (clearedLine s))
    obtain ⟨hbegun, hsame⟩ := drainTest_clearedLine s
    have hquiet := fun hq => clearedLine_quiet s hq h
    have hend := fun hq => drainTest_clearedLine_quiet s hq h
    generalize drainTest (clearedLine s) = t at *
    generalize clearedLine s = w at *
    refine ⟨_, rfl, ?_⟩
    refine ⟨?_, ?_, ?_, ?_, ?_, ?_, ?_, hct.composer, hct.slots, ?_, fun b => (hct.bins b).2.2, hct.manifests,
      fun b => ⟨(hct.bins b).1, (hct.bins b).2.1⟩, rfl, fun hq hno l hl => ?_⟩
    · exact State.eq_of_blocks ⟨f1.trans (by rw [hw]), rfl, f3.trans (by rw [hw]), rfl, rfl, rfl, rfl, rfl, rfl, rfl, rfl,
        rfl, rfl, f9.trans (by rw [hw]), f10.trans (by rw [hw])⟩
    · exact f2.trans (by rw [hw])
    · exact f4.trans (by rw [hw])
    · exact f6.trans (by rw [hw])
    · exact f7.trans (by rw [hw])
    · exact f8.trans (by rw [hw])
    · change t.pfc = { s.pfc with
        changeover := t.pfc.changeover, timer := t.pfc.timer, toolingRequest := t.pfc.toolingRequest }
      by_cases hd : s.pfc.changeover = .draining
      · rw [(hbegun hd).1]
      · rw [hsame hd, hpfc]
    · intro k
      refine (lineAt_congr (s := releaseAll s.allReservations s) ?_ k).trans ((releaseAll_spec _ s).1 k)
      exact f5.trans (by rw [hw])
    · subst hl
      have hqs := fun b => hq.imp_left fun h => h b
      obtain ⟨q1, q2, q3, q4, q5⟩ := hquiet hqs
      obtain ⟨⟨e1, e2, e3⟩, -, k3⟩ := hend hqs hno
      refine ⟨e1.trans q1, e2.trans q2, ?_, fun b => ?_, fun hd => ⟨?_, ?_⟩, fun hd => ⟨hbegun hd, ?_⟩⟩
      · refine (e3.trans q3).trans ?_
        dsimp only
        rw [e3]
      · have hb : binAt t b = _ := (show binAt t b = binAt w b by unfold binAt; rw [e3]).trans (q5 b)
        have hi : (binAt t b).incoming = ((binAt s b).cleared b s.arrivals).incoming := by rw [hb]
        rw [binAt_setLif, hi]
        exact hb
      · exact (congrArg State.pfc (hsame hd)).trans hpfc
      · change t.lif.answering _ _ _ _ = _
        rw [hsame hd, q4]
      · change t.lif.answering _ _ _ _ = _
        rw [k3 hd]

end Sys2Proof.Machine
end

section
/-! PROOFS. The gauge's settings and requests (O23), and the edges and ends of a verification (O24). -/

namespace Sys2Proof.Machine

open Sys2Proof

/-! ## The gauge's settings -/

theorem compOk_iff (c : Int) : compOk c = true ↔ -5000 ≤ c ∧ c ≤ 5000 := by
  simp [compOk, withinInt]

/-- Each entry above the one before it comes to each entry above all before it. -/
theorem ascending_iff_pairwise (ms : List Nat) : ascending ms = true ↔ ms.Pairwise (· < ·) := by
  rw [← List.isChain_iff_pairwise]
  induction ms with
  | nil => simp [ascending]
  | cons a rest ih =>
    cases rest with
    | nil => simp [ascending]
    | cons b rest => simp [ascending, ih]

/-- Of 32 ascending marks mark 31 is the greatest, so that a limit of it is one of them all (R26). -/
theorem marks_le_iff_last_le {ms : List Nat} (hl : ms.length = 32) (ha : ms.Pairwise (· < ·)) (limit : Nat) :
    (∀ m ∈ ms, m ≤ limit) ↔ ms.getD 31 0 ≤ limit := by
  constructor
  · intro h
    refine h _ ?_
    rw [List.getD_eq_getElem _ _ (by omega)]
    exact List.getElem_mem _
  · intro h m hm
    obtain ⟨i, hi, rfl⟩ := List.getElem_of_mem hm
    rw [← List.getD_eq_getElem ms 0 hi]
    rcases Nat.lt_or_eq_of_le (show i ≤ 31 by omega) with hlt | rfl
    · exact (getD_lt_getD ms ha i 31 (by omega) hlt).le.trans h
    · exact h

/-- GAUGE_TABLE's checks of 32 marks and of T (R26). -/
theorem gaugeTableOk_iff {ms : List Nat} (hl : ms.length = 32) (tol : Nat) : gaugeTableOk ms tol = true ↔
    ms[0]? = some 0 ∧ ms.Pairwise (· < ·) ∧ ms.getD 31 0 ≤ 3000000 ∧ 100 ≤ tol ∧ tol ≤ 5000 := by
  simp only [gaugeTableOk, within, Bool.and_eq_true, ascending_iff_pairwise, beq_iff_eq, List.head?_eq_getElem?,
    List.all_eq_true, decide_eq_true_eq, and_assoc]
  exact and_congr_right fun _ => and_congr_right fun ha => and_congr_left fun _ => marks_le_iff_last_le hl ha _

/-- A verification is in flight in ARMED and ON_BAR (R27). -/
theorem verifying_iff (s : State) :
    verifying s = true ↔ s.msu.verification = .armed ∨ s.msu.verification = .onBar := by
  simp [verifying]

/-- GAUGE_VERIFY's last check, once no result is latched: the verification is IDLE, the line in RUNNING, its queue empty
and the measure eye clear (R27). -/
theorem gaugeVerify_wrongState_iff {s : State} (hn : s.msu.verification ≠ .latched) :
    (verifying s || s.ltr.lineState != .running || !s.ltr.strips.isEmpty || s.ltr.level.measure) = true
      ↔ s.msu.verification ≠ .idle ∨ s.ltr.lineState ≠ .running ∨ s.ltr.strips ≠ [] ∨ s.ltr.level.measure = true := by
  have hv : verifying s = true ↔ s.msu.verification ≠ .idle := by
    rw [verifying_iff]
    cases h : s.msu.verification with
    | latched => exact absurd h hn
    | idle | armed | onBar => simp
  simp [hv, or_assoc]

/-- Settles O23, each request's chain of checks matched with the statement's. -/
theorem gaugeSettingsAndRequests : Obligations.GaugeSettingsAndRequests := by
  refine ⟨fun g c s hr => ?_, fun g ms tol s hr hl => ?_, fun g s hr => ⟨?_, ?_, ?_⟩⟩
  · refine (request_answered hr 0x18#8 g (measureSet c)).trans (next_congr ?_)
    simp only [measureSet, answered_refuseIf]
    rw [if_congr (not_eq_true_iff (compOk_iff c)) rfl rfl, ite_not]
    rfl
  · refine (request_answered hr 0x19#8 g (gaugeTable ms tol)).trans (next_congr ?_)
    have h32 : (ms.length != 32) = false := by simp [hl]
    simp only [gaugeTable, h32, refuseIf_false, answered_refuseIf]
    exact if_congr (not_eq_true_iff (gaugeTableOk_iff hl tol)) rfl (if_congr (verifying_iff s) rfl rfl)
  · refine (request_answered hr 0x1A#8 g gaugeVerify).trans (next_congr ?_)
    simp only [gaugeVerify, answered_refuseHalted, answered_refuseIf]
    refine if_congr .rfl rfl (if_congr (by simp) rfl ?_)
    by_cases hn : s.msu.verification = .latched
    · simp [hn]
    · rw [if_neg (by simpa using hn), if_neg hn]
      exact if_congr (gaugeVerify_wrongState_iff hn) rfl rfl
  · refine (request_answered hr 0x1B#8 g gaugeCancelRequest).trans (next_congr ?_)
    simp only [gaugeCancelRequest, answered_taken]
    split
    · next h => rw [gaugeCancel_inFlight .request s h]
    · next h => rw [gaugeCancel, if_neg (mt (verifying_iff s).mp h)]
  · refine (request_answered hr 0x1C#8 g gaugeRelease).trans (next_congr ?_)
    simp only [gaugeRelease, answered_refuseIf]
    exact if_congr (verifying_iff s) rfl rfl

/-! ## The result of a verification -/

theorem resultOf_deviations (m : Msu) (c : GaugeCause) {k : Nat} (hk : k < 32) :
    (resultOf m c).deviations[k]? = some (deviationOf m k) := by
  simp [resultOf, hk]

theorem resultOf_flags (m : Msu) (c : GaugeCause) {k : Nat} (hk : k < 32) :
    (resultOf m c).flags[k]? = some (flagOfMark m k) := by
  simp [resultOf, hk]

/-- A mark seen deviates by its difference from its reference, and its flag is set beyond T (R29). -/
theorem mark_seen {m : Msu} {k : Nat} {v : Int} (h : m.measured[k]? = some v) :
    deviationOf m k = some (v - (m.marks.getD k 0 : Nat))
      ∧ flagOfMark m k = decide ((m.tolerance : Int) < |v - (m.marks.getD k 0 : Nat)|) := by
  have hd : deviationOf m k = some (v - (m.marks.getD k 0 : Nat)) := by simp [deviationOf, h]
  exact ⟨hd, by simp only [flagOfMark, hd]⟩

/-- A mark not seen has no deviation, and its flag is set (R29). -/
theorem mark_notSeen {m : Msu} {k : Nat} (h : m.measured[k]? = none) :
    deviationOf m k = none ∧ flagOfMark m k = true := by
  have hd : deviationOf m k = none := by simp [deviationOf, h]
  exact ⟨hd, by simp only [flagOfMark, hd]⟩

theorem flagCount_eq (r : GaugeResult) : r.flagCount = r.flags.count true := by
  simp [GaugeResult.flagCount, List.count, Function.id_def]

/-- No flag set is PASS, any is SUSPECT (R29). -/
theorem pass_or_suspect {α : Type} (r : GaugeResult) (pass suspect : α) :
    (if (r.flagCount == 0) = true then pass else suspect) = if true ∈ r.flags then suspect else pass := by
  rw [← ite_not (true ∈ r.flags)]
  exact if_congr (by rw [flagCount_eq, beq_iff_eq, List.count_eq_zero]) rfl rfl

/-- The end of a verification: the result of what it has measured is latched and told (R29). -/
theorem gaugeEnd_latches (c : GaugeCause) (s : State) :
    ∃ m n, s.msu.latches s.msu.measured c m n ∧ gaugeEnd c s = { s with msu := m, lif := s.lif.raise n } := by
  refine ⟨_, _, ⟨resultOf s.msu c, rfl, by simp [resultOf], by simp [resultOf], fun k v hk hv => ?_,
    fun k hk hn => ?_, rfl, rfl, rfl, rfl, rfl⟩, ?_⟩
  · rw [resultOf_deviations _ _ hk, resultOf_flags _ _ hk]
    exact (mark_seen hv).imp (congrArg some) (congrArg some)
  · rw [resultOf_deviations _ _ hk, resultOf_flags _ _ hk]
    exact (mark_notSeen hn).imp (congrArg some) (congrArg some)
  · simp only [gaugeEnd, pass_or_suspect]
    rw [flagCount_eq]
    rfl

/-! ## The edges of a verification -/

/-- The first tab (R28). -/
theorem gaugeMark_armed {s : State} (h : s.msu.verification = .armed) : gaugeMark s = s.setMsu { s.msu with
    origin := s.ltr.trimPos, measured := [0], verification := .onBar, barEndFrom := none } := by
  simp [gaugeMark, h]

/-- The tab of the next mark measured from the origin (R28). -/
def State.nextMark (s : State) : State := s.setMsu { s.msu with
  measured := s.msu.measured ++ [(s.ltr.trimPos - s.msu.origin).toInt], barEndFrom := none }

/-- The tab of the next mark: that of mark 31 ends the verification (R28). -/
theorem gaugeMark_onBar {s : State} (h : s.msu.verification = .onBar) :
    gaugeMark s = if s.msu.measured.length = 31 then gaugeEnd .mark32 s.nextMark else s.nextMark := by
  simp [gaugeMark, h, signedDiff, State.nextMark]

/-- During a verification a leading edge at the measure eye is the MSU's (R28). -/
theorem exec_measureLeadingEdge_verifying {s : State} (hl : s.ltr.lineState = .running)
    (hv : s.msu.verification = .armed ∨ s.msu.verification = .onBar) (he : s.pins.eyes.measure = false) :
    exec .measureLeadingEdge s = .next (gaugeMark (s.sees .measure true)) := by
  have hv' : verifying (s.sees .measure true) = true := (verifying_iff s).mpr hv
  refine (exec_edge .measure true ((watching_iff s).mpr (.inl hl)) he).trans (next_congr ?_)
  simp [takeEdge, measureLead, hv']

/-- During a verification a trailing edge at the measure eye is the MSU's (R28). -/
theorem exec_measureTrailingEdge_verifying {s : State} (hl : s.ltr.lineState = .running)
    (hv : s.msu.verification = .armed ∨ s.msu.verification = .onBar) (he : s.pins.eyes.measure = true) :
    exec .measureTrailingEdge s = .next (gaugeTrail (s.sees .measure false)) := by
  have hv' : verifying (s.sees .measure false) = true := (verifying_iff s).mpr hv
  refine (exec_edge .measure false ((watching_iff s).mpr (.inl hl)) he).trans (next_congr ?_)
  simp [takeEdge, measureTrail, hv']

/-- A bar-end distance ends the verification once it is exceeded by 100 mm (R28). -/
theorem barEnd_running {s : State} {p : Pos} (h : s.msu.verification = .onBar) (hp : s.msu.barEndFrom = some p) :
    barEnd s = if 0 < (s.ltr.trimPos - (p + umOfMm 100)).toInt then gaugeEnd .barEnd s else s := by
  simp only [barEnd, h, hp, exceeded_iff]

/-- With no bar-end distance running BAR_END does nothing (log 3). -/
theorem barEnd_none {s : State} (h : s.msu.barEndFrom = none) : barEnd s = s := by
  simp [barEnd, h]

/-- Settles O24: the edges in ARMED and ON_BAR, then the two ends. -/
theorem verificationTakesTheEdges : Obligations.VerificationTakesTheEdges := by
  refine ⟨fun s hl => ⟨fun hv he => ?_, fun hv hn he => ?_, fun hv he => ?_, fun hv he => ?_⟩,
    fun s hv => ⟨fun hl he hn => ?_, fun p hp => ⟨fun hd => ?_, fun hd => ?_⟩, fun hp => ?_⟩⟩
  · exact (exec_measureLeadingEdge_verifying hl (.inl hv) he).trans
      (next_congr (gaugeMark_armed (s := s.sees .measure true) hv))
  · exact (exec_measureLeadingEdge_verifying hl (.inr hv) he).trans
      (next_congr ((gaugeMark_onBar (s := s.sees .measure true) hv).trans (if_neg hn)))
  · refine (exec_measureTrailingEdge_verifying hl (.inl hv) he).trans (next_congr (if_neg ?_))
    simp [State.sees, hv]
  · refine (exec_measureTrailingEdge_verifying hl (.inr hv) he).trans (next_congr (if_pos ?_))
    simp [State.sees, hv]
  · obtain ⟨m, n, hm, hend⟩ := gaugeEnd_latches .mark32 (s.sees .measure true).nextMark
    exact ⟨m, n, hm, (exec_measureLeadingEdge_verifying hl (.inr hv) he).trans (next_congr
      (((gaugeMark_onBar (s := s.sees .measure true) hv).trans (if_pos hn)).trans hend))⟩
  · obtain ⟨m, n, hm, hend⟩ := gaugeEnd_latches .barEnd s
    exact ⟨m, n, hm, next_congr (((barEnd_running hv hp).trans (if_pos hd)).trans hend)⟩
  · exact next_congr ((barEnd_running hv hp).trans (if_neg (not_lt.mpr hd)))
  · exact next_congr (barEnd_none hp)

end Sys2Proof.Machine
end

section
/-! PROOFS. The stages of normalisation (O26), and the grade and the length class of a candidate piece (O27). -/

namespace Sys2Proof.Machine

open Sys2Proof

/-! ## Normalisation (R37, R38) -/

theorem firstStage_append (ds es : List Defect) : firstStage (ds ++ es) = firstStage ds ++ firstStage es := by
  simp [firstStage]

theorem secondStage_append (l : Nat) (ds es : List Defect) :
    secondStage l (ds ++ es) = secondStage l ds ++ secondStage l es := by
  simp [secondStage]

/-- One defect after the first stage: none, or the defect with its severity and extent held (R37). -/
theorem firstStage_singleton (d : Defect) : firstStage [d] = if d.severity = 0 then [] else
    [{ d with severity := min d.severity 7, extent := max d.extent 1 }] := by
  by_cases h : d.severity = 0 <;> simp [firstStage, h]

/-- One defect after the second stage: none, or the defect ending at L at the latest (R38). -/
theorem secondStage_singleton (l : Nat) (d : Defect) : secondStage l [d] = if l ≤ d.start then [] else
    [if l < d.start + d.extent then { d with extent := l - d.start } else d] := by
  by_cases h : l ≤ d.start
  · simp [secondStage, h]
  · simp [secondStage, h, Nat.lt_of_not_le h]

theorem mem_firstStage {ds : List Defect} {d : Defect} : d ∈ firstStage ds ↔ ∃ c ∈ ds, c.severity ≠ 0
    ∧ d = { c with severity := min c.severity 7, extent := max c.extent 1 } := by
  simp [firstStage, and_assoc, @eq_comm _ d]

theorem mem_secondStage {l : Nat} {ds : List Defect} {d : Defect} : d ∈ secondStage l ds ↔ ∃ c ∈ ds, c.start < l
    ∧ d = if l < c.start + c.extent then { c with extent := l - c.start } else c := by
  simp [secondStage, and_assoc, @eq_comm _ d]

/-- A defect with an extent lies, after the second stage, within the strip's length (R38). -/
theorem secondStage_within {l : Nat} {ds : List Defect} (h : ∀ d ∈ ds, 1 ≤ d.extent) :
    ∀ d ∈ secondStage l ds, d.start < l ∧ 1 ≤ d.extent ∧ d.start + d.extent ≤ l := by
  intro d hd
  obtain ⟨c, hc, hs, rfl⟩ := mem_secondStage.mp hd
  have he := h c hc
  split
  · exact ⟨hs, by simp; omega, by simp; omega⟩
  · exact ⟨hs, he, by omega⟩

/-- Settles O26. -/
theorem normalisationStages : Obligations.NormalisationStages := by
  refine ⟨⟨rfl, firstStage_append, fun d => ?_⟩, fun l => ⟨rfl, secondStage_append l, secondStage_singleton l⟩,
    fun _ _ => mem_firstStage, fun _ _ _ => mem_secondStage, fun _ _ => secondStage_within⟩
  have hsev : min d.severity 7 = if 7 < d.severity then 7 else d.severity := by split <;> omega
  have hext : max d.extent 1 = if d.extent = 0 then 1 else d.extent := by split <;> omega
  rw [firstStage_singleton, hsev, hext]

/-! ## Grades (R43 to R45) -/

theorem rowAdmits_iff (row : GradeRow) (p q dens : Nat) (ds : List Defect) :
    rowAdmits row p q dens ds = true ↔ rowPasses row p q dens ds := by
  simp only [rowAdmits, rowPasses, counting, Bool.and_eq_true, List.all_eq_true, List.mem_filter, decide_eq_true_eq,
    and_imp]

/-- Grade g is given by row g, the first that passes (R45). -/
theorem gradeOf_eq_some_iff (e : Ple) (p q : Nat) (ds : List Defect) (g : Nat) : gradeOf e p q ds = some g ↔
    1 ≤ g ∧ (∃ row, e.grades[g - 1]? = some row ∧ rowPasses row p q (density e.weights p q ds) ds)
      ∧ ∀ h, 1 ≤ h → h < g → ∀ row, e.grades[h - 1]? = some row
        → ¬ rowPasses row p q (density e.weights p q ds) ds := by
  cases g with
  | zero => simp [gradeOf]
  | succ i =>
    simp only [gradeOf, Option.map_eq_some_iff, Nat.add_right_cancel_iff, exists_eq_right,
      List.findIdx?_eq_some_iff_getElem, ← rowAdmits_iff, List.getElem?_eq_some_iff]
    constructor
    · rintro ⟨hi, hrow, hbefore⟩
      refine ⟨by omega, ⟨_, ⟨hi, rfl⟩, hrow⟩, ?_⟩
      rintro h h1 hlt _ ⟨hl, rfl⟩
      exact hbefore (h - 1) (by omega)
    · rintro ⟨-, ⟨_, ⟨hi, rfl⟩, hrow⟩, hbefore⟩
      exact ⟨hi, hrow, fun j hj => hbefore (j + 1) (by omega) (by omega) _ ⟨_, rfl⟩⟩

theorem gradeOf_eq_none_iff (e : Ple) (p q : Nat) (ds : List Defect) : gradeOf e p q ds = none ↔
    ∀ row ∈ e.grades, ¬ rowPasses row p q (density e.weights p q ds) ds := by
  simp [gradeOf, ← rowAdmits_iff]

/-! ## Length classes (R46) -/

/-- Ascending bounds: those at most n are the first ones, as many as there are. -/
theorem lt_countP_le_iff {bounds : List Nat} (h : bounds.Pairwise (· < ·)) (n i : Nat) :
    i < bounds.countP (fun b => decide (b ≤ n)) ↔ ∃ b, bounds[i]? = some b ∧ b ≤ n := by
  induction bounds generalizing i with
  | nil => simp
  | cons b bs ih =>
    obtain ⟨hfirst, hrest⟩ := List.pairwise_cons.mp h
    by_cases hb : b ≤ n
    · cases i with
      | zero => simp [hb]
      | succ i => simpa [hb] using ih hrest i
    · have habove : ∀ x ∈ b :: bs, ¬ x ≤ n := by
        intro x hx
        rcases List.mem_cons.mp hx with rfl | hx
        · exact hb
        · have := hfirst x hx
          omega
      have hnone : (b :: bs).countP (fun b => decide (b ≤ n)) = 0 := by
        simpa only [List.countP_eq_zero, decide_eq_true_eq] using habove
      rw [hnone]
      refine iff_of_false (Nat.not_lt_zero i) ?_
      rintro ⟨x, hx, hle⟩
      exact habove x (List.mem_of_getElem? hx) hle

/-- Class c is the highest whose lower bound is at most n (R46). -/
theorem classOf_eq_some_iff {bounds : List Nat} (h : bounds.Pairwise (· < ·)) (n c : Nat) :
    classOf bounds n = some c ↔
      1 ≤ c ∧ (∃ b, bounds[c - 1]? = some b ∧ b ≤ n) ∧ ∀ b, bounds[c]? = some b → n < b := by
  have hnext : (∀ b, bounds[c]? = some b → n < b) ↔ ¬ c < bounds.countP (fun b => decide (b ≤ n)) := by
    rw [lt_countP_le_iff h]
    simp
  rw [hnext, ← lt_countP_le_iff h]
  simp only [classOf]
  split
  · simp; omega
  · rw [Option.some.injEq]
    omega

theorem classOf_eq_none_iff (bounds : List Nat) (n : Nat) : classOf bounds n = none ↔ ∀ b ∈ bounds, n < b := by
  simp [classOf, List.countP_eq_zero]

/-- Settles O27, the density being that of R44. -/
theorem gradeAndClassOfACandidate : Obligations.GradeAndClassOfACandidate := by
  refine ⟨?_, fun _ _ _ => rfl, fun bounds n h => ⟨classOf_eq_some_iff h n, classOf_eq_none_iff bounds n⟩⟩
  rintro e p q ds _ rfl
  exact ⟨gradeOf_eq_some_iff e p q ds, gradeOf_eq_none_iff e p q ds⟩

end Sys2Proof.Machine
end

section
/-! PROOFS. The tables of chapter 3, the values and the plan options (O28). -/

namespace Sys2Proof.Machine

open Sys2Proof

/-! ## Texts (section 12.6, log 26) -/

theorem textOf_eq_rdropWhile (bytes : List Byte) : textOf bytes = bytes.rdropWhile (fun b => b == 0#8) := rfl

/-- A text that does not end in 00h is read as it is, whatever fills it. -/
theorem textOf_append_replicate {t : Text} (h : t.getLast? ≠ some 0#8) (n : Nat) :
    textOf (t ++ List.replicate n 0#8) = t := by
  rw [textOf_eq_rdropWhile]
  induction n with
  | zero =>
    rw [List.replicate_zero, List.append_nil, List.rdropWhile_eq_self_iff]
    intro hne hlast
    exact h (by rw [List.getLast?_eq_some_getLast hne, beq_iff_eq.mp hlast])
  | succ n ih => rw [List.replicate_succ', ← List.append_assoc, List.rdropWhile_concat_pos _ _ _ (by rfl), ih]

/-! ## Fields (R39 to R41, R52, R53) -/

theorem textOk_iff (bytes : List Byte) : textOk (textOf bytes) = true ↔ isText bytes := by
  simp [textOk, isText, isChar]

theorem gradesOk_iff (n : Nat) (rows : List GradeRow) : gradesOk n rows = true ↔ gradeFieldsOk n rows := by
  simp only [gradesOk, gradeFieldsOk, within, Bool.and_eq_true, List.all_eq_true, decide_eq_true_eq, textOk_iff,
    and_assoc, ← forall₂_and]

theorem weightsOk_iff (ws : List Nat) : (!weightsOk ws) = true ↔ ∃ w ∈ ws, 15 < w := by
  simp [weightsOk]

/-- CLASS_SET's checks: of ascending bounds the first is the least (R41). -/
theorem classesOk_iff {n : Nat} {bs : List Nat} (hn : bs.length = n) : classesOk n bs = true ↔
    1 ≤ n ∧ n ≤ 8 ∧ bs.Pairwise (· < ·) ∧ ∀ b ∈ bs, 150 ≤ b ∧ b ≤ 3000 := by
  cases bs with
  | nil =>
    subst hn
    simp [classesOk, within]
  | cons b rest =>
    have least : (b :: rest).Pairwise (· < ·) → (150 ≤ b ↔ ∀ x ∈ b :: rest, 150 ≤ x) := fun ha =>
      ⟨fun hb => List.forall_mem_cons.mpr ⟨hb, fun x hx => hb.trans (List.rel_of_pairwise_cons ha hx).le⟩,
        fun hall => hall b List.mem_cons_self⟩
    simp only [classesOk, within, List.head?_cons, Bool.and_eq_true, decide_eq_true_eq, List.all_eq_true,
      ascending_iff_pairwise, forall₂_and, and_assoc]
    refine and_congr_right fun _ => and_congr_right fun _ => ?_
    rw [and_left_comm]
    exact and_congr_right fun ha => and_congr_left fun _ => least ha

theorem valuesOk_iff (vs : List Nat) : (!valuesOk vs) = true ↔ ∃ v ∈ vs, 4095 < v := by
  simp [valuesOk]

theorem planOptionsOk_iff (o : PlanOptions) : (!planOptionsOk o) = true ↔
    50 < o.margin ∨ 100 < o.stockPct ∨ 100 < o.overrunPct := by
  simp only [planOptionsOk, Bool.not_eq_true', Bool.eq_false_iff, ne_eq, Bool.and_eq_true, decide_eq_true_eq]
  omega

/-! ## The use of a grade or class (R39, R41) -/

/-- A record that differs from the one standing for absent entries is an entry of the table. -/
theorem exists_entry_iff {α : Type} {n : Nat} (v : Vector α n) (d : α) {P : α → Prop} (hd : ¬ P d) :
    (∃ k, P ((tabGet v k).getD d)) ↔ ∃ x ∈ v.toList, P x := by
  constructor
  · rintro ⟨k, hk⟩
    unfold tabGet at hk
    split at hk
    · exact absurd hk hd
    · cases hx : v[k - 1]? with
      | none => exact absurd (by simpa [hx] using hk) hd
      | some x =>
        refine ⟨x, ?_, by simpa [hx] using hk⟩
        simpa using Vector.mem_of_getElem? hx
  · rintro ⟨x, hx, hp⟩
    obtain ⟨i, hi, rfl⟩ := Vector.getElem_of_mem (Vector.mem_toList_iff.mp hx)
    exact ⟨i + 1, by simpa [tabGet, hi] using hp⟩

/-- An order line not FREE has a figure above a count (R39, R41). -/
theorem lineAbove_iff (s : State) (figure : OrderLine → Nat) (n : Nat) :
    s.otu.lines.toList.any (fun l => l.state != .free && decide (n < figure l)) = true
      ↔ ∃ k, (lineAt s k).state ≠ .free ∧ n < figure (lineAt s k) := by
  simp only [List.any_eq_true, Bool.and_eq_true, bne_iff_ne, decide_eq_true_eq]
  exact (exists_entry_iff s.otu.lines .initial (P := fun l => l.state ≠ .free ∧ n < figure l) fun h => h.1 rfl).symm

/-- A test of the bins not DISABLED needs bins 1 to 14 only. -/
theorem binAny_iff (s : State) (test : SortEntry → Bool) :
    binNumbers.any (fun b => (binAt s b).state != .disabled && test (entryAt s b)) = true
      ↔ ∃ b, (binAt s b).state ≠ .disabled ∧ test (entryAt s b) = true := by
  simp only [List.any_eq_true, Bool.and_eq_true, bne_iff_ne]
  refine exists_congr fun b => and_iff_right_of_imp fun ⟨hb, _⟩ => ?_
  have := bin_exists s b hb
  simp [binNumbers]
  omega

theorem gradeInUseAbove_iff (s : State) (n : Nat) : gradeInUseAbove s n = true ↔ s.namesGradeAbove n := by
  rw [gradeInUseAbove, Bool.or_eq_true]
  refine or_congr (lineAbove_iff s OrderLine.grade n) ((binAny_iff s fun e => match e.grade with
    | .any => false
    | .only g => decide (n < g)).trans (exists_congr fun b => ?_))
  cases (entryAt s b).grade <;> simp

/-- The top class of a set is above a count exactly where some class of the set is (R41). -/
theorem lt_topClass_iff (cs : BitVec 8) (n : Nat) : n < topClass cs ↔ ∃ c, cs.getLsbD c = true ∧ n ≤ c := by
  have running_max : ∀ (is : List Nat) (m : Nat),
      n < is.foldl (fun m i => max m (i + 1)) m ↔ n < m ∨ ∃ i ∈ is, n ≤ i := by
    intro is
    induction is with
    | nil => simp
    | cons i is ih =>
      intro m
      rw [List.foldl_cons, ih, lt_max_iff, Nat.lt_succ_iff, or_assoc, List.exists_mem_cons_iff]
  rw [topClass, running_max]
  simp only [Nat.not_lt_zero, false_or, List.mem_filter, List.mem_range, and_assoc]
  exact exists_congr fun c => and_iff_right_of_imp fun ⟨hc, _⟩ => BitVec.lt_of_getLsbD hc

theorem classInUseAbove_iff (s : State) (n : Nat) : classInUseAbove s n = true ↔ s.namesClassAbove n := by
  rw [classInUseAbove, Bool.or_eq_true]
  refine or_congr (lineAbove_iff s OrderLine.cls n) ((binAny_iff s fun e => decide (n < topClass e.classSet)).trans
    (exists_congr fun b => ?_))
  simp only [decide_eq_true_eq, lt_topClass_iff, exists_and_left]

/-! ## The requests -/

theorem answered_refuseWatching (s : State) (k g : Byte) (a : Answer) : s.answered k g (refuseWatching s a)
    = if s.ltr.lineState = .running ∨ s.ltr.lineState = .stopping then s.refusedWith k g .wrongState
      else s.answered k g a := by
  rw [refuseWatching, answered_refuseIf]
  exact if_congr (watching_iff s) rfl rfl

/-- The answer to a table whose use is tested: the line state, the fields, then the use of what is above the new count
(R39, R41). -/
def tableAnswer (s : State) (fieldsOk inUse : Bool) (t : State) : Answer :=
  refuseHalted s <| refuseWatching s <| refuseIf (!fieldsOk) .badValue <| refuseIf inUse .inUse <| taken t []

/-- What the outcome of such a table's request is, by line state, fields and use. -/
theorem outcome_tableAnswer {s t : State} {fieldsOk inUse : Bool} {F U : Prop} {k g : Byte} {x : Outcome}
    (hx : x = .next (s.answered k g (tableAnswer s fieldsOk inUse t)))
    (hF : fieldsOk = true ↔ F) (hU : inUse = true ↔ U) :
    (s.ltr.lineState = .halted → x = .next (s.refusedWith k g .halted))
    ∧ (s.ltr.lineState = .running ∨ s.ltr.lineState = .stopping → x = .next (s.refusedWith k g .wrongState))
    ∧ (s.ltr.lineState = .stopped → ¬ F → x = .next (s.refusedWith k g .badValue))
    ∧ (s.ltr.lineState = .stopped → F → U → x = .next (s.refusedWith k g .inUse))
    ∧ (s.ltr.lineState = .stopped → F → ¬ U → x = .next { t with lif := t.lif.answering k g .ok [] }) := by
  rw [hx, ← hF, ← hU]
  simp only [tableAnswer, answered_refuseHalted, answered_refuseWatching, answered_refuseIf, answered_taken]
  refine ⟨fun h => next_congr (if_pos h), fun h => next_congr ?_, fun h hf => ?_, fun h hf hu => ?_,
    fun h hf hu => ?_⟩
  · rw [if_neg (by rcases h with h | h <;> simp [h]), if_pos h]
  · simp [h, hf]
  · simp [h, hf, hu]
  · simp [h, hf, hu]

/-- GRADE_SET of a payload that fits its count (R39). -/
theorem gradeSet_eq {n : Nat} {rows : List GradeRow} (hn : rows.length = n)
    (hrows : ∀ r ∈ rows, r.name.length = 8 ∧ r.maxsev.length = 8) (s : State) :
    gradeSet n rows s = tableAnswer s (gradesOk n rows) (gradeInUseAbove s n) (s.setPle { s.ple with
      gradesLoaded := true, grades := rows.map (fun r => { r with name := textOf r.name }) }) := by
  have hfit : (rows.length != n || rows.any fun r => r.name.length != 8 || r.maxsev.length != 8) = false := by
    simpa [hn] using hrows
  rw [gradeSet, hfit, refuseIf_false]
  rfl

/-- CLASS_SET of a payload that fits its count (R41). -/
theorem classSet_eq {n : Nat} {bs : List Nat} (hn : bs.length = n) (s : State) :
    classSet n bs s = tableAnswer s (classesOk n bs) (classInUseAbove s n)
      (s.setPle { s.ple with classesLoaded := true, bounds := bs }) := by
  have hfit : (bs.length != n) = false := by simp [hn]
  rw [classSet, hfit, refuseIf_false]
  rfl

/-- Settles O28, each request's checks matched with the statement's. -/
theorem tablesAndValuesAreReplaced : Obligations.TablesAndValuesAreReplaced := by
  refine ⟨fun t n ht => textOf_append_replicate ht n, fun g s hr => ⟨fun n rows hn hrows => ?_, fun ws hw => ?_,
    fun n bs hn => ?_⟩, fun g s hr => ⟨fun vs hv => ?_, fun o => ?_⟩⟩
  · exact outcome_tableAnswer ((request_answered hr 0x20#8 g (gradeSet n rows)).trans (by rw [gradeSet_eq hn hrows]))
      (gradesOk_iff n rows) (gradeInUseAbove_iff s n)
  · refine (request_answered hr 0x21#8 g (weightSet ws)).trans (next_congr ?_)
    have hfit : (ws.length != 8) = false := by simp [hw]
    simp only [weightSet, hfit, refuseIf_false, answered_refuseHalted, answered_refuseWatching, answered_refuseIf]
    exact if_congr .rfl rfl (if_congr .rfl rfl (if_congr (weightsOk_iff ws) rfl rfl))
  · exact outcome_tableAnswer ((request_answered hr 0x22#8 g (classSet n bs)).trans (by rw [classSet_eq hn]))
      (classesOk_iff hn) (classInUseAbove_iff s n)
  · refine (request_answered hr 0x28#8 g (valueSet vs)).trans (next_congr ?_)
    have hfit : (vs.length != 40) = false := by simp [hv]
    simp only [valueSet, hfit, refuseIf_false, answered_refuseHalted, answered_refuseIf]
    exact if_congr .rfl rfl (if_congr (valuesOk_iff vs) rfl rfl)
  · refine (request_answered hr 0x29#8 g (planOptions o)).trans (next_congr ?_)
    simp only [planOptions, answered_refuseHalted, answered_refuseIf]
    exact if_congr .rfl rfl (if_congr (planOptionsOk_iff o) rfl rfl)

end Sys2Proof.Machine
end

section
/-! PROOFS. Scan records, discarded or attached (O25). -/

namespace Sys2Proof.Machine

open Sys2Proof

/-! ## Payloads (section 12.6) -/

theorem word2_ofNat {n : Nat} (h : n < 65536) : word2 (BitVec.ofNat 8 (n / 256)) (BitVec.ofNat 8 n) = n := by
  simp only [word2, BitVec.toNat_ofNat]
  omega

/-- The defects of a payload are those it was written from. -/
theorem readDefects_flatMap_sent {ds : List Defect} (h : ∀ d ∈ ds, d.sendable) :
    readDefects (ds.flatMap Defect.sent) = ds := by
  induction ds with
  | nil => rfl
  | cons d ds ih =>
    obtain ⟨hd, hds⟩ := List.forall_mem_cons.mp h
    obtain ⟨hstart, hextent, hkind, hsev, hface⟩ := hd
    have hk : d.kind % 256 = d.kind := by omega
    have hv : d.severity % 256 = d.severity := by omega
    have hf : d.face % 256 = d.face := by omega
    simp [Defect.sent, be1, be2, readDefects, word2_ofNat hstart, word2_ofNat hextent, hk, hv, hf, ih hds]

/-- Seven bytes a defect: the kind and face of defect i stand 4 and 6 bytes on. -/
theorem readDefects_entry {bs : List Byte} {i : Nat} (h : 7 * i + 7 ≤ bs.length) : ∃ d ∈ readDefects bs,
    d.kind = (bs.getD (4 + 7 * i) 0#8).toNat ∧ d.face = (bs.getD (6 + 7 * i) 0#8).toNat := by
  induction i generalizing bs with
  | zero =>
    match bs, h with
    | s1 :: s0 :: e1 :: e0 :: k :: v :: f :: rest, _ => exact ⟨_, List.mem_cons_self, rfl, rfl⟩
  | succ i ih =>
    match bs, h with
    | s1 :: s0 :: e1 :: e0 :: k :: v :: f :: rest, h =>
      obtain ⟨d, hd, hkind, hface⟩ := ih (bs := rest) (by simp at h; omega)
      exact ⟨d, List.mem_cons_of_mem _ hd, hkind, hface⟩

/-- A payload that fails check 1 (R34): its count, its length, its colour, or the kind or face of a defect. -/
theorem malformed_of_check {p : List Byte} (hp : 4 ≤ p.length)
    (h : 24 < (p.getD 3 0#8).toNat ∨ p.length ≠ 4 + 7 * (p.getD 3 0#8).toNat ∨ 3 < (p.getD 2 0#8).toNat
      ∨ ∃ i, i < (p.getD 3 0#8).toNat
        ∧ (7 < (p.getD (8 + 7 * i) 0#8).toNat ∨ 3 < (p.getD (10 + 7 * i) 0#8).toNat)) :
    malformed p = true := by
  match p, hp with
  | b0 :: b1 :: colour :: count :: rest, _ =>
    simp only [malformed, Bool.or_eq_true, decide_eq_true_eq, bne_iff_ne, List.any_eq_true, or_assoc]
    by_cases hlen : (b0 :: b1 :: colour :: count :: rest).length = 4 + 7 * count.toNat
    · refine h.imp id (Or.imp id (Or.imp id ?_))
      rintro ⟨i, hi, hbad⟩
      have hi : i < count.toNat := hi
      obtain ⟨d, hd, hkind, hface⟩ := readDefects_entry (bs := rest) (i := i) (by simp at hlen; omega)
      have e8 : 8 + 7 * i = 4 + 7 * i + 4 := by omega
      have e10 : 10 + 7 * i = 6 + 7 * i + 4 := by omega
      rw [e8, e10] at hbad
      exact ⟨d, hd, by rw [hkind, hface]; exact hbad⟩
    · exact .inr (.inl hlen)

theorem malformed_of_short {p : List Byte} (hp : p.length < 4) : malformed p = true := by
  match p, hp with
  | [], _ | [_], _ | [_, _], _ | [_, _, _], _ => rfl

/-- A scan record's payload as a strip's defects are sent (section 12.6). -/
def scanPayload (tag colour : Nat) (ds : List Defect) : List Byte :=
  be2 tag ++ be1 colour ++ be1 ds.length ++ ds.flatMap Defect.sent

theorem length_flatMap_sent (ds : List Defect) : (ds.flatMap Defect.sent).length = 7 * ds.length := by
  simp [List.length_flatMap, Defect.sent, Nat.mul_comm]

/-- A payload of sendable defects passes check 1 (R34). -/
theorem malformed_scanPayload {tag colour : Nat} {ds : List Defect} (hcolour : colour ≤ 3) (hds : ds.length ≤ 24)
    (h : ∀ d ∈ ds, d.sendable) : malformed (scanPayload tag colour ds) = false := by
  have hcount : ds.length % 256 = ds.length := by omega
  have hc : colour % 256 = colour := by omega
  have hdefects : ∀ d ∈ ds, d.kind ≤ 7 ∧ d.face ≤ 3 := fun d hd => by
    obtain ⟨-, -, hkind, -, hface⟩ := h d hd
    exact ⟨hkind, hface⟩
  have hlen : (scanPayload tag colour ds).length = 4 + 7 * ds.length := by
    simp only [scanPayload, List.length_append, length_be1, length_be2, length_flatMap_sent]
  have hbytes : scanPayload tag colour ds = BitVec.ofNat 8 (tag / 256) :: BitVec.ofNat 8 tag :: BitVec.ofNat 8 colour
      :: BitVec.ofNat 8 ds.length :: ds.flatMap Defect.sent := rfl
  rw [hbytes] at hlen ⊢
  simpa [malformed, hlen, readDefects_flatMap_sent h, hcount, hc, hcolour, hds] using hdefects

/-! ## The checks (R34, R35) -/

theorem sentByte_eq (s : State) {p : List Byte} {i : Nat} (h : i < p.length) : sentByte s p i = p.getD i 0#8 := by
  simp [sentByte, h]

/-- A malformed payload of at least 4 bytes is discarded with its tag and count (R35). -/
theorem takeScanRecord_malformed (s : State) {p : List Byte} (hp : 4 ≤ p.length) (h : malformed p = true) :
    takeScanRecord p s = scanDiscard .malformed ((p.getD 0 0#8).toNat * 256 + (p.getD 1 0#8).toNat)
      (p.getD 3 0#8).toNat s := by
  unfold takeScanRecord
  dsimp only
  rw [if_pos h, if_neg (by omega), sentTag, sentByte_eq s (by omega), sentByte_eq s (by omega), sentByte_eq s (by omega)]
  rfl

/-- A payload under 4 bytes is discarded with a tag and a count of free bytes (log 6). -/
theorem takeScanRecord_short (s : State) {p : List Byte} (hp : p.length < 4) : takeScanRecord p s =
    { scanDiscard .malformed (sentTag s p) (sentByte s p 3).toNat s with free := s.free + 4 } := by
  unfold takeScanRecord
  dsimp only
  rw [if_pos (malformed_of_short hp), if_pos hp]
  rfl

theorem sentTag_lt (s : State) (p : List Byte) : sentTag s p < 65536 := by
  unfold sentTag word2
  omega

/-- What becomes of a sound scan record by the fate of its tag: discarded for the reason found, or attached to the record
found (R35, R36). -/
def afterFate (tag colour : Nat) (ds : List Defect) (s : State) : Except DiscardReason Strip → State
  | .error reason => scanDiscard reason tag ds.length s
  | .ok r => scanAccept r colour ds s

theorem takeScanRecord_scanPayload {tag colour : Nat} {ds : List Defect} (htag : tag < 65536) (hcolour : colour ≤ 3)
    (hds : ds.length ≤ 24) (h : ∀ d ∈ ds, d.sendable) (s : State) :
    takeScanRecord (scanPayload tag colour ds) s = afterFate tag colour ds s (scanFate s tag) := by
  have hsent : sentTag s (scanPayload tag colour ds) = tag := word2_ofNat htag
  have hcount : (sentByte s (scanPayload tag colour ds) 3).toNat = ds.length :=
    (BitVec.toNat_ofNat ds.length 8).trans (Nat.mod_eq_of_lt (by omega))
  have hsentColour : (sentByte s (scanPayload tag colour ds) 2).toNat = colour :=
    (BitVec.toNat_ofNat colour 8).trans (Nat.mod_eq_of_lt (by omega))
  have hdefects : readDefects ((scanPayload tag colour ds).drop 4) = ds := readDefects_flatMap_sent h
  unfold takeScanRecord
  dsimp only
  rw [malformed_scanPayload hcolour hds h, if_neg Bool.false_ne_true, hsent, hcount, hsentColour, hdefects]
  cases scanFate s tag <;> rfl

/-! ## The acceptance (R36, R49) -/

/-- The state with a scan record counted (R184). -/
def State.scanCounted (s : State) : State := s.setLif { s.lif with scanRecords := bump s.lif.scanRecords }

theorem exec_scanRecord (p : List Byte) (s : State) :
    exec (.scanRecord p) s = .next (takeScanRecord p s.scanCounted) := rfl

theorem scanFate_scanCounted (s : State) (tag : Nat) : scanFate s.scanCounted tag = scanFate s tag := rfl

/-- A record with a scan attached (R36). -/
def Strip.scanned (c : Scan) (r : Strip) : Strip := { r with scan := some c }

/-- A record under computation (R48). -/
def Strip.takenUp (r : Strip) : Strip := { r with status := .computing }

theorem scanAccept_eq {s : State} {tag : Nat} {r : Strip} (hr : stripOf s tag = some r) (colour : Nat)
    (ds : List Defect) : scanAccept r colour ds s = takeUp (s.modStrip tag (Strip.scanned (acceptedScan r colour ds))) := by
  rw [← stripOf_tag hr]
  rfl

/-- The record of a tag is the oldest of the tag. -/
theorem stripOf_split {s : State} {tag : Nat} {r : Strip} (h : stripOf s tag = some r) :
    ∃ older younger, s.ltr.strips = older ++ r :: younger ∧ ∀ x ∈ older, x.tag ≠ tag := by
  obtain ⟨-, older, younger, hs, ho⟩ := List.find?_eq_some_iff_append.mp h
  exact ⟨older, younger, hs, fun x hx => by simpa using ho x hx⟩

/-- Where only records of one tag can be eligible, an IDLE engine takes up the oldest of that tag (R48 to R50). -/
theorem takeUp_only {s : State} {tag : Nat} {r : Strip} (he : s.ple.engine = none) (hr : stripOf s tag = some r)
    (hel : r.eligible = true) (hothers : ∀ x ∈ s.ltr.strips, x.tag ≠ tag → x.eligible = false) :
    ∃ c, c.tag = tag ∧ s.copies r c.snapshot
      ∧ takeUp s = (s.setPle { s.ple with engine := some c }).modStrip tag Strip.takenUp := by
  obtain ⟨older, younger, hs, ho⟩ := stripOf_split hr
  have hold : ∀ x ∈ older, x.eligible = false := fun x hx => hothers x (by simp [hs, hx]) (ho x hx)
  obtain ⟨n, hn, ht⟩ := (takesUp_takeUp s he).2 older younger r hs hold hel
  rw [stripOf_tag hr] at ht
  exact ⟨⟨tag, n⟩, rfl, hn, ht.trans (State.eq_of_blocks (by simp [State.modStrip, Strip.takenUp]))⟩

/-- The state with a scan record attached to the record r of a tag (R36). -/
def State.withScanAttached (s : State) (tag : Nat) (r : Strip) (colour : Nat) (ds : List Defect) : State :=
  s.scanCounted.modStrip tag (Strip.scanned (acceptedScan r colour ds))

/-- It differs in the count and in the record, whose defects are after the second stage where the length is present. -/
theorem withScanAttached_eq (s : State) (tag : Nat) (r : Strip) (colour : Nat) (ds : List Defect) :
    s.withScanAttached tag r colour ds = { s with
      lif := { s.lif with scanRecords := min (s.lif.scanRecords + 1) 65535 }
      ltr := { s.ltr with strips := s.ltr.strips.map (fun x => if x.tag = tag then
        { x with
          scan := some
            { colour := colour
              defects := match r.length with
                | none => firstStage ds
                | some l => secondStage l (firstStage ds) } } else x) } } := by
  refine State.eq_of_blocks ?_
  cases hl : r.length <;>
    simp [State.withScanAttached, State.modStrip, State.scanCounted, Strip.scanned, acceptedScan, bump, hl]

theorem stripOf_withScanAttached {s : State} {tag : Nat} {r : Strip} (hr : stripOf s tag = some r) (colour : Nat)
    (ds : List Defect) :
    stripOf (s.withScanAttached tag r colour ds) tag = some (r.scanned (acceptedScan r colour ds)) :=
  (stripOf_modStrip s.scanCounted tag (Strip.scanned _) fun _ => rfl).trans (congrArg _ hr)

/-- A record of no scan whose deadline is not delivered takes a sound scan record (R34, R36). -/
theorem exec_scanRecord_accepted {s : State} {tag colour : Nat} {ds : List Defect} {r : Strip} (htag : tag < 65536)
    (hcolour : colour ≤ 3) (hds : ds.length ≤ 24) (h : ∀ d ∈ ds, d.sendable) (hr : stripOf s tag = some r)
    (hscan : r.scan = none) (hdue : r.deadlineDone = false) :
    exec (.scanRecord (scanPayload tag colour ds)) s = .next (takeUp (s.withScanAttached tag r colour ds)) := by
  have hfate : scanFate s tag = .ok r := by simp [scanFate, hr, hscan, hdue]
  rw [exec_scanRecord, takeScanRecord_scanPayload htag hcolour hds h, scanFate_scanCounted, hfate]
  exact next_congr (scanAccept_eq (s := s.scanCounted) hr colour ds)

/-- With its length present the record is eligible, and the IDLE engine takes it up where no other is (R49). -/
theorem takeUp_withScanAttached {s : State} {tag colour l : Nat} {ds : List Defect} {r : Strip}
    (hr : stripOf s tag = some r) (he : s.ple.engine = none) (hl : r.length = some l) (hp : r.status = .pending)
    (hothers : ∀ x ∈ s.ltr.strips, x.tag ≠ tag → x.eligible = false) :
    ∃ c, c.tag = tag ∧ (s.withScanAttached tag r colour ds).copies (r.scanned (acceptedScan r colour ds)) c.snapshot
      ∧ takeUp (s.withScanAttached tag r colour ds)
        = ((s.withScanAttached tag r colour ds).setPle { s.ple with engine := some c }).modStrip tag Strip.takenUp := by
  refine takeUp_only he (stripOf_withScanAttached hr colour ds) ?_ ?_
  · simp [Strip.eligible, Strip.scanned, hl, hp]
  · intro x hx hne
    obtain ⟨y, hy, rfl⟩ := List.mem_map.mp hx
    by_cases hyt : y.tag = tag
    · exact absurd (by simp [hyt, Strip.scanned]) hne
    · simpa [hyt] using hothers y hy hyt

/-- Settles O25: the discards in their order, then the three acceptances. -/
theorem scanRecordsAreCheckedAndAttached : Obligations.ScanRecordsAreCheckedAndAttached := by
  intro s
  refine ⟨fun p hp hbad => ?_, fun p hp => ⟨sentTag s.scanCounted p,
    (sentByte s.scanCounted p 3).toNat, sentTag_lt s.scanCounted p, BitVec.isLt _, ?_⟩,
    fun tag colour ds htag hcolour hds h => ?_⟩
  · exact next_congr (takeScanRecord_malformed s.scanCounted hp (malformed_of_check hp hbad))
  · exact next_congr (takeScanRecord_short s.scanCounted hp)
  have refused : ∀ reason, scanFate s tag = .error reason →
      exec (.scanRecord (scanPayload tag colour ds)) s = .next (scanDiscard reason tag ds.length s.scanCounted) :=
    fun reason hfate => by
      rw [exec_scanRecord, takeScanRecord_scanPayload htag hcolour hds h, scanFate_scanCounted, hfate]
      rfl
  refine ⟨fun hr => ?_, fun r hr hscan => ?_, fun r hr hscan hdue => ?_, fun r hr hscan hdue hbusy => ?_,
    fun r hr hscan hdue hidle => ?_, fun r l hr hscan hdue hidle hl hp hothers => ?_⟩
  · exact refused .unknownTag (by simp [scanFate, hr])
  · exact refused .duplicate (by simp [scanFate, hr, hscan])
  · exact refused .late (by simp [scanFate, hr, hscan, hdue])
  · refine (exec_scanRecord_accepted htag hcolour hds h hr hscan hdue).trans (next_congr ?_)
    refine (takeUp_busy (s.withScanAttached tag r colour ds) hbusy).trans ?_
    exact withScanAttached_eq s tag r colour ds
  · exact ⟨_, s.withScanAttached tag r colour ds, exec_scanRecord_accepted htag hcolour hds h hr hscan hdue,
      withScanAttached_eq s tag r colour ds, takesUp_takeUp (s.withScanAttached tag r colour ds) hidle⟩
  · obtain ⟨c, hc, hcopies, ht⟩ := takeUp_withScanAttached (colour := colour) (ds := ds) hr hidle hl hp hothers
    obtain ⟨hgauge, -, hvalues, -⟩ := hcopies
    refine ⟨_, c, exec_scanRecord_accepted htag hcolour hds h hr hscan hdue, ?_, hc, hgauge, hvalues, ?_⟩
    · rw [ht]
      rfl
    · rw [ht]
      refine ((stripOf_modStrip ((s.withScanAttached tag r colour ds).setPle _) tag Strip.takenUp fun _ => rfl).trans
        (congrArg _ (stripOf_withScanAttached hr colour ds))).trans ?_
      simp [Strip.takenUp, Strip.scanned, acceptedScan, hl]

end Sys2Proof.Machine
end

section
/-! PROOFS. Sets of pieces on the boundaries, and the best records of the selection as the best of them (O29). -/

namespace Sys2Proof.Machine

open Sys2Proof

/-! ## Boundaries (R54) -/

/-- The multiples of 5 before and after a defect (R54 step 1). -/
theorem mem_defectPoints (k : Nat) (d : Defect) (p : Nat) : p ∈ defectPoints k d ↔
    5 ∣ p ∧ ((p ≤ d.start ∧ d.start < p + 5)
      ∨ ∃ m, m = max (d.start + d.extent) (5 * (d.start / 5) + k) ∧ m ≤ p ∧ p < m + 5) := by
  simp only [defectPoints, List.mem_cons, List.not_mem_nil, or_false, exists_eq_left]
  omega

theorem pointed_iff (n : Snapshot) (l : Nat) (ds : List Defect) (p : Nat) : n.pointed l ds p ↔
    p = n.endTrim ∨ p = l - n.endTrim ∨ (∃ d ∈ ds, p ∈ defectPoints n.allowance d)
      ∨ n.lmaxUsed < l - 2 * n.endTrim ∧ (p = n.endTrim + n.lmaxUsed ∨ p = l - n.endTrim - n.lmaxUsed) := by
  simp only [Snapshot.pointed, mem_defectPoints]

/-- A point held within the usable region, in the words of R54 step 3. -/
theorem clamp_eq {n : Snapshot} {l : Nat} (h : 2 * n.endTrim ≤ l) (p : Nat) :
    min (l - n.endTrim) (max n.endTrim p)
      = if p < n.endTrim then n.endTrim else if l - n.endTrim < p then l - n.endTrim else p := by
  split_ifs <;> omega

theorem mem_boundaries_iff_pointed {n : Snapshot} {l : Nat} (h : 2 * n.endTrim ≤ l) (ds : List Defect) (x : Nat) :
    x ∈ boundaries n l ds ↔ ∃ p, n.pointed l ds p
      ∧ x = if p < n.endTrim then n.endTrim else if l - n.endTrim < p then l - n.endTrim else p := by
  simp only [mem_boundaries, pointed_iff, clamp_eq h, and_comm]

/-- Every boundary lies within the usable region. -/
theorem boundaries_usable {n : Snapshot} {l : Nat} (h : 2 * n.endTrim ≤ l) {ds : List Defect} {x : Nat}
    (hx : x ∈ boundaries n l ds) : n.endTrim ≤ x ∧ x + n.endTrim ≤ l := by
  obtain ⟨p, rfl, -⟩ := (mem_boundaries n l ds x).mp hx
  omega

/-- Ascending boundaries: the lower has the lower index. -/
theorem index_le_of_le {bs : List Nat} (hb : bs.Pairwise (· < ·)) {i j x y : Nat} (hi : bs[i]? = some x)
    (hj : bs[j]? = some y) (h : x ≤ y) : i ≤ j := by
  obtain ⟨hil, rfl⟩ := List.getElem?_eq_some_iff.mp hi
  obtain ⟨hjl, rfl⟩ := List.getElem?_eq_some_iff.mp hj
  by_contra hlt
  exact absurd (List.pairwise_iff_getElem.mp hb j i hjl hil (by omega)) (by omega)

/-- Ascending boundaries: the higher index has the higher boundary. -/
theorem le_of_index_le {bs : List Nat} (hb : bs.Pairwise (· < ·)) {i j x y : Nat} (hi : bs[i]? = some x)
    (hj : bs[j]? = some y) (h : i ≤ j) : x ≤ y := by
  by_contra hlt
  have : j = i := le_antisymm (index_le_of_le hb hj hi (by omega)) h
  subst this
  rw [hi] at hj
  cases hj
  omega

theorem getD_of_getElem? {bs : List Nat} {i x : Nat} (h : bs[i]? = some x) : bs.getD i 0 = x := by
  simp [List.getD_eq_getElem?_getD, h]

/-! ## Records (R57, R58) -/

/-- The record of a list of pieces, first piece first. -/
def recordOf (ps : List PlannedPiece) : Best :=
  { value := (ps.map (·.value)).sum, count := ps.length, length := (ps.map (·.net)).sum, pieces := ps.reverse }

theorem recordOf_append (ps : List PlannedPiece) (p : PlannedPiece) :
    recordOf (ps ++ [p]) = (recordOf ps).add p := by
  simp [recordOf, Best.add]

theorem not_over_self (a : Best) : ¬ a.over a := by
  unfold Best.over; omega

theorem not_over_of_over {a b : Best} (h : a.over b) : ¬ b.over a := by
  unfold Best.over at *; omega

/-- What it is for one record not to be better than another. -/
theorem not_over_iff (a b : Best) : ¬ a.over b ↔ a.value ≤ b.value
    ∧ (a.value = b.value → b.count ≤ a.count ∧ (a.count = b.count → a.length ≤ b.length)) := by
  unfold Best.over; omega

/-- The order of records is kept when the same piece is added to both. -/
theorem not_add_over_add {a b : Best} (h : ¬ a.over b) (p : PlannedPiece) : ¬ (a.add p).over (b.add p) := by
  simp only [Best.over, Best.add] at *; omega

/-- A piece of value 0 makes no record better (R58). -/
theorem not_add_over_self (b : Best) {p : PlannedPiece} (h : p.value = 0) : ¬ (b.add p).over b := by
  simp only [Best.over, Best.add]; omega

/-! ## Sets of pieces (R55, R57) -/

/-- A piece that is an admissible candidate of the boundaries. -/
def OnBoundaries (e : Ple) (n : Snapshot) (ds : List Defect) (bs : List Nat) (p : PlannedPiece) : Prop :=
  ∃ (i j bi bj : Nat), i < j ∧ bs[i]? = some bi ∧ bs[j]? = some bj ∧ candidate e n ds bi bj = some p

/-- Pieces on the boundaries, each at least K after the one before. -/
structure PieceSet (e : Ple) (n : Snapshot) (ds : List Defect) (bs : List Nat) (ps : List PlannedPiece) : Prop where
  onBoundaries : ∀ p ∈ ps, OnBoundaries e n ds bs p
  spaced : ps.Pairwise (fun a b => a.stop + n.allowance ≤ b.start)

theorem candidate_ends {e : Ple} {n : Snapshot} {ds : List Defect} {p q : Nat} {x : PlannedPiece}
    (h : candidate e n ds p q = some x) : x.start = p ∧ x.stop = q := by
  obtain ⟨-, -, -, -, hx⟩ := (candidate_eq_some e n ds p q x).mp h
  rw [hx]
  exact ⟨rfl, rfl⟩

section
variable {e : Ple} {n : Snapshot} {ds : List Defect} {bs : List Nat}

theorem OnBoundaries.stop_mem {p : PlannedPiece} (h : OnBoundaries e n ds bs p) : ∃ j : Nat, bs[j]? = some p.stop := by
  obtain ⟨_, j, _, _, -, -, hj, hp⟩ := h
  exact ⟨j, by rw [hj, (candidate_ends hp).2]⟩

/-- A piece on ascending boundaries has a length above 0. -/
theorem OnBoundaries.start_lt_stop (hb : bs.Pairwise (· < ·)) {p : PlannedPiece} (h : OnBoundaries e n ds bs p) :
    p.start < p.stop := by
  obtain ⟨i, j, bi, bj, hij, hi, hj, hp⟩ := h
  obtain ⟨hstart, hstop⟩ := candidate_ends hp
  by_contra hle
  have := index_le_of_le hb hj hi (by omega)
  omega

theorem PieceSet.ascending (hb : bs.Pairwise (· < ·)) {ps : List PlannedPiece} (h : PieceSet e n ds bs ps) :
    ps.Pairwise (fun a b => a.start < b.start) := by
  refine h.spaced.imp_of_mem fun {a b} ha _ hab => ?_
  have := (h.onBoundaries a ha).start_lt_stop hb
  omega

/-- A set with a last piece: the set before it, and its distance from each of those pieces. -/
theorem pieceSet_append {ps : List PlannedPiece} {p : PlannedPiece} : PieceSet e n ds bs (ps ++ [p]) ↔
    PieceSet e n ds bs ps ∧ OnBoundaries e n ds bs p ∧ ∀ q ∈ ps, q.stop + n.allowance ≤ p.start := by
  constructor
  · rintro ⟨hon, hsp⟩
    obtain ⟨hps, -, hlast⟩ := List.pairwise_append.mp hsp
    exact ⟨⟨fun q hq => hon q (by simp [hq]), hps⟩, hon p (by simp), fun q hq => hlast q hq p (by simp)⟩
  · rintro ⟨⟨hon, hsp⟩, hp, hlast⟩
    refine ⟨fun q hq => ?_, List.pairwise_append.mpr ⟨hsp, List.pairwise_singleton _ _, fun q hq p' hp' => ?_⟩⟩
    · rcases List.mem_append.mp hq with hq | hq
      · exact hon q hq
      · rwa [List.mem_singleton.mp hq]
    · rw [List.mem_singleton.mp hp']
      exact hlast q hq

end

/-! ## The predecessor (R57) -/

/-- G(i) is the best record of the last boundary that leaves K before b_i, or empty where none does. -/
theorem predecessor_cases {bs : List Nat} {F : List Best} (hF : F.length = bs.length) (k bi : Nat) :
    (predecessor k bs F bi = Best.none ∧ ∀ bh ∈ bs, bi < bh + k)
      ∨ ∃ (h bh : Nat), bs[h]? = some bh ∧ bh + k ≤ bi ∧ F[h]? = some (predecessor k bs F bi)
        ∧ ∀ (h' bh' : Nat), bs[h']? = some bh' → bh' + k ≤ bi → h' ≤ h := by
  unfold predecessor
  obtain ⟨hsome, hnone⟩ := getLast?_filter_range bs.length (fun h => decide (bs.getD h 0 + k ≤ bi))
  cases hl : ((List.range bs.length).filter (fun h => decide (bs.getD h 0 + k ≤ bi))).getLast? with
  | none =>
    refine .inl ⟨rfl, fun bh hbh => ?_⟩
    obtain ⟨h, hh⟩ := List.mem_iff_getElem?.mp hbh
    have := hnone.mp hl h (List.getElem?_eq_some_iff.mp hh).1
    rw [getD_of_getElem? hh] at this
    simpa using this
  | some h =>
    obtain ⟨hlt, hle, hmax⟩ := (hsome h).mp hl
    refine .inr ⟨h, bs.getD h 0, getElem?_eq_getD bs h hlt, of_decide_eq_true hle, ?_, fun h' bh' hh' hle' => ?_⟩
    · simp [List.getD_eq_getElem?_getD, show h < F.length by omega]
    · by_contra hgt
      have := hmax h' (by omega) (List.getElem?_eq_some_iff.mp hh').1
      rw [getD_of_getElem? hh'] at this
      exact of_decide_eq_false this hle'

/-! ## The best records (R57, R58) -/

section
variable {e : Ple} {n : Snapshot} {ds : List Defect} {bs : List Nat}

theorem lt_length_of_bests {j : Nat} {f : Best} (hne : bs ≠ []) (hf : (bests e n ds bs)[j]? = some f) :
    j < bs.length := by
  rw [← bests_length e n ds bs hne]
  exact (List.getElem?_eq_some_iff.mp hf).1

theorem exists_bests (hne : bs ≠ []) {j : Nat} (hj : j < bs.length) : ∃ f, (bests e n ds bs)[j]? = some f :=
  ⟨_, List.getElem?_eq_getElem (by rwa [bests_length e n ds bs hne])⟩

/-- F(j + 1) is F(j), or better than it and a predecessor with an admissible candidate added. -/
theorem bests_succ_cases (hb : bs.Pairwise (· < ·)) (hne : bs ≠ []) {j : Nat} {f : Best}
    (hf : (bests e n ds bs)[j + 1]? = some f) :
    (bests e n ds bs)[j]? = some f
      ∨ ∃ i skip p, i ≤ j ∧ (bests e n ds bs)[j]? = some skip ∧ f.over skip
        ∧ candidate e n ds (bs.getD i 0) (bs.getD (j + 1) 0) = some p
        ∧ f = (predecessor n.allowance bs (bests e n ds bs) (bs.getD i 0)).add p := by
  have hj := lt_length_of_bests hne hf
  rcases bestRecord_bests e n ds bs hb hne (j + 1) f (by omega) hf with ⟨hskip, -⟩ | ⟨i, skip, hi, hskip, hw, hover, -⟩
  · exact .inl hskip
  · obtain ⟨p, hp, hfp⟩ :=
      (worth_iff e n ds bs _ i (j + 1) f (bests_length e n ds bs hne) (by omega) hj).mp hw
    exact .inr ⟨i, skip, p, by omega, hskip, hover, hp, hfp⟩

/-- No predecessor with an admissible candidate added is better than the best record of the candidate's end. -/
theorem not_candidate_over_bests (hb : bs.Pairwise (· < ·)) (hne : bs ≠ []) {i j : Nat} {f : Best}
    {p : PlannedPiece} (hij : i < j) (hf : (bests e n ds bs)[j]? = some f)
    (hp : candidate e n ds (bs.getD i 0) (bs.getD j 0) = some p) :
    ¬ ((predecessor n.allowance bs (bests e n ds bs) (bs.getD i 0)).add p).over f := by
  have hj := lt_length_of_bests hne hf
  have hworth := fun c => worth_iff e n ds bs _ i j c (bests_length e n ds bs hne) (hij.trans hj) hj
  have hw := (hworth _).mpr ⟨p, hp, rfl⟩
  rcases bestRecord_bests e n ds bs hb hne j f (by omega) hf with ⟨-, hno⟩ | ⟨i', _, -, -, hw', -, hbefore, hafter⟩
  · exact hno i _ hij hw
  · rcases Nat.lt_trichotomy i i' with hlt | rfl | hgt
    · exact not_over_of_over (hbefore i _ hlt hw)
    · obtain ⟨p', hp', rfl⟩ := (hworth f).mp hw'
      cases hp.symm.trans hp'
      exact not_over_self _
    · exact hafter i _ hgt hij hw

/-- No best record is better than a later one. -/
theorem not_earlier_over_bests (hb : bs.Pairwise (· < ·)) (hne : bs ≠ []) {h j : Nat} {a b : Best} (hhj : h ≤ j)
    (ha : (bests e n ds bs)[h]? = some a) (hbest : (bests e n ds bs)[j]? = some b) : ¬ a.over b := by
  induction j, hhj using Nat.le_induction generalizing b with
  | base =>
    cases ha.symm.trans hbest
    exact not_over_self _
  | succ j hhj ih =>
    rcases bests_succ_cases hb hne hbest with hskip | ⟨_, skip, _, -, hskip, hover, -, -⟩
    · exact ih hskip
    · exact not_over_trans _ _ _ (ih hskip) (not_over_of_over hover)

/-- A predecessor is no better than the best record of any boundary from its own on. -/
theorem not_predecessor_over_bests (hb : bs.Pairwise (· < ·)) (hne : bs ≠ []) {i j : Nat} {f : Best} (hij : i ≤ j)
    (hf : (bests e n ds bs)[j]? = some f) :
    ¬ (predecessor n.allowance bs (bests e n ds bs) (bs.getD i 0)).over f := by
  have hj := lt_length_of_bests hne hf
  rcases predecessor_cases (bests_length e n ds bs hne) n.allowance (bs.getD i 0)
    with ⟨hG, -⟩ | ⟨h, bh, hbh, hle, hG, -⟩
  · rw [hG]
    exact not_earlier_over_bests hb hne (Nat.zero_le j) (bests_zero e n ds bs hne) hf
  · have hhi : h ≤ i := index_le_of_le hb hbh (getElem?_eq_getD bs i (by omega)) (by omega)
    exact not_earlier_over_bests hb hne (hhi.trans hij) hG hf

end

/-! ## What a best record holds (R57, R59, log 22) -/

/-- A record that holds the figures of a set of pieces within a boundary, each worth more than 0. -/
structure Traced (e : Ple) (n : Snapshot) (ds : List Defect) (bs : List Nat) (x : Nat) (f : Best) : Prop where
  record : f = recordOf f.pieces.reverse
  pieceSet : PieceSet e n ds bs f.pieces.reverse
  ends : ∀ p ∈ f.pieces, p.stop ≤ x
  worthy : ∀ p ∈ f.pieces, 0 < p.value

section
variable {e : Ple} {n : Snapshot} {ds : List Defect} {bs : List Nat}

theorem traced_none (x : Nat) : Traced e n ds bs x Best.none :=
  ⟨rfl, ⟨by simp [Best.none], by simp [Best.none]⟩, by simp [Best.none], by simp [Best.none]⟩

theorem Traced.mono {x y : Nat} {f : Best} (h : Traced e n ds bs x f) (hxy : x ≤ y) : Traced e n ds bs y f :=
  ⟨h.record, h.pieceSet, fun p hp => (h.ends p hp).trans hxy, h.worthy⟩

/-- A piece worth more than 0 that leaves K to the record's pieces joins them. -/
theorem Traced.add (hb : bs.Pairwise (· < ·)) {x : Nat} {g : Best} {p : PlannedPiece} (h : Traced e n ds bs x g)
    (hp : OnBoundaries e n ds bs p) (hv : 0 < p.value) (hafter : ∀ q ∈ g.pieces, q.stop + n.allowance ≤ p.start) :
    Traced e n ds bs p.stop (g.add p) := by
  have hpieces : (g.add p).pieces.reverse = g.pieces.reverse ++ [p] := by simp [Best.add]
  have hlt := hp.start_lt_stop hb
  refine ⟨?_, ?_, fun q hq => ?_, fun q hq => ?_⟩
  · rw [hpieces, recordOf_append, ← h.record]
  · rw [hpieces]
    exact pieceSet_append.mpr ⟨h.pieceSet, hp, fun q hq => hafter q (List.mem_reverse.mp hq)⟩
  · rcases List.mem_cons.mp hq with rfl | hq
    · exact le_rfl
    · have := hafter q hq; omega
  · rcases List.mem_cons.mp hq with rfl | hq
    · exact hv
    · exact h.worthy q hq

/-- The predecessor of a boundary holds a set of pieces that leaves K before the boundary, where the best records
before it do. -/
theorem traced_predecessor (hb : bs.Pairwise (· < ·)) (hne : bs ≠ []) {i : Nat} (hi : i < bs.length)
    (hprev : ∀ (h x : Nat) (f : Best), h ≤ i → bs[h]? = some x → (bests e n ds bs)[h]? = some f →
      Traced e n ds bs x f) :
    ∃ x, Traced e n ds bs x (predecessor n.allowance bs (bests e n ds bs) (bs.getD i 0))
      ∧ ∀ q ∈ (predecessor n.allowance bs (bests e n ds bs) (bs.getD i 0)).pieces,
          q.stop + n.allowance ≤ bs.getD i 0 := by
  rcases predecessor_cases (bests_length e n ds bs hne) n.allowance (bs.getD i 0)
    with ⟨hG, -⟩ | ⟨h, bh, hbh, hle, hG, -⟩
  · rw [hG]
    exact ⟨0, traced_none 0, by simp [Best.none]⟩
  · have hT := hprev h bh _ (index_le_of_le hb hbh (getElem?_eq_getD bs i hi) (by omega)) hbh hG
    refine ⟨bh, hT, fun q hq => ?_⟩
    have := hT.ends q hq
    omega

/-- Every best record holds a set of pieces within its boundary, with their figures; none is worth 0, since adding one
would make no record better than SKIP (R58). -/
theorem traced_bests (hb : bs.Pairwise (· < ·)) (hne : bs ≠ []) (j x : Nat) (f : Best) (hx : bs[j]? = some x)
    (hf : (bests e n ds bs)[j]? = some f) : Traced e n ds bs x f := by
  induction j using Nat.strong_induction_on generalizing x f with
  | _ j ih =>
    cases j with
    | zero =>
      cases (bests_zero e n ds bs hne).symm.trans hf
      exact traced_none x
    | succ j =>
      have hj := lt_length_of_bests hne hf
      rcases bests_succ_cases hb hne hf with hskip | ⟨i, skip, p, hij, hskip, hover, hp, rfl⟩
      · have hxj := getElem?_eq_getD bs j (by omega)
        exact (ih j (by omega) _ f hxj hskip).mono (le_of_index_le hb hxj hx (by omega))
      · obtain ⟨y, hT, hafter⟩ := traced_predecessor (e := e) (n := n) (ds := ds) hb hne (i := i) (by omega)
          (fun h x f hhi => ih h (by omega) x f)
        have hv : 0 < p.value := by
          by_contra hv
          exact not_over_trans _ _ _ (not_add_over_self _ (by omega))
            (not_predecessor_over_bests hb hne hij hskip) hover
        obtain ⟨hstart, hstop⟩ := candidate_ends hp
        rw [getD_of_getElem? hx] at hp hstop
        rw [← hstop]
        refine hT.add hb ⟨i, j + 1, _, x, by omega, getElem?_eq_getD bs i (by omega), hx, hp⟩ hv ?_
        rwa [hstart]

/-- No set of pieces within a boundary is better than the boundary's best record: the pieces before its last are no
better than the last one's predecessor, and adding the last keeps that so (R57). -/
theorem not_pieceSet_over_bests (hb : bs.Pairwise (· < ·)) (hne : bs ≠ []) {ps : List PlannedPiece} {j x : Nat}
    {f : Best} (hps : PieceSet e n ds bs ps) (hends : ∀ p ∈ ps, p.stop ≤ x) (hx : bs[j]? = some x)
    (hf : (bests e n ds bs)[j]? = some f) : ¬ (recordOf ps).over f := by
  induction ps using List.reverseRecOn generalizing j x f with
  | nil => exact not_earlier_over_bests hb hne (Nat.zero_le j) (bests_zero e n ds bs hne) hf
  | append_singleton qs p ih =>
    obtain ⟨hqs, ⟨i, k, bi, bk, hik, hi, hk, hp⟩, hafter⟩ := pieceSet_append.mp hps
    obtain ⟨hstart, hstop⟩ := candidate_ends hp
    have hkj : k ≤ j := index_le_of_le hb hk hx (hstop ▸ hends p (by simp))
    obtain ⟨f', hf'⟩ := exists_bests (e := e) (n := n) (ds := ds) hne (List.getElem?_eq_some_iff.mp hk).1
    have hG : ¬ (recordOf qs).over (predecessor n.allowance bs (bests e n ds bs) bi) := by
      rcases predecessor_cases (bests_length e n ds bs hne) n.allowance bi with ⟨hG, hno⟩ | ⟨h, bh, hbh, -, hG, hmax⟩
      · have hnil : qs = [] := List.eq_nil_iff_forall_not_mem.mpr fun q hq => by
          obtain ⟨m, hm⟩ := (hqs.onBoundaries q hq).stop_mem
          have h1 := hno q.stop (List.mem_of_getElem? hm)
          have h2 := hafter q hq
          omega
        rw [hG, hnil]
        exact not_over_self _
      · refine ih hqs (fun q hq => ?_) hbh hG
        obtain ⟨m, hm⟩ := (hqs.onBoundaries q hq).stop_mem
        exact le_of_index_le hb hm hbh (hmax m _ hm (by have := hafter q hq; omega))
    rw [recordOf_append]
    refine not_over_trans _ _ _ (not_add_over_add hG p) (not_over_trans _ _ _ ?_
      (not_earlier_over_bests hb hne hkj hf' hf))
    have := not_candidate_over_bests hb hne hik hf' (by rwa [getD_of_getElem? hi, getD_of_getElem? hk])
    rwa [getD_of_getElem? hi] at this

end

end Sys2Proof.Machine
end

section
/-! PROOFS. The plan as the cut to eight of the last best record (O29). -/

namespace Sys2Proof.Machine

open Sys2Proof

/-! ## The last best record -/

/-- F(N − 1), the record that is traced to the plan (R59). -/
def lastBest (e : Ple) (n : Snapshot) (l : Nat) (ds : List Defect) : Best :=
  (bests e n ds (boundaries n l ds)).getLast?.getD Best.none

section
variable (e : Ple) (n : Snapshot) (l : Nat) (ds : List Defect)

/-- The last boundary has the last best record, and no boundary lies beyond it. -/
theorem lastBest_spec : ∃ (j x : Nat), (boundaries n l ds)[j]? = some x ∧ (∀ y ∈ boundaries n l ds, y ≤ x)
    ∧ (bests e n ds (boundaries n l ds))[j]? = some (lastBest e n l ds)
    ∧ (bests e n ds (boundaries n l ds)).getLast? = some (lastBest e n l ds) := by
  have hne := boundaries_ne_nil n l ds
  have hlen := bests_length e n ds _ hne
  have hpos := List.length_pos_iff.mpr hne
  have hlast := getElem?_eq_getD (boundaries n l ds) ((boundaries n l ds).length - 1) (by omega)
  obtain ⟨f, hf⟩ := exists_bests (e := e) (n := n) (ds := ds) hne
    (show (boundaries n l ds).length - 1 < (boundaries n l ds).length by omega)
  have hgl : (bests e n ds (boundaries n l ds)).getLast? = some f := by
    rw [List.getLast?_eq_getElem?, hlen, hf]
  have hbest : lastBest e n l ds = f := by simp [lastBest, hgl]
  refine ⟨_, _, hlast, fun y hy => ?_, hbest ▸ hf, hbest ▸ hgl⟩
  obtain ⟨i, hi⟩ := List.mem_iff_getElem?.mp hy
  have hil := (List.getElem?_eq_some_iff.mp hi).1
  exact le_of_index_le (boundaries_ascending n l ds) hi hlast (by omega)

theorem getLast?_bests_boundaries :
    (bests e n ds (boundaries n l ds)).getLast? = some (lastBest e n l ds) := by
  obtain ⟨_, _, -, -, -, hgl⟩ := lastBest_spec e n l ds
  exact hgl

/-- The last best record holds a set of pieces, with their figures. -/
theorem traced_lastBest : ∃ x, Traced e n ds (boundaries n l ds) x (lastBest e n l ds) := by
  obtain ⟨j, x, hx, -, hf, -⟩ := lastBest_spec e n l ds
  exact ⟨x, traced_bests (boundaries_ascending n l ds) (boundaries_ne_nil n l ds) j x _ hx hf⟩

theorem pieceSet_lastBest : PieceSet e n ds (boundaries n l ds) (lastBest e n l ds).pieces.reverse := by
  obtain ⟨_, hT⟩ := traced_lastBest e n l ds
  exact hT.pieceSet

theorem ascending_lastBest : (lastBest e n l ds).pieces.reverse.Pairwise (fun a b => a.start < b.start) :=
  (pieceSet_lastBest e n l ds).ascending (boundaries_ascending n l ds)

/-- Its figures are those of its own pieces. -/
theorem lastBest_figures :
    ((lastBest e n l ds).pieces.map (·.value)).sum = (lastBest e n l ds).value
      ∧ (lastBest e n l ds).pieces.length = (lastBest e n l ds).count
      ∧ ((lastBest e n l ds).pieces.map (·.net)).sum = (lastBest e n l ds).length := by
  obtain ⟨_, hT⟩ := traced_lastBest e n l ds
  refine ⟨?_, ?_, ?_⟩
  · have := congrArg Best.value hT.record
    simpa [recordOf, List.map_reverse, List.sum_reverse] using this.symm
  · have := congrArg Best.count hT.record
    simpa [recordOf] using this.symm
  · have := congrArg Best.length hT.record
    simpa [recordOf, List.map_reverse, List.sum_reverse] using this.symm

/-- No set of pieces is better than the last best record. -/
theorem not_pieceSet_over_lastBest {ps : List PlannedPiece} (hps : PieceSet e n ds (boundaries n l ds) ps) :
    ¬ (recordOf ps).over (lastBest e n l ds) := by
  obtain ⟨j, x, hx, hmax, hf, -⟩ := lastBest_spec e n l ds
  refine not_pieceSet_over_bests (boundaries_ascending n l ds) (boundaries_ne_nil n l ds) hps (fun p hp => ?_) hx hf
  obtain ⟨m, hm⟩ := (hps.onBoundaries p hp).stop_mem
  exact hmax _ (List.mem_of_getElem? hm)

/-! ## The plan (R51, R59) -/

/-- The plan of a strip too short, or with no admissible length, is empty (R51). -/
theorem selectPlan_outside (h : n.lmaxUsed < n.lminUsed ∨ l - 2 * n.endTrim < n.lminUsed) :
    selectPlan e n l ds = [] := by
  unfold selectPlan
  exact if_pos (by simpa using h)

/-- Else it is the cut to eight of the last best record's pieces (R59). -/
theorem selectPlan_inside (h : n.lminUsed ≤ n.lmaxUsed) (h' : n.lminUsed ≤ l - 2 * n.endTrim) :
    selectPlan e n l ds = keepEight (lastBest e n l ds).pieces.reverse := by
  unfold selectPlan
  exact if_neg (by simp [h, h'])

/-- The plan's pieces are pieces of the last best record, in their order. -/
theorem selectPlan_sublist : (selectPlan e n l ds).Sublist (lastBest e n l ds).pieces.reverse := by
  by_cases h : n.lmaxUsed < n.lminUsed ∨ l - 2 * n.endTrim < n.lminUsed
  · rw [selectPlan_outside e n l ds h]
    exact List.nil_sublist _
  · rw [selectPlan_inside e n l ds (by omega) (by omega)]
    exact List.filter_sublist

theorem selectPlan_all (h : n.lminUsed ≤ n.lmaxUsed) (h' : n.lminUsed ≤ l - 2 * n.endTrim)
    (h8 : (lastBest e n l ds).pieces.length ≤ 8) : selectPlan e n l ds = (lastBest e n l ds).pieces.reverse := by
  rw [selectPlan_inside e n l ds h h']
  exact (keepEight_spec _ (ascending_lastBest e n l ds)).1 (by simpa using h8)

/-- Of more than eight pieces eight are kept, each of higher value than one dropped, or of equal value and lower
start (R59). -/
theorem selectPlan_eight (h : n.lminUsed ≤ n.lmaxUsed) (h' : n.lminUsed ≤ l - 2 * n.endTrim)
    (h8 : 8 < (lastBest e n l ds).pieces.length) :
    (selectPlan e n l ds).length = 8 ∧ (selectPlan e n l ds).Sublist (lastBest e n l ds).pieces.reverse
      ∧ ∀ a ∈ selectPlan e n l ds, ∀ b ∈ (lastBest e n l ds).pieces, b ∉ selectPlan e n l ds →
        b.value < a.value ∨ (b.value = a.value ∧ a.start < b.start) := by
  rw [selectPlan_inside e n l ds h h']
  obtain ⟨hlen, hsub, hkept⟩ := (keepEight_spec _ (ascending_lastBest e n l ds)).2 (by simpa using h8)
  exact ⟨hlen, hsub, fun a ha b hb => hkept a ha b (List.mem_reverse.mpr hb)⟩

theorem selectPlan_length_le : (selectPlan e n l ds).length ≤ 8 := by
  by_cases h : n.lmaxUsed < n.lminUsed ∨ l - 2 * n.endTrim < n.lminUsed
  · simp [selectPlan_outside e n l ds h]
  · rcases Nat.lt_or_ge 8 (lastBest e n l ds).pieces.length with h8 | h8
    · obtain ⟨hlen, -⟩ := selectPlan_eight e n l ds (by omega) (by omega) h8
      omega
    · rw [selectPlan_all e n l ds (by omega) (by omega) h8, List.length_reverse]
      exact h8

theorem selectPlan_eq_nil_iff : selectPlan e n l ds = [] ↔
    n.lmaxUsed < n.lminUsed ∨ l - 2 * n.endTrim < n.lminUsed ∨ (lastBest e n l ds).pieces = [] := by
  by_cases h : n.lmaxUsed < n.lminUsed ∨ l - 2 * n.endTrim < n.lminUsed
  · simp only [selectPlan_outside e n l ds h, true_iff]
    tauto
  · have hrange : n.lminUsed ≤ n.lmaxUsed ∧ n.lminUsed ≤ l - 2 * n.endTrim := by omega
    obtain ⟨h1, h2⟩ := hrange
    simp only [Nat.not_lt.mpr h1, Nat.not_lt.mpr h2, false_or]
    rcases Nat.lt_or_ge 8 (lastBest e n l ds).pieces.length with h8 | h8
    · obtain ⟨hlen, -⟩ := selectPlan_eight e n l ds h1 h2 h8
      exact iff_of_false (List.ne_nil_of_length_pos (by omega)) (List.ne_nil_of_length_pos (by omega))
    · rw [selectPlan_all e n l ds h1 h2 h8, List.reverse_eq_nil_iff]

/-- The limits of a piece of the plan (R51, R54, R56, R59). -/
theorem selectPlan_piece (hl : 2 * n.endTrim ≤ l) {p : PlannedPiece} (hp : p ∈ selectPlan e n l ds) :
    n.endTrim ≤ p.start ∧ p.start < p.stop ∧ p.stop + n.endTrim ≤ l ∧ p.net = p.stop - p.start
      ∧ n.lminUsed ≤ p.net ∧ p.net ≤ n.lmaxUsed ∧ gradeOf e p.start p.stop ds = some p.grade
      ∧ classOf e.bounds p.net = some p.cls
      ∧ p.value = n.value p.grade p.cls * p.net * n.factor p.grade p.cls / 100000 ∧ 0 < p.value := by
  obtain ⟨_, hT⟩ := traced_lastBest e n l ds
  have hmem := (selectPlan_sublist e n l ds).subset hp
  have hon := hT.pieceSet.onBoundaries p hmem
  have hlt := hon.start_lt_stop (boundaries_ascending n l ds)
  obtain ⟨i, j, bi, bj, -, hi, hj, hc⟩ := hon
  obtain ⟨hmin, hmax, hgrade, hcls, hx⟩ := (candidate_eq_some e n ds bi bj p).mp hc
  obtain ⟨hlow, -⟩ := boundaries_usable hl (List.mem_of_getElem? hi)
  obtain ⟨-, hhigh⟩ := boundaries_usable hl (List.mem_of_getElem? hj)
  obtain ⟨rfl, rfl⟩ := candidate_ends hc
  have hnet : p.net = p.stop - p.start := congrArg PlannedPiece.net hx
  have hvalue := congrArg PlannedPiece.value hx
  rw [← hnet] at hmin hmax hcls hvalue
  exact ⟨hlow, hlt, hhigh, hnet, hmin, hmax, hgrade, hcls, hvalue, hT.worthy p (List.mem_reverse.mp hmem)⟩

end

/-! ## The snapshot's figures (R51, R52) -/

theorem lengths_unless_suspect {n : Snapshot} (h : n.gauge ≠ .suspect) :
    n.lminUsed = n.lmin ∧ n.lmaxUsed = n.lmax := by
  simp [Snapshot.lminUsed, Snapshot.lmaxUsed, h]

theorem lengths_suspect {n : Snapshot} (h : n.gauge = .suspect) :
    n.lminUsed = n.lmin + n.margin ∧ n.lmaxUsed = n.lmax - n.margin := by
  simp [Snapshot.lminUsed, Snapshot.lmaxUsed, h]

theorem value_eq {n : Snapshot} {g c v : Nat} (h : n.values[8 * (g - 1) + (c - 1)]? = some v) : n.value g c = v := by
  simp [Snapshot.value, List.getD_eq_getElem?_getD, h]

/-- Settles O29: the limits from the pieces of the last best record, which is the best of all sets of pieces. -/
theorem plansAreSoundAndBest : Obligations.PlansAreSoundAndBest := by
  refine ⟨fun e n l ds hl => ⟨selectPlan_length_le e n l ds, ?_, fun p hp => selectPlan_piece e n l ds hl hp⟩,
    fun n => ⟨lengths_unless_suspect, fun h _ => lengths_suspect h, fun g c v _ _ _ h => value_eq h⟩,
    fun n l ds hl => ⟨boundaries_ascending n l ds, mem_boundaries_iff_pointed hl ds⟩,
    fun e n ds p q x _ => candidate_eq_some e n ds p q x, fun e n l ds => ?_⟩
  · exact (pieceSet_lastBest e n l ds).spaced.sublist (selectPlan_sublist e n l ds)
  have hne := boundaries_ne_nil n l ds
  obtain ⟨hvalue, hcount, hlength⟩ := lastBest_figures e n l ds
  refine ⟨bests_length e n ds _ hne, bests_zero e n ds _ hne,
    bestRecord_bests e n ds _ (boundaries_ascending n l ds) hne, getLast?_bests_boundaries e n l ds,
    hvalue, hcount, hlength, fun ps hon hsp => ?_,
    fun _ => ⟨selectPlan_eq_nil_iff e n l ds, selectPlan_all e n l ds, selectPlan_eight e n l ds⟩⟩
  exact (not_over_iff _ _).mp (not_pieceSet_over_lastBest e n l ds ⟨hon, hsp⟩)

end Sys2Proof.Machine
end

section
/-! PROOFS. The completion of a computation (O30). -/

namespace Sys2Proof.Machine

open Sys2Proof

/-- The state with the engine IDLE (R48). -/
def State.engineFreed (s : State) : State := s.setPle { s.ple with engine := none }

/-- The selection does not read the engine, so a completion selects what the BUSY engine's part gives. -/
theorem selectPlan_engineFreed (s : State) : selectPlan s.engineFreed.ple = selectPlan s.ple := rfl

/-- Nothing completes in IDLE (log 3). -/
theorem planCompletion_idle {s : State} (h : s.ple.engine = none) : planCompletion s = s := by
  simp [planCompletion, h]

/-- A completion frees the engine, writes the outcome and looks for the next strip (R48, R60). -/
theorem planCompletion_busy {s : State} {c : Computation} {r : Strip} (he : s.ple.engine = some c)
    (hr : stripOf s c.tag = some r) : planCompletion s = takeUp (writePlan r c.snapshot s.engineFreed) := by
  have hr' : stripOf (s.setPle { s.ple with engine := none }) c.tag = some r := hr
  simp only [planCompletion, he, hr', State.engineFreed]

/-- The scan a completion reads: the strip's, or one of no defects and colour class 0. -/
def Strip.scanOrEmpty (r : Strip) : Scan := r.scan.getD { colour := 0, defects := [] }

theorem Strip.scanOrEmpty_defects (r : Strip) : r.scanOrEmpty.defects = (r.scan.map (·.defects)).getD [] := by
  cases h : r.scan <;> simp [Strip.scanOrEmpty, h]

theorem Strip.scanOrEmpty_colour (r : Strip) : r.scanOrEmpty.colour = (r.scan.map (·.colour)).getD 0 := by
  cases h : r.scan <;> simp [Strip.scanOrEmpty, h]

/-- An empty plan is written as UNCUT(NO_YIELD) (R60). -/
theorem writePlan_noYield {s : State} {r : Strip} {n : Snapshot}
    (h : selectPlan s.ple n (r.length.getD 0) r.scanOrEmpty.defects = []) :
    writePlan r n s = { s with
      ple := { s.ple with noYieldPlans := min (s.ple.noYieldPlans + 1) 65535 }
      ltr := { s.ltr with strips := s.ltr.strips.map (fun x => if x.tag = r.tag then
        { x with plan := some [], status := .uncut .noYield } else x) } } := by
  unfold Strip.scanOrEmpty at h
  refine State.eq_of_blocks ?_
  simp [writePlan, h, State.modStrip, bump]

/-- A plan of pieces is written READY, with the pieces and the order lines that the reservations give (R60, R72). -/
theorem writePlan_ready {s : State} {r : Strip} {n : Snapshot}
    (h : selectPlan s.ple n (r.length.getD 0) r.scanOrEmpty.defects ≠ []) :
    let reserved := reservePieces r.scanOrEmpty.colour
      (selectPlan s.ple n (r.length.getD 0) r.scanOrEmpty.defects) s
    writePlan r n s = { s with
      ple := { s.ple with readyPlans := min (s.ple.readyPlans + 1) 65535 }
      ltr := { s.ltr with strips := s.ltr.strips.map (fun x => if x.tag = r.tag then
        { x with plan := some reserved.2, status := .ready } else x) }
      otu := reserved.1.otu } := by
  obtain ⟨-, -, -, hframe⟩ := reservePieces_spec r.scanOrEmpty.colour
    (selectPlan s.ple n (r.length.getD 0) r.scanOrEmpty.defects) s
  obtain ⟨p, ps, hp⟩ := List.exists_cons_of_ne_nil h
  unfold Strip.scanOrEmpty at *
  dsimp only
  rw [hp] at hframe ⊢
  simp only [writePlan, hp]
  rw [hframe]
  refine State.eq_of_blocks ?_
  simp [State.modStrip, bump]

/-- Settles O30: the write of an empty plan, or of the pieces with their reservations, then the next take-up. -/
theorem completionWritesThePlan : Obligations.CompletionWritesThePlan := by
  intro s
  refine ⟨fun he => next_congr (planCompletion_idle he), ?_⟩
  rintro c r _ _ he hr rfl rfl
  have htag := stripOf_tag hr
  have hexec : exec .planCompletion s = .next (takeUp (writePlan r c.snapshot s.engineFreed)) :=
    next_congr (planCompletion_busy he hr)
  rw [← r.scanOrEmpty_defects, ← r.scanOrEmpty_colour, ← selectPlan_engineFreed]
  constructor
  · intro hplan
    have hwrite := writePlan_noYield hplan
    rw [htag] at hwrite
    refine ⟨_, _, hexec, hwrite, takesUp_takeUp _ ?_⟩
    rw [hwrite]
    rfl
  · intro hplan
    have hwrite := writePlan_ready hplan
    obtain ⟨hpieces, hlines, hreserved, -⟩ := reservePieces_spec r.scanOrEmpty.colour
      (selectPlan s.engineFreed.ple c.snapshot (r.length.getD 0) r.scanOrEmpty.defects) s.engineFreed
    rw [htag] at hwrite
    refine ⟨_, _, _, hexec, ?_, hpieces, hlines, ?_, takesUp_takeUp _ ?_⟩
    · rw [hwrite]
      rfl
    · intro k h1 h32
      rw [hwrite]
      exact hreserved k h1 h32
    · rw [hwrite]
      rfl

end Sys2Proof.Machine
end

section
/-! PROOFS. The order lookup (O31) and the requests of the order lines (O32). -/

namespace Sys2Proof.Machine

open Sys2Proof

/-! ## The lookup (R71) -/

theorem fits_iff_matching (l : OrderLine) (g c k : Nat) : l.fits g c k = true ↔ l.matching g c k := by
  simp [OrderLine.fits, OrderLine.matching, and_assoc]

theorem lineNumbers_eq_range' : lineNumbers = List.range' 1 32 := rfl

/-- A search of the lines by index finds the one of lowest index that passes. -/
theorem find?_lineNumbers_eq_some_iff {p : Nat → Bool} {i : Nat} : lineNumbers.find? p = some i ↔
    1 ≤ i ∧ i ≤ 32 ∧ p i = true ∧ ∀ j, 1 ≤ j → j < i → ¬ p j = true := by
  rw [lineNumbers_eq_range', List.find?_range'_eq_some, List.mem_range'_1]
  simp only [Bool.not_eq_true', Bool.not_eq_true]
  constructor
  · rintro ⟨hp, ⟨h1, h32⟩, hbelow⟩
    exact ⟨h1, by omega, hp, hbelow⟩
  · rintro ⟨h1, h32, hp, hbelow⟩
    exact ⟨hp, ⟨h1, by omega⟩, hbelow⟩

theorem find?_lineNumbers_eq_none_iff {p : Nat → Bool} : lineNumbers.find? p = none ↔
    ∀ j, 1 ≤ j → j ≤ 32 → ¬ p j = true := by
  rw [lineNumbers_eq_range', List.find?_eq_none]
  simp only [List.mem_range'_1, and_imp]
  exact forall₂_congr fun j _ => imp_congr_left (by omega)

/-- The lookup is the search with the effective remaining, then the search without it. -/
theorem lookup_eq_or (s : State) (g c k : Nat) : lookup s g c k =
    (lineNumbers.find? fun j => (lineAt s j).fits g c k && decide (0 < (lineAt s j).remaining)).or
      (lineNumbers.find? fun j => (lineAt s j).fits g c k) := by
  unfold lookup
  split
  · next h => rw [h, Option.some_or]
  · next h => rw [h, Option.none_or]

theorem fits_with_remaining_iff (l : OrderLine) (g c k : Nat) : (l.fits g c k && decide (0 < l.remaining)) = true ↔
    l.matching g c k ∧ (0 : Int) < l.demand - l.fulfilled - l.reserved := by
  rw [Bool.and_eq_true, fits_iff_matching, decide_eq_true_eq]
  rfl

/-- Settles O31: each of the two searches gives the lowest index that passes. -/
theorem lookupByLowestIndex : Obligations.LookupByLowestIndex := by
  intro s g c k
  constructor
  · intro i
    rw [lookup_eq_or, Option.or_eq_some_iff]
    simp only [find?_lineNumbers_eq_some_iff, find?_lineNumbers_eq_none_iff, fits_with_remaining_iff,
      fits_iff_matching, not_and, not_lt]
    constructor
    · rintro (⟨h1, h32, ⟨hm, hr⟩, hbelow⟩ | ⟨hnone, h1, h32, hm, hbelow⟩)
      · exact ⟨h1, h32, hm, .inl ⟨hr, hbelow⟩⟩
      · exact ⟨h1, h32, hm, .inr ⟨hnone, hbelow⟩⟩
    · rintro ⟨h1, h32, hm, ⟨hr, hbelow⟩ | ⟨hnone, hbelow⟩⟩
      · exact .inl ⟨h1, h32, ⟨hm, hr⟩, hbelow⟩
      · exact .inr ⟨hnone, h1, h32, hm, hbelow⟩
  · rw [lookup_eq_or, Option.or_eq_none_iff]
    simp only [find?_lineNumbers_eq_none_iff, fits_with_remaining_iff, fits_iff_matching]
    exact and_iff_right_of_imp fun hnone j h1 h32 h => hnone j h1 h32 h.1

/-! ## The checks of the requests (R65, R67) -/

theorem lineOk_iff (k : Nat) : lineOk k = true ↔ 1 ≤ k ∧ k ≤ 32 := by
  simp [lineOk, within]

theorem demandOk_iff (d : Nat) : demandOk d = true ↔ 1 ≤ d ∧ d ≤ 2000000000 := by
  simp [demandOk, within]

theorem tablesLoaded_iff (s : State) :
    tablesLoaded s = true ↔ s.ple.gradesLoaded = true ∧ s.ple.classesLoaded = true := by
  simp [tablesLoaded]

theorem colourOk_iff (c : Wanted) : colourOk c = true ↔ c ∈ [.any, .only 0, .only 1, .only 2, .only 3] := by
  cases c with
  | any => simp [colourOk]
  | only n =>
    simp only [colourOk, decide_eq_true_eq, List.mem_cons, reduceCtorEq, Wanted.only.injEq, List.not_mem_nil, false_or,
      or_false]
    omega

theorem orderOk_iff (s : State) (o : OrderFields) : orderOk s o = true ↔
    1 ≤ o.grade ∧ o.grade ≤ s.ple.grades.length ∧ 1 ≤ o.cls ∧ o.cls ≤ s.ple.bounds.length
      ∧ o.colour ∈ [.any, .only 0, .only 1, .only 2, .only 3] ∧ 1 ≤ o.demand ∧ o.demand ≤ 2000000000
      ∧ isText o.reference := by
  simp only [orderOk, within, Bool.and_eq_true, decide_eq_true_eq, colourOk_iff, demandOk_iff, textOk_iff, and_assoc]

theorem orderAmend_badValue_iff (k d : Nat) : (!lineOk k || !demandOk d) = true ↔
    ¬ (1 ≤ k ∧ k ≤ 32 ∧ 1 ≤ d ∧ d ≤ 2000000000) := by
  rw [← Bool.not_and]
  exact not_eq_true_iff (by rw [Bool.and_eq_true, lineOk_iff, demandOk_iff, and_assoc])

/-- One test of a chain: it gives its end state, or the rest of the chain decides. -/
theorem decided_or_rest {p q : Prop} [Decidable p] [Decidable q] {t u v : State} {rest : Prop}
    (ht : t = if p then u else v) (hpq : p ↔ q) (hrest : ¬ q → t = v → rest) : if q then t = u else rest := by
  by_cases h : q
  · rw [if_pos h, ht, if_pos (hpq.mpr h)]
  · rw [if_neg h]
    exact hrest h (by rw [ht, if_neg (mt hpq.mp h)])

/-! ## What the requests do to their line -/

/-- A line that exists after its change, and every other line as it was. -/
theorem lineAt_modLine_of_exists (s : State) {k : Nat} (hk : 1 ≤ k ∧ k ≤ 32) (f : OrderLine → OrderLine)
    (j : Nat) : lineAt (s.modLine k f) j = if j = k then f (lineAt s k) else lineAt s j := by
  rw [lineAt_modLine]
  exact if_congr (and_iff_left hk) rfl rfl

/-- The state after ORDER_AMEND of line k with demand d, before the reply (R68). -/
def amendLine (k d : Nat) (s : State) : State := fillLine k .amend (s.modLine k fun l => { l with demand := d })

/-- ORDER_AMEND changes the demand of its line alone, and fills a line that has met it (R68, R76). -/
theorem amendLine_spec (d : Nat) (s : State) {k : Nat} (hk : 1 ≤ k ∧ k ≤ 32) :
    (∀ j, j ≠ k → lineAt (amendLine k d s) j = lineAt s j)
      ∧ if (lineAt s k).filled = false ∧ d ≤ (lineAt s k).fulfilled then
          lineAt (amendLine k d s) k = { lineAt s k with demand := d, filled := true }
          ∧ (amendLine k d s).lif = s.lif.raise (.orderFilled k (lineAt s k).reference d (lineAt s k).fulfilled
              (lineAt s k).reserved .amend)
        else lineAt (amendLine k d s) k = { lineAt s k with demand := d } ∧ (amendLine k d s).lif = s.lif := by
  obtain ⟨hlines, hlif⟩ := fillLine_spec k .amend (s.modLine k fun l => { l with demand := d }) hk
  simp only [lineAt_modLine_of_exists s hk, if_true] at hlines hlif
  refine ⟨fun j hj => by rw [amendLine, hlines, if_neg hj, if_neg hj], ?_⟩
  rw [amendLine, hlines k, if_pos rfl, hlif]
  split
  · next h => exact ⟨by simp [h.2], rfl⟩
  · next h =>
    have hsame : ((lineAt s k).filled || decide (d ≤ (lineAt s k).fulfilled)) = (lineAt s k).filled :=
      Bool.or_eq_left_iff_imp.mpr fun hd => by simpa [of_decide_eq_true hd] using h
    exact ⟨by rw [hsame], rfl⟩

/-- The state after ORDER_CLOSE of the OPEN line k, before the reply (R69). -/
def closeLine (k : Nat) (s : State) : State := drainLine k (s.modLine k fun l => { l with state := .draining })

/-- ORDER_CLOSE leaves its line DRAINING with reservations, and FREE with ORDER_DONE without; no other line changes
(R69, R77). -/
theorem closeLine_spec (s : State) {k : Nat} (hk : 1 ≤ k ∧ k ≤ 32) :
    (∀ j, j ≠ k → lineAt (closeLine k s) j = lineAt s j)
      ∧ if (lineAt s k).reserved = 0 then
          lineAt (closeLine k s) k = { lineAt s k with state := .free }
          ∧ (closeLine k s).lif = s.lif.raise (.orderDone k (lineAt s k).reference (lineAt s k).demand
              (lineAt s k).fulfilled (lineAt s k).landed (lineAt s k).filled)
        else lineAt (closeLine k s) k = { lineAt s k with state := .draining } ∧ (closeLine k s).lif = s.lif := by
  obtain ⟨hlines, hlif⟩ := drainLine_spec k (s.modLine k fun l => { l with state := .draining }) hk
  simp only [lineAt_modLine_of_exists s hk, if_true, true_and] at hlines hlif
  refine ⟨fun j hj => by rw [closeLine, hlines, if_neg hj, if_neg hj], ?_⟩
  rw [closeLine, hlines k, if_pos rfl, hlif]
  split
  · exact ⟨rfl, rfl⟩
  · exact ⟨rfl, rfl⟩

theorem amendLine_eq (k d : Nat) (s : State) :
    amendLine k d s = { s with otu := (amendLine k d s).otu, lif := (amendLine k d s).lif } :=
  State.eq_of_blocks (by simp [amendLine])

theorem closeLine_eq (k : Nat) (s : State) :
    closeLine k s = { s with otu := (closeLine k s).otu, lif := (closeLine k s).lif } :=
  State.eq_of_blocks (by simp [closeLine])

/-- The reply after a change of the order lines that may raise a notice leaves the change as it is. -/
theorem answered_lineChange {s t u : State} {k : Nat} {kind g : Byte} {due : Prop} [Decidable due] {l m : OrderLine}
    {n : Notice} (hu : u = { t with lif := t.lif.answering kind g .ok [] })
    (hframe : t = { s with otu := t.otu, lif := t.lif })
    (hlines : (∀ j, j ≠ k → lineAt t j = lineAt s j) ∧ if due then lineAt t k = l ∧ t.lif = s.lif.raise n
      else lineAt t k = m ∧ t.lif = s.lif) :
    u = { s with otu := u.otu, lif := u.lif } ∧ (∀ j, j ≠ k → lineAt u j = lineAt s j)
      ∧ if due then lineAt u k = l ∧ u.lif = (s.lif.raise n).answering kind g .ok []
        else lineAt u k = m ∧ u.lif = s.lif.answering kind g .ok [] := by
  obtain ⟨hothers, hline⟩ := hlines
  subst hu
  refine ⟨by rw [hframe], hothers, ?_⟩
  by_cases h : due
  · rw [if_pos h] at hline ⊢
    exact ⟨hline.1, by rw [hline.2]⟩
  · rw [if_neg h] at hline ⊢
    exact ⟨hline.1, by rw [hline.2]⟩

/-! ## The requests -/

/-- Settles O32, each request's chain of checks matched with the statement's one by one. -/
theorem orderRequests : Obligations.OrderRequests := by
  refine ⟨fun g k o s hr ho => ?_, fun g k d s hr => ?_, fun g k s hr => ?_⟩
  · refine ⟨_, request_answered hr 0x30#8 g (orderLoad k o), ?_⟩
    generalize ht : s.answered 0x30#8 g (orderLoad k o s) = t
    have hlen : (o.reference.length != 12) = false := by simp [ho]
    simp only [orderLoad, hlen, refuseIf_false, answered_refuseHalted, answered_refuseIf, answered_taken] at ht
    refine decided_or_rest ht.symm .rfl fun _ ht => ?_
    refine decided_or_rest ht (not_eq_true_iff (lineOk_iff k)) fun hk ht => ?_
    refine decided_or_rest ht (not_eq_true_iff (tablesLoaded_iff s)) fun _ ht => ?_
    refine decided_or_rest ht (not_eq_true_iff (orderOk_iff s o)) fun _ ht => ?_
    refine decided_or_rest ht bne_iff_ne fun _ ht => ?_
    have hline := lineAt_modLine_of_exists s (not_not.mp hk)
    subst ht
    exact ⟨rfl, (hline _ k).trans (if_pos rfl), fun j hj => (hline _ j).trans (if_neg hj)⟩
  · refine ⟨_, request_answered hr 0x31#8 g (orderAmend k d), ?_⟩
    generalize ht : s.answered 0x31#8 g (orderAmend k d s) = t
    simp only [orderAmend, answered_refuseHalted, answered_refuseIf, answered_taken] at ht
    refine decided_or_rest ht.symm .rfl fun _ ht => ?_
    refine decided_or_rest ht (orderAmend_badValue_iff k d) fun hv ht => ?_
    refine decided_or_rest ht beq_iff_eq fun _ ht => ?_
    refine decided_or_rest ht beq_iff_eq fun _ ht => ?_
    obtain ⟨h1, h32, -⟩ := not_not.mp hv
    exact answered_lineChange (t := amendLine k d s) ht (amendLine_eq k d s) (amendLine_spec d s ⟨h1, h32⟩)
  · refine ⟨_, request_answered hr 0x32#8 g (orderClose k), ?_⟩
    generalize ht : s.answered 0x32#8 g (orderClose k s) = t
    simp only [orderClose, answered_refuseHalted, answered_refuseIf, apply_ite (s.answered 0x32#8 g),
      answered_taken] at ht
    refine decided_or_rest ht.symm .rfl fun _ ht => ?_
    refine decided_or_rest ht (not_eq_true_iff (lineOk_iff k)) fun hk ht => ?_
    refine decided_or_rest ht beq_iff_eq fun _ ht => ?_
    refine decided_or_rest ht beq_iff_eq fun _ ht => ?_
    exact answered_lineChange (t := closeLine k s) ht (closeLine_eq k s) (closeLine_spec s (not_not.mp hk))

end Sys2Proof.Machine
end

section
/-! PROOFS. The ends of pulses and the falls of the print inputs (O43), the feed-ready eye (O35), and the tooling-ready
input and the tooling timer (O37). -/

namespace Sys2Proof.Machine

open Sys2Proof

/-! ## The ends of pulses -/

/-- Settles O43: of the diverters only the one named drops, by the rules of the table. -/
theorem pulsesEnd : Obligations.PulsesEnd := by
  refine fun s => ⟨rfl, rfl, fun b => ⟨_, rfl, fun j h1 h14 => ?_⟩, rfl, rfl, rfl⟩
  obtain ⟨d, hd⟩ := Option.isSome_iff_exists.mp ((tabGet_range s.srt.diverters j).mpr ⟨h1, h14⟩)
  by_cases hj : j = b
  · subst hj
    rw [tabGet_tabMod_same, hd, if_pos rfl]
    rfl
  · rw [tabGet_tabMod_other _ _ _ _ hj, if_neg hj]

/-! ## The feed-ready eye -/

/-- Activity in IDLE_WAIT returns the cutter group to RUN (R106). -/
theorem activity_idleWait {s : State} (h : s.tsc.cutter = .idleWait) : activity s = { s with
    tsc := { s.tsc with cutter := .run, runOutput := true, hystTimer := none }
    lif := s.lif.raise (.cutterState .run .idleWait .activity) } := by
  simp [activity, h, cutterTo, State.setTsc, State.raise, State.setLif, Cutter.driven]

/-- Activity in any other cutter state changes nothing (R106). -/
theorem activity_other {s : State} (h : s.tsc.cutter ≠ .idleWait) : activity s = s :=
  if_neg (by simpa using h)

/-- The state in which the feed-ready input has changed and the eye's level has followed it (R84). -/
def State.seesFeed (s : State) (blocked : Bool) : State :=
  { s with pins := { s.pins with feedReady := blocked }, fdp := { s.fdp with feedReady := blocked } }

/-- An edge to the level the input has (log 3). -/
theorem feedReadyEdge_same {b : Bool} {s : State} (h : s.pins.feedReady = b) : feedReadyEdge b s = s := by
  simp [feedReadyEdge, h]

/-- In HALTED the level holds (R84). -/
theorem feedReadyEdge_halted {b : Bool} {s : State} (h : s.pins.feedReady ≠ b) (hl : s.ltr.lineState = .halted) :
    feedReadyEdge b s = { s with pins := { s.pins with feedReady := b } } := by
  simp [feedReadyEdge, h, hl, State.setPins]

/-- Outside HALTED the level follows, and the cutter group is told (R84, R106). -/
theorem feedReadyEdge_taken {b : Bool} {s : State} (h : s.pins.feedReady ≠ b) (hl : s.ltr.lineState ≠ .halted) :
    feedReadyEdge b s = if b = true then activity (s.seesFeed b) else idleTest (s.seesFeed b) := by
  simp [feedReadyEdge, h, hl, feedReadyChange, State.seesFeed, State.setPins, State.setFdp]

/-- The eye blocked outside HALTED is activity (R106). -/
theorem feedReadyEdge_blocked {s : State} (h : s.pins.feedReady = false) (hl : s.ltr.lineState ≠ .halted) :
    feedReadyEdge true s = activity (s.seesFeed true) := feedReadyEdge_taken (by simp [h]) hl

/-- The eye clear outside HALTED tests the idle condition (R106). -/
theorem feedReadyEdge_clear {s : State} (h : s.pins.feedReady = true) (hl : s.ltr.lineState ≠ .halted) :
    feedReadyEdge false s = idleTest (s.seesFeed false) := feedReadyEdge_taken (by simp [h]) hl

/-- Settles O35: unchanged, in HALTED, then blocked by the cutter state and clear by the idle condition. -/
theorem feedReadyFollowsItsInput : Obligations.FeedReadyFollowsItsInput := by
  intro s
  obtain ⟨hidle, hbusy⟩ := idlesWhenEmpty_idleTest (s.seesFeed false)
  refine ⟨fun b h => next_congr (feedReadyEdge_same h), fun b h hl => next_congr (feedReadyEdge_halted h hl),
    fun h hl hc => next_congr ?_, fun h hl hc => next_congr ?_, fun h hl hc => next_congr ?_,
    fun h hl hc hs hh => next_congr ?_⟩
  · exact (feedReadyEdge_blocked h hl).trans (activity_other hc)
  · exact (feedReadyEdge_blocked h hl).trans (activity_idleWait hc)
  · exact (feedReadyEdge_clear h hl).trans (hbusy (hc.imp_right fun hc => hc.imp_right .inr))
  · exact (feedReadyEdge_clear h hl).trans (hidle hc hs rfl hh)

/-! ## Tooling-ready and the tooling timer -/

/-- A rise with the input already high (log 3). -/
theorem toolingReadyRise_high {s : State} (h : s.pins.toolingReady = true) : toolingReadyRise s = s := if_pos h

/-- A rise in TOOLING completes the changeover (R91). -/
theorem toolingReadyRise_tooling {s : State} (h : s.pins.toolingReady = false) (hc : s.pfc.changeover = .tooling) :
    toolingReadyRise s = changeComplete (s.setPins { s.pins with toolingReady := true }) := by
  simp [toolingReadyRise, h, hc]

/-- A rise in any other changeover state is counted (R91). -/
theorem toolingReadyRise_unsolicited {s : State} (h : s.pins.toolingReady = false) (hc : s.pfc.changeover ≠ .tooling) :
    toolingReadyRise s = { s with
      pins := { s.pins with toolingReady := true }
      pfc := { s.pfc with unsolicited := min (s.pfc.unsolicited + 1) 65535 } } := by
  simp [toolingReadyRise, h, hc, State.setPins, State.setPfc, bump]

/-- A change of the changeover state with its notice (R94). -/
theorem profileTo_eq (c : Changeover) (u : ProfileCause) (s : State) : profileTo c u s = { s with
    pfc := { s.pfc with changeover := c }
    lif := s.lif.raise (.profileState c s.pfc.changeover s.pfc.target s.pfc.active u) } := rfl

/-- The completion of a changeover (R91). -/
theorem changeComplete_eq {s : State} (h : s.pfc.changeover = .tooling) : changeComplete s = { s with
    pfc := { s.pfc with active := s.pfc.target, target := none, toolingRequest := false, timer := none
                        changeover := .running, completed := min (s.pfc.completed + 1) 65535 }
    lif := s.lif.raise (.profileState .running .tooling none s.pfc.target .ready) } := by
  rw [changeComplete, profileTo_eq, ← h]
  rfl

/-- The expiry of a running tooling timer in TOOLING (R92). -/
theorem toolingTimerExpiry_tooling {s : State} {m : Nat} (h : s.pfc.changeover = .tooling) (ht : s.pfc.timer = some m) :
    toolingTimerExpiry s = { s with
      pfc := { s.pfc with timer := none, changeover := .toolFault
                          toolFaults := min (s.pfc.toolFaults + 1) 65535 }
      lif := s.lif.raise (.profileState .toolFault .tooling s.pfc.target s.pfc.active .timeout) } := by
  rw [toolingTimerExpiry, if_pos (by simp [h, ht]), profileTo_eq, ← h]
  rfl

/-- Elsewhere, or with the timer not running, the expiry does nothing (log 3). -/
theorem toolingTimerExpiry_other {s : State} (h : s.pfc.changeover ≠ .tooling ∨ s.pfc.timer = none) :
    toolingTimerExpiry s = s := by
  refine if_neg fun hb => ?_
  rw [Bool.and_eq_true, beq_iff_eq] at hb
  obtain ⟨hc, ht⟩ := hb
  rcases h with h | h
  · exact h hc
  · simp [h] at ht

/-- Settles O37: the rise by the input and the changeover state, the fall, the expiry by the timer. -/
theorem toolingEndsTheChangeover : Obligations.ToolingEndsTheChangeover := fun _ =>
  ⟨fun h => next_congr (toolingReadyRise_high h),
    fun h hc => next_congr ((toolingReadyRise_tooling h hc).trans (changeComplete_eq hc)),
    fun h hc => next_congr (toolingReadyRise_unsolicited h hc),
    rfl,
    fun _ hc ht => next_congr (toolingTimerExpiry_tooling hc ht),
    fun h => next_congr (toolingTimerExpiry_other h)⟩

end Sys2Proof.Machine
end

section
/-! PROOFS. PROFILE_SET, PROFILE_CHANGE and PROFILE_ABORT (O36). -/

namespace Sys2Proof.Machine

open Sys2Proof

/-! ## The checks (R86 to R88) -/

theorem setOk_iff (n : Nat) : setOk n = true ↔ 1 ≤ n ∧ n ≤ 8 := by
  simp [setOk, within]

theorem profileOk_iff (p : ProfileSet) : profileOk p = true ↔
    (20 ≤ p.width ∧ p.width ≤ 400) ∧ (4 ≤ p.thickness ∧ p.thickness ≤ 60) ∧ p.endTrim ≤ 50
      ∧ (2 ≤ p.allowance ∧ p.allowance ≤ 20) ∧ (150 ≤ p.lmin ∧ p.lmin ≤ 1200) ∧ (300 ≤ p.lmax ∧ p.lmax ≤ 3000)
      ∧ (10 ≤ p.toolingLimit ∧ p.toolingLimit ≤ 3600) ∧ p.lmin ≤ p.lmax
      ∧ isText p.species ∧ isText p.profileId := by
  simp only [profileOk, within, Bool.and_eq_true, decide_eq_true_eq, textOk_iff, Nat.zero_le, true_and, and_assoc]

/-- PROFILE_SET's fields (R86, R87 check 2). -/
theorem profileSet_badValue_iff (n : Nat) (p : ProfileSet) : (!setOk n || !profileOk p) = true ↔
    ¬ ((1 ≤ n ∧ n ≤ 8) ∧ (20 ≤ p.width ∧ p.width ≤ 400) ∧ (4 ≤ p.thickness ∧ p.thickness ≤ 60)
      ∧ p.endTrim ≤ 50 ∧ (2 ≤ p.allowance ∧ p.allowance ≤ 20) ∧ (150 ≤ p.lmin ∧ p.lmin ≤ 1200)
      ∧ (300 ≤ p.lmax ∧ p.lmax ≤ 3000) ∧ (10 ≤ p.toolingLimit ∧ p.toolingLimit ≤ 3600) ∧ p.lmin ≤ p.lmax
      ∧ isText p.species ∧ isText p.profileId) := by
  rw [← Bool.not_and]
  exact not_eq_true_iff (by rw [Bool.and_eq_true, setOk_iff, profileOk_iff])

theorem setInUse_iff (s : State) (n : Nat) : setInUse s n = true ↔
    (s.pfc.active = some n ∧ (s.ltr.lineState = .running ∨ s.ltr.lineState = .stopping))
      ∨ (s.pfc.target = some n ∧ s.pfc.changeover ≠ .running) := by
  simp only [setInUse, Bool.or_eq_true, Bool.and_eq_true, beq_iff_eq, bne_iff_ne, watching_iff]

/-- A set with an entry in the table has its number in range. -/
theorem setOk_of_entry {s : State} {n : Nat} {x : Option ProfileSet} (h : tabGet s.pfc.sets n = some x) :
    setOk n = true :=
  (setOk_iff n).mpr ((tabGet_range s.pfc.sets n).mp (Option.isSome_of_eq_some h))

/-! ## PROFILE_CHANGE (R88 to R90, R93) -/

/-- The answer to a PROFILE_CHANGE that passes its checks: what it makes, with the changeover state reached (R88). -/
theorem exec_profileChange_taken {g : Byte} {n : Nat} {s t : State} {p : ProfileSet} {c : Changeover}
    (hr : s.lif.reply = none) (hl : s.ltr.lineState ≠ .halted) (hp : tabGet s.pfc.sets n = some (some p))
    (hc : s.pfc.changeover ≠ .tooling) (ht : changeTaken n s = t) (htc : t.pfc.changeover = c) :
    exec (.profileChange g n) s = .next { t with lif := t.lif.answering 0x49#8 g .ok (be1 c.code) } := by
  refine (request_answered hr 0x49#8 g (profileChange n)).trans (next_congr ?_)
  simp only [profileChange, answered_refuseHalted, answered_refuseIf, answered_taken]
  rw [if_neg hl, if_neg (by simp [setOk_of_entry hp]), if_neg (by simp [setDefined, hp]), if_neg (by simpa using hc),
    ht, htc]

/-- The state in which draining towards set n has begun (R88). -/
def State.drainingTo (s : State) (n : Nat) : State := { s with
  pfc := { s.pfc with target := some n, changeover := .draining }
  lif := s.lif.raise (.profileState .draining .running (some n) s.pfc.active .request) }

/-- A return to RUNNING with the target dropped (R89, R93). -/
theorem backToRunning_eq (s : State) : backToRunning s = { s with
    pfc := { s.pfc with target := none, changeover := .running, toolingRequest := false, timer := none }
    lif := s.lif.raise (.profileState .running s.pfc.changeover none s.pfc.active .request) } := rfl

/-- In RUNNING a change to the active set changes nothing (R88). -/
theorem changeTaken_running_active {n : Nat} {s : State} (h : s.pfc.changeover = .running)
    (ha : s.pfc.active = some n) : changeTaken n s = s := by
  simp [changeTaken, h, ha]

/-- In RUNNING a change to another set starts draining, and the drain test follows (R88, R90). -/
theorem changeTaken_running_other {n : Nat} {s : State} (h : s.pfc.changeover = .running)
    (ha : s.pfc.active ≠ some n) : changeTaken n s = drainTest (s.drainingTo n) := by
  have hn : s.drainingTo n = profileTo .draining .request (s.setPfc { s.pfc with target := some n }) := by
    rw [State.drainingTo, profileTo_eq, ← h]
    rfl
  rw [hn]
  simp [changeTaken, h, ha]

/-- In DRAINING a change to the target keeps it (R89). -/
theorem changeTaken_draining_target {n : Nat} {s : State} (h : s.pfc.changeover = .draining)
    (ht : s.pfc.target = some n) : changeTaken n s = s := by
  simp [changeTaken, h, ht]

/-- In DRAINING a change to a set that is neither target nor active replaces the target (R89). -/
theorem changeTaken_draining_other {n : Nat} {s : State} (h : s.pfc.changeover = .draining)
    (ht : s.pfc.target ≠ some n) (ha : s.pfc.active ≠ some n) :
    changeTaken n s = { s with pfc := { s.pfc with target := some n } } := by
  simp [changeTaken, h, ht, ha, State.setPfc]

/-- In DRAINING a change to the active set drops the target (R89). -/
theorem changeTaken_draining_active {n : Nat} {s : State} (h : s.pfc.changeover = .draining)
    (ht : s.pfc.target ≠ some n) (ha : s.pfc.active = some n) : changeTaken n s = { s with
      pfc := { s.pfc with target := none, changeover := .running, toolingRequest := false, timer := none }
      lif := s.lif.raise (.profileState .running .draining none s.pfc.active .request) } := by
  rw [← h, ← backToRunning_eq]
  simp [changeTaken, h, ht, ha]

/-- In TOOL_FAULT a change restarts the tooling (R93). -/
theorem changeTaken_toolFault {n : Nat} {s : State} {p : ProfileSet} (h : s.pfc.changeover = .toolFault)
    (hp : tabGet s.pfc.sets n = some (some p)) : changeTaken n s = { s with
      pfc := { s.pfc with target := some n, changeover := .tooling, timer := some (p.toolingLimit * 1000) }
      lif := s.lif.raise (.profileState .tooling .toolFault (some n) s.pfc.active .request) } := by
  simp only [changeTaken, h, toolingMs_of s n p hp]
  rw [profileTo_eq, ← h]
  rfl

/-- The drain test of a change that finds both queues empty and nothing to close: the tooling begins (R90). -/
theorem drainTest_drainingTo_quiet {n : Nat} {s : State} {p : ProfileSet} (hp : tabGet s.pfc.sets n = some (some p))
    (hq : s.queuesEmpty) (hno : s.nothingOpen) : drainTest (s.drainingTo n) = { s with
      pfc := { s.pfc with target := some n, changeover := .tooling, toolingRequest := true
                          timer := some (p.toolingLimit * 1000) }
      lif := (s.lif.raise (.profileState .draining .running (some n) s.pfc.active .request)).raise
        (.profileState .tooling .draining (some n) s.pfc.active .drained) } := by
  obtain ⟨⟨hpfc, htimer⟩, -, -, hquiet⟩ := (toolsWhenEmpty_drainTest (s.drainingTo n)).1 rfl hq
  rw [hquiet hno, hpfc, htimer n p rfl hp]
  rfl

/-! ## PROFILE_ABORT (R89, R93) -/

/-- An abort outside RUNNING drops the target and is counted (R89, R93). -/
theorem abortTaken_changing {s : State} (h : s.pfc.changeover ≠ .running) : abortTaken s = { s with
    pfc := { s.pfc with target := none, changeover := .running, toolingRequest := false, timer := none
                        aborts := min (s.pfc.aborts + 1) 65535 }
    lif := s.lif.raise (.profileState .running s.pfc.changeover none s.pfc.active .request) } := by
  rw [abortTaken, if_neg (by simpa using h), backToRunning_eq]
  rfl

/-! ## The requests -/

/-- Settles O36: PROFILE_SET's checks one by one, then each changeover state of PROFILE_CHANGE and PROFILE_ABORT. -/
theorem profileRequests : Obligations.ProfileRequests := by
  refine ⟨fun g n p s hr hsp hid => ?_, fun g n s hr => ?_, fun g s hr => ?_⟩
  · refine ⟨_, request_answered hr 0x48#8 g (profileSet n p), ?_⟩
    generalize ht : s.answered 0x48#8 g (profileSet n p s) = t
    have hlen : (p.species.length != 4 || p.profileId.length != 8) = false := by simp [hsp, hid]
    simp only [profileSet, hlen, refuseIf_false, answered_refuseHalted, answered_refuseIf, answered_taken] at ht
    refine decided_or_rest ht.symm .rfl fun _ ht => ?_
    refine decided_or_rest ht (profileSet_badValue_iff n p) fun hv ht => ?_
    refine decided_or_rest ht (setInUse_iff s n) fun _ ht => ?_
    obtain ⟨x, hx⟩ := Option.isSome_iff_exists.mp ((tabGet_range s.pfc.sets n).mpr (not_not.mp hv).1)
    subst ht
    refine ⟨rfl, ?_, fun m hm => tabGet_tabMod_other _ _ _ _ hm⟩
    exact (tabGet_tabMod_same _ _ _).trans (by rw [hx]; rfl)
  · have hchange : exec (.profileChange g n) s = .next (s.answered 0x49#8 g (profileChange n s)) :=
      request_answered hr _ _ _
    refine ⟨fun hl => ?_, fun hl => ⟨fun hn => ?_, fun hn => ?_, fun p hp => ⟨fun hc => ?_, ?_⟩⟩⟩
    · rw [hchange, profileChange, refuseHalted_halted s _ hl, answered_error]
    · rw [hchange, profileChange, refuseHalted_other s _ hl, answered_refuseIf,
        if_pos ((not_eq_true_iff (setOk_iff n)).mpr hn)]
    · simp [hchange, profileChange, hl, setOk_of_entry hn, setDefined, hn]
    · simp [hchange, profileChange, hl, setOk_of_entry hp, setDefined, hp, hc]
    · have changes {c d : Changeover} {t : State} (hc : s.pfc.changeover = c) (hne : c ≠ .tooling)
          (ht : changeTaken n s = t) (hd : t.pfc.changeover = d) :=
        exec_profileChange_taken (g := g) hr hl hp (hc ▸ hne) ht hd
      refine ⟨fun hc ha => ?_, fun hc ha hq => ?_, fun hc ha h1 h2 hno => ?_, fun hc ha hq => ?_, fun hc ht => ?_,
        fun hc ht ha => ?_, fun hc ht ha => ?_, fun hc => ?_⟩
      · exact changes hc nofun (changeTaken_running_active hc ha) hc
      · have hkeeps := (toolsWhenEmpty_drainTest (s.drainingTo n)).2 (.inr fun hq' => hq.elim (· hq'.1) (· hq'.2))
        exact changes hc nofun ((changeTaken_running_other hc ha).trans hkeeps) rfl
      · have htools := drainTest_drainingTo_quiet hp ⟨h1, h2⟩ hno
        exact changes hc nofun ((changeTaken_running_other hc ha).trans htools) rfl
      · have htools := toolsWhenEmpty_drainTest (s.drainingTo n)
        obtain ⟨⟨hbegun, -⟩, -⟩ := htools.1 rfl hq
        exact ⟨_, changes hc nofun (changeTaken_running_other hc ha) (congrArg Pfc.changeover hbegun), htools⟩
      · exact changes hc nofun (changeTaken_draining_target hc ht) hc
      · exact changes hc nofun (changeTaken_draining_other hc ht ha) hc
      · exact changes hc nofun (changeTaken_draining_active hc ht ha) rfl
      · exact changes hc nofun (changeTaken_toolFault hc hp) rfl
  · have habort : exec (.profileAbort g) s = .next (s.answered 0x4A#8 g (profileAbort s)) := request_answered hr _ _ _
    refine ⟨fun hl => ?_, fun hl => ⟨fun hc => ?_, fun hc => ?_, fun hc => ?_⟩⟩
    · rw [habort, profileAbort, refuseHalted_halted s _ hl, answered_error]
    · simp [habort, profileAbort, hl, hc]
    · simp [habort, profileAbort, hl, hc, abortTaken]
    · have hrun : s.pfc.changeover ≠ .running := by rcases hc with hc | hc <;> simp [hc]
      have htool : s.pfc.changeover ≠ .tooling := by rcases hc with hc | hc <;> simp [hc]
      simp [habort, profileAbort, hl, htool, abortTaken_changing hrun]

end Sys2Proof.Machine
end

section
/-! PROOFS. A cut falling due, made or missed (O38). -/

namespace Sys2Proof.Machine

open Sys2Proof

/-- The first PENDING cut of a list (R98). -/
theorem nextCut_of_split {c : CutList} {before after : List Cut} {k : Cut} (h : c.cuts = before ++ k :: after)
    (hb : ∀ j ∈ before, j.state ≠ .pending) (hk : k.state = .pending) : c.nextCut = some k := by
  have hb' : before.find? (fun j => j.state == .pending) = none := by simpa using hb
  simp [CutList.nextCut, h, List.find?_append, hb', hk]

/-- What the next cut of a strip at the saw does once its fire position is reached outside HALTED, and before
(R98, log 3). -/
theorem cutDue_reached {s : State} {tag : Nat} {c : CutList} {r : Strip} {k : Cut} (hc : cutListOf s tag = some c)
    (hr : stripOf s tag = some r) (hk : c.nextCut = some k) (hl : s.ltr.lineState ≠ .halted)
    (hp : 0 ≤ (s.ltr.trimPos - k.fireAt).toInt) : cutDue tag s
      = doneTest tag (if s.tsc.cutter = .run then cutMade c k.x r s else cutMissed c k.x r s) := by
  simp [cutDue, hc, hr, hk, hl, (reached_iff _ _).mpr hp]

theorem cutDue_early {s : State} {tag : Nat} {c : CutList} {r : Strip} {k : Cut} (hc : cutListOf s tag = some c)
    (hr : stripOf s tag = some r) (hk : c.nextCut = some k)
    (h : s.ltr.lineState = .halted ∨ (s.ltr.trimPos - k.fireAt).toInt < 0) : cutDue tag s = s := by
  have hg : ¬ (s.ltr.lineState ≠ .halted ∧ reached s.ltr.trimPos k.fireAt = true) := by
    rw [reached_iff]
    rintro ⟨hl, hp⟩
    exact h.elim hl (by omega)
  simp only [cutDue, hc, hr, hk]
  exact if_neg (by simpa using hg)

/-- The saw fired for the cut at x of a list, which is MADE (R98). -/
def State.firesCut (s : State) (tag x : Nat) : State :=
  (s.setTsc { s.tsc with sawPulse := some s.tsc.trim.sawPulse, sawFires := bump s.tsc.sawFires }).modCuts tag
    (CutList.make x)

/-- The cut at x of a list MISSED, and counted (R98). -/
def State.missesCut (s : State) (tag x : Nat) : State :=
  (s.setTsc { s.tsc with missedCuts := bump s.tsc.missedCuts }).modCuts tag (CutList.miss x)

/-- A cut MADE: the piece that ends at it, then, after the trailing edge, the one that runs to the strip's end
(R98, R99). -/
theorem cutMade_eq (c : CutList) (x : Nat) (r : Strip) (s : State) : cutMade c x r s
    = (if c.trailSeen = true then createAt (pieceAtEnd (c.make x) r) (c.make x) r else id)
        (createAt (pieceEndingAt c x) c r (s.firesCut c.tag x)) := by
  unfold cutMade
  split <;> rfl

/-- A cut MISSED: after the trailing edge the remainder is the uncut piece (R98, R100). -/
theorem cutMissed_eq (c : CutList) (x : Nat) (r : Strip) (s : State) : cutMissed c x r s
    = (if c.trailSeen = true then createUncut c r else id) (s.missesCut c.tag x) := by
  unfold cutMissed
  split <;> rfl

theorem AtSaw.createAt {s : State} {r : Strip} (h : AtSaw s r.tag) (i : Option Nat) (c : CutList) :
    AtSaw (createAt i c r s) r.tag := by
  cases i with
  | none => exact h
  | some i => exact h.createPlanned c i

/-- The strip stays at the saw while its cut is made or missed. -/
theorem AtSaw.cutMade {s : State} {r : Strip} {c : CutList} (h : AtSaw s r.tag) (ht : c.tag = r.tag) (x : Nat) :
    AtSaw (cutMade c x r s) r.tag := by
  have h1 : AtSaw (s.firesCut r.tag x) r.tag := (h.congr rfl rfl).modCuts (CutList.make x) fun _ => rfl
  rw [cutMade_eq, ht]
  split
  · exact (h1.createAt _ c).createAt _ _
  · exact h1.createAt _ c

theorem AtSaw.cutMissed {s : State} {r : Strip} {c : CutList} (h : AtSaw s r.tag) (ht : c.tag = r.tag) (x : Nat) :
    AtSaw (cutMissed c x r s) r.tag := by
  have h1 : AtSaw (s.missesCut r.tag x) r.tag := (h.congr rfl rfl).modCuts (CutList.miss x) fun _ => rfl
  rw [cutMissed_eq, ht]
  split
  · exact h1.createUncut c
  · exact h1

/-- Settles O38: before the position is reached; then made, with the pieces at the cut and at the end, and missed, with
the uncut piece; each with the strip's end. -/
theorem cutFallsDue : Obligations.CutFallsDue := by
  intro s c r before after k hc hr hcuts hb hk
  have hk := nextCut_of_split hcuts hb hk
  have ht : c.tag = r.tag := by simpa using List.find?_some hc
  have hat : AtSaw s r.tag := ⟨Option.isSome_iff_exists.mpr ⟨r, hr⟩, Option.isSome_iff_exists.mpr ⟨c, hc⟩⟩
  refine ⟨fun h => next_congr (cutDue_early hc hr hk h), fun hl hp => ⟨fun hrun c' hc' => ?_, fun hrun => ?_⟩⟩
  · obtain rfl : c' = c.make k.x := by simp [hc', CutList.make]
    refine ⟨_, s.firesCut r.tag k.x, createAt (pieceEndingAt c k.x) c r (s.firesCut r.tag k.x), cutMade c k.x r s,
      next_congr ((cutDue_reached hc hr hk hl hp).trans (by rw [if_pos hrun])), State.eq_of_blocks ?_,
      fun i hi => ?_, fun hn => ?_, fun j hs hj => ?_, fun hn => ?_, ?_⟩
    · simp [State.firesCut, State.modCuts, CutList.make, bump]
    · rw [show pieceEndingAt c k.x = some i from hi]
      exact createsPlanned_createPlanned c r i _
    · rw [show pieceEndingAt c k.x = none by simpa [pieceEndingAt] using hn]
      rfl
    · rw [cutMade_eq, ht, if_pos hs, (endPiece_iff _ r j).mp hj]
      exact createsPlanned_createPlanned c r j _
    · rw [cutMade_eq, ht]
      rcases hn with hn | hn
      · rw [if_neg (by simp [hn])]; rfl
      · have hnone : pieceAtEnd (c.make k.x) r = none :=
          Option.eq_none_iff_forall_ne_some.mpr fun j hj => hn j ((endPiece_iff _ r j).mpr hj)
        rw [hnone]
        split <;> rfl
    · exact (hat.cutMade ht k.x).doneAtSaw
  · refine ⟨_, s.missesCut r.tag k.x, cutMissed c k.x r s,
      next_congr ((cutDue_reached hc hr hk hl hp).trans (by rw [if_neg hrun])), State.eq_of_blocks ?_,
      fun hs => ?_, fun hs => ?_, ?_⟩
    · simp [State.missesCut, State.modCuts, CutList.miss, bump]
    · rw [cutMissed_eq, ht, if_pos hs]
      exact createsUncut_createUncut c r _
    · rw [cutMissed_eq, ht, if_neg (by simp [hs])]
      rfl
    · exact (hat.cutMissed ht k.x).doneAtSaw

end Sys2Proof.Machine
end

section
/-! PROOFS. The expiries of the cutter group's three timers (O40). -/

namespace Sys2Proof.Machine

open Sys2Proof

/-- The cutter group up to speed: RUN, the spin-up timer at its end, the spin-up counted (R105). -/
def State.spunUp (s : State) : State := { s with
  tsc := { s.tsc with cutter := .run, runOutput := true, spinTimer := none, spinUps := min (s.tsc.spinUps + 1) 65535 }
  lif := s.lif.raise (.cutterState .run .spinup .spunUp) }

/-- The spin-up timer's expiry leads to RUN, where the idle condition is tested at once (R105, R106). -/
theorem spinupExpiry_running {s : State} {m : Nat} (hc : s.tsc.cutter = .spinup) (ht : s.tsc.spinTimer = some m) :
    spinupExpiry s = idleTest s.spunUp := by
  simp [spinupExpiry, hc, ht, State.spunUp, cutterTo, State.setTsc, State.raise, State.setLif, Cutter.driven, bump]

/-- The hysteresis timer's expiry leads to STANDBY, the residency timer started unless M is 0 (R107). -/
theorem hysteresisExpiry_running {s : State} {m : Nat} (hc : s.tsc.cutter = .idleWait)
    (ht : s.tsc.hystTimer = some m) : hysteresisExpiry s = { s with
      tsc := { s.tsc with
        cutter := .standby, runOutput := false, hystTimer := none, wake := false
        residTimer := if s.tsc.heads.residency = 0 then none else some s.tsc.heads.residency
        standbys := min (s.tsc.standbys + 1) 65535 }
      lif := s.lif.raise (.cutterState .standby .idleWait .hysteresis) } := by
  simp [hysteresisExpiry, hc, ht, cutterTo, State.setTsc, State.raise, State.setLif, Cutter.driven, bump]

/-- The residency timer's expiry lets the group rest, or, with the wake latch set, starts it (R108). -/
theorem residencyExpiry_running {s : State} {m : Nat} (hc : s.tsc.cutter = .standby)
    (ht : s.tsc.residTimer = some m) : residencyExpiry s = if s.tsc.wake = true then
      enterSpinup .wake { s with tsc := { s.tsc with residTimer := none } }
    else { s with tsc := { s.tsc with residTimer := none } } := by
  simp [residencyExpiry, hc, ht, State.setTsc]

/-- An expiry of a timer not running in its state does nothing (log 3). -/
theorem spinupExpiry_other {s : State} (h : s.tsc.cutter ≠ .spinup ∨ s.tsc.spinTimer = none) : spinupExpiry s = s :=
  if_neg (by rcases h with h | h <;> simp [h])

theorem hysteresisExpiry_other {s : State} (h : s.tsc.cutter ≠ .idleWait ∨ s.tsc.hystTimer = none) :
    hysteresisExpiry s = s := if_neg (by rcases h with h | h <;> simp [h])

theorem residencyExpiry_other {s : State} (h : s.tsc.cutter ≠ .standby ∨ s.tsc.residTimer = none) :
    residencyExpiry s = s := if_neg (by rcases h with h | h <;> simp [h])

/-- Settles O40: each timer where it does not run, and where it does; the spin-up's end by the idle condition. -/
theorem cutterTimersExpire : Obligations.CutterTimersExpire := by
  intro s
  obtain ⟨hidle, hbusy⟩ := idlesWhenEmpty_idleTest s.spunUp
  refine ⟨fun h => next_congr (spinupExpiry_other h), fun m hc ht hb => next_congr ?_,
    fun m hc ht hs hf hh => next_congr ?_, fun h => next_congr (hysteresisExpiry_other h),
    fun m hc ht => next_congr (hysteresisExpiry_running hc ht), fun h => next_congr (residencyExpiry_other h),
    fun m hc ht => ⟨fun hw => next_congr ?_, fun hw => next_congr ?_⟩⟩
  · exact (spinupExpiry_running hc ht).trans (hbusy (.inr hb))
  · exact (spinupExpiry_running hc ht).trans (hidle rfl hs hf hh)
  · exact (residencyExpiry_running hc ht).trans (if_neg (by simp [hw]))
  · rw [residencyExpiry_running hc ht, if_pos hw, enterSpinup_eq, ← hc]
    rfl

end Sys2Proof.Machine
end

section
/-! PROOFS. What of the cutter group, the changeover and the print port the soundness of the three rests on, and the
operations that leave it (O6). -/

namespace Sys2Proof.Machine

open Sys2Proof

/-! ## The figures the three conditions rest on -/

/-- The cutter group's state with its run output, its latch and which of its timers run (R103). -/
def Tsc.group (c : Tsc) : Cutter × Bool × Bool × Bool × Bool × Bool :=
  (c.cutter, c.runOutput, c.spinTimer.isSome, c.hystTimer.isSome, c.residTimer.isSome, c.wake)

/-- The changeover state with its request, and whether the timer runs and a target stands (section 6.5). -/
def Pfc.stage (p : Pfc) : Changeover × Bool × Bool × Bool :=
  (p.changeover, p.toolingRequest, p.timer.isSome, p.target.isSome)

/-- The print port's state with its outputs, which of its times run, and the rows sent (section 11.2). -/
def Prq.engagement (p : Prq) : PortState × Bool × Bool × Bool × Bool × Nat :=
  (p.port, p.timer.isSome, p.donePulse.isSome, p.strobe.isSome, p.transfer.isSome, p.rowsSent)

/-- What the three conditions read of a state. -/
def State.controls (s : State) := (s.tsc.group, s.pfc.stage, s.prq.engagement)

/-- t meets whatever of the three conditions s meets. -/
structure Upholds (s t : State) : Prop where
  cutter : s.cutterSound → t.cutterSound
  changeover : s.changeoverSound → t.changeoverSound
  port : s.portSound → t.portSound

theorem Upholds.refl (s : State) : Upholds s s := ⟨id, id, id⟩

theorem Upholds.trans {s t u : State} (h : Upholds s t) (h' : Upholds t u) : Upholds s u :=
  ⟨h'.cutter ∘ h.cutter, h'.changeover ∘ h.changeover, h'.port ∘ h.port⟩

/-- The conditions rest on nothing but the controls. -/
theorem Upholds.of_controls {s t : State} (h : t.controls = s.controls) : Upholds s t := by
  simp only [State.controls, Prod.mk.injEq, Tsc.group, Pfc.stage, Prq.engagement] at h
  obtain ⟨⟨h1, h2, h3, h4, h5, h6⟩, ⟨h7, h8, h9, h10⟩, h11, h12, h13, h14, h15, h16⟩ := h
  refine ⟨?_, ?_, ?_⟩
  · unfold State.cutterSound
    rw [h1, h2, h3, h4, h5, h6]
    exact id
  · unfold State.changeoverSound
    rw [h7, h8, h9, h10]
    exact id
  · unfold State.portSound
    rw [h11, h12, h13, h14, h15, h16]
    exact id

/-- The same, the later change first. -/
theorem Upholds.after {s t u : State} (h' : Upholds t u) (h : Upholds s t) : Upholds s u := h.trans h'

/-- After a change that leaves the controls, one that upholds the conditions. -/
theorem Upholds.after_same {s t u : State} (h : Upholds t u) (hc : t.controls = s.controls) : Upholds s u :=
  h.after (.of_controls hc)

/-- A change of the cutter group alone. -/
theorem Upholds.of_tsc {s t : State} (hp : t.pfc.stage = s.pfc.stage) (hq : t.prq.engagement = s.prq.engagement)
    (h : s.cutterSound → t.cutterSound) : Upholds s t := by
  have hu : Upholds (s.setTsc t.tsc) t := .of_controls (by simp [State.controls, hp, hq])
  exact ⟨h, fun hs => hu.changeover hs, fun hs => hu.port hs⟩

/-- A change of the changeover alone. -/
theorem Upholds.of_pfc {s t : State} (hc : t.tsc.group = s.tsc.group) (hq : t.prq.engagement = s.prq.engagement)
    (h : s.changeoverSound → t.changeoverSound) : Upholds s t := by
  have hu : Upholds (s.setPfc t.pfc) t := .of_controls (by simp [State.controls, hc, hq])
  exact ⟨fun hs => hu.cutter hs, h, fun hs => hu.port hs⟩

/-- A change of the print port alone. -/
theorem Upholds.of_prq {s t : State} (hc : t.tsc.group = s.tsc.group) (hp : t.pfc.stage = s.pfc.stage)
    (h : s.portSound → t.portSound) : Upholds s t := by
  have hu : Upholds (s.setPrq t.prq) t := .of_controls (by simp [State.controls, hc, hp])
  exact ⟨fun hs => hu.cutter hs, fun hs => hu.changeover hs, h⟩

/-! ## Updates of other blocks and of single entries -/

section
variable (s : State)

@[simp] theorem controls_setPins (v : Pins) : (s.setPins v).controls = s.controls := rfl
@[simp] theorem controls_setLtr (v : Ltr) : (s.setLtr v).controls = s.controls := rfl
@[simp] theorem controls_setMsu (v : Msu) : (s.setMsu v).controls = s.controls := rfl
@[simp] theorem controls_setPle (v : Ple) : (s.setPle v).controls = s.controls := rfl
@[simp] theorem controls_setOtu (v : Otu) : (s.setOtu v).controls = s.controls := rfl
@[simp] theorem controls_setFdp (v : Fdp) : (s.setFdp v).controls = s.controls := rfl
@[simp] theorem controls_setSrt (v : Srt) : (s.setSrt v).controls = s.controls := rfl
@[simp] theorem controls_setBdb (v : Bdb) : (s.setBdb v).controls = s.controls := rfl
@[simp] theorem controls_setLcp (v : Lcp) : (s.setLcp v).controls = s.controls := rfl
@[simp] theorem controls_setLif (v : Lif) : (s.setLif v).controls = s.controls := rfl
@[simp] theorem controls_setPending (q : List Instr) : (s.setPending q).controls = s.controls := rfl

@[simp] theorem controls_raise (n : Notice) : (s.raise n).controls = s.controls := rfl
@[simp] theorem controls_modLine (k : Nat) (f : OrderLine → OrderLine) : (s.modLine k f).controls = s.controls := rfl
@[simp] theorem controls_modBin (b : Nat) (f : Bin → Bin) : (s.modBin b f).controls = s.controls := rfl
@[simp] theorem controls_modManifest (n : Nat) (f : Manifest → Manifest) :
    (s.modManifest n f).controls = s.controls := rfl
@[simp] theorem controls_modStrip (t : Nat) (f : Strip → Strip) : (s.modStrip t f).controls = s.controls := rfl
@[simp] theorem controls_modPiece (t i : Nat) (f : Piece → Piece) : (s.modPiece t i f).controls = s.controls := rfl
@[simp] theorem controls_modCuts (t : Nat) (f : CutList → CutList) : (s.modCuts t f).controls = s.controls := rfl
@[simp] theorem controls_modSlot (k : Nat) (f : Slot → Slot) : (s.modSlot k f).controls = s.controls := rfl
@[simp] theorem controls_setReply (k t : Byte) (c : ResultCode) (d : List Byte) (a : Bool) :
    (s.setReply k t c d a).controls = s.controls := rfl
@[simp] theorem controls_frameWhilePending (r : Reply) : (s.frameWhilePending r).controls = s.controls := by
  simp [State.controls]

/-! ## Orders, renderings, closes -/

@[simp] theorem controls_release (l : Option Nat) (n : Nat) : (release l n s).controls = s.controls := by
  simp [State.controls]
@[simp] theorem controls_drainLine (k : Nat) : (drainLine k s).controls = s.controls := by simp [State.controls]
@[simp] theorem controls_fillLine (k : Nat) (c : FillCause) : (fillLine k c s).controls = s.controls := by
  simp [State.controls]
@[simp] theorem controls_credit (l : Option Nat) (n : Nat) : (credit l n s).controls = s.controls := by
  simp [State.controls]
@[simp] theorem controls_renderStart (k : Nat) (m : Manifest) : (renderStart k m s).controls = s.controls := rfl
@[simp] theorem controls_dischargeStart (b : Nat) : (dischargeStart b s).controls = s.controls := by
  simp [State.controls]
@[simp] theorem controls_closeComplete (b k : Nat) : (closeComplete b k s).controls = s.controls := by
  simp [closeComplete]

end

/-- The attempts at completion change of the print queue the slots alone (R138, R158). -/
@[simp] theorem controls_attempts (n : Nat) (s : State) : (attempts n s).controls = s.controls := by
  induction n generalizing s with
  | zero => rfl
  | succ n ih =>
    unfold attempts
    split
    · split
      · simp [ih]
      · rfl
    · rfl

/-- Steps that each leave the controls leave them one after another. -/
theorem controls_foldl {α : Type} (f : State → α → State) (hf : ∀ s a, (f s a).controls = s.controls)
    (l : List α) (s : State) : (l.foldl f s).controls = s.controls := by
  induction l generalizing s with
  | nil => rfl
  | cons a l ih => exact (ih _).trans (hf s a)

section
variable (s : State)

@[simp] theorem controls_attempt : (attempt s).controls = s.controls := controls_attempts _ s
@[simp] theorem controls_closingEntry (b : Nat) : (closingEntry b s).controls = s.controls := by simp [closingEntry]
@[simp] theorem controls_settlePending (b : Nat) : (settlePending b s).controls = s.controls := by
  unfold settlePending
  split <;> simp
@[simp] theorem controls_closeRequest (b : Nat) (r : CloseReason) : (closeRequest b r s).controls = s.controls := by
  unfold closeRequest
  split <;> simp
@[simp] theorem controls_profileClose (b : Nat) : (profileClose s b).controls = s.controls := by
  unfold profileClose
  split <;> simp
@[simp] theorem controls_dischargeAll : (dischargeAll s).controls = s.controls :=
  controls_foldl _ (fun s b => controls_dischargeStart s b) _ s

/-! ## The line, the gauge, the Plan Engine -/

@[simp] theorem controls_lineTo (l : LineState) (c : LineCause) : (lineTo l c s).controls = s.controls := rfl
@[simp] theorem controls_gaugeCancel (c : GaugeCause) : (gaugeCancel c s).controls = s.controls := by
  simp [State.controls]
@[simp] theorem controls_takeUp : (takeUp s).controls = s.controls := by simp [State.controls]
@[simp] theorem controls_abandon (t : Nat) : (abandon t s).controls = s.controls := by simp [State.controls]
@[simp] theorem controls_planLate (t : Nat) (r : UncutReason) (a : Bool) :
    (planLate t r a s).controls = s.controls := by simp [State.controls]
@[simp] theorem controls_scanDiscard (r : DiscardReason) (t c : Nat) :
    (scanDiscard r t c s).controls = s.controls := rfl

/-- A plan written reserves on the order lines alone (R60, R72). -/
@[simp] theorem controls_writePlan (r : Strip) (n : Snapshot) : (writePlan r n s).controls = s.controls := by
  unfold writePlan
  dsimp only
  split
  · rfl
  · next ps _ =>
    obtain ⟨_, _, _, hf⟩ := reservePieces_spec (r.scan.getD { colour := 0, defects := [] }).colour (_ :: _) s
    rw [hf]
    rfl

@[simp] theorem controls_planCompletion : (planCompletion s).controls = s.controls := by
  unfold planCompletion
  split
  · rfl
  · dsimp only
    split <;> simp

@[simp] theorem controls_deadlineAction (r : Strip) : (deadlineAction r s).controls = s.controls := by
  unfold deadlineAction
  split
  · rfl
  · rfl
  · simp
  · split
    · simp
    · split <;> simp

@[simp] theorem controls_deliverDeadline (t : Nat) : (deliverDeadline t s).controls = s.controls := by
  unfold deliverDeadline
  split
  · rfl
  · split
    · rfl
    · split <;> simp

@[simp] theorem controls_takeScanRecord (p : List Byte) : (takeScanRecord p s).controls = s.controls := by
  unfold takeScanRecord
  dsimp only
  split
  · split <;> rfl
  · split
    · rfl
    · simp [scanAccept]

@[simp] theorem controls_scanRecordReceived (p : List Byte) : (scanRecordReceived p s).controls = s.controls := by
  simp [scanRecordReceived]

/-! ## Strips and pieces -/

@[simp] theorem controls_forgetStrip (t : Nat) : (forgetStrip t s).controls = s.controls := rfl
@[simp] theorem controls_releasePlan (r : Strip) : (releasePlan r s).controls = s.controls := by
  rw [releasePlan_eq, releaseAll_frame]
  rfl
@[simp] theorem controls_allocateStrip (r : Strip) : (allocateStrip r s).controls = s.controls := rfl
@[simp] theorem controls_dropPiece (t i : Nat) : (dropPiece t i s).controls = s.controls := rfl
@[simp] theorem controls_addBin0 (n : Nat) : (addBin0 n s).controls = s.controls := rfl
@[simp] theorem controls_countBin0 (r : Bin0Reason) : (countBin0 r s).controls = s.controls := by cases r <;> rfl
@[simp] theorem controls_enterPiece (p : Piece) : (enterPiece p s).controls = s.controls := by simp [State.controls]
@[simp] theorem controls_markForced (t : Nat) : (markForced t s).controls = s.controls := rfl
@[simp] theorem controls_countCreated : (countCreated s).controls = s.controls := rfl

@[simp] theorem controls_assign (b : Nat) (p : Piece) : (assign b p s).controls = s.controls := by
  unfold assign
  dsimp only
  split <;> simp

@[simp] theorem controls_clearPiece (p : Piece) : (clearPiece s p).controls = s.controls := by
  unfold clearPiece
  dsimp only
  split <;> simp

@[simp] theorem controls_createUncut (c : CutList) (r : Strip) : (createUncut c r s).controls = s.controls := by
  simp [createUncut]

@[simp] theorem controls_createAt (i : Option Nat) (c : CutList) (r : Strip) :
    (createAt i c r s).controls = s.controls := by
  unfold createAt
  split
  · rfl
  · unfold createPlanned
    split
    · rfl
    · split <;> simp

@[simp] theorem controls_cutMade (c : CutList) (x : Nat) (r : Strip) : (cutMade c x r s).controls = s.controls := by
  have hfire : (s.firesCut c.tag x).controls = s.controls := rfl
  rw [cutMade_eq]
  split <;> simp [hfire]

@[simp] theorem controls_cutMissed (c : CutList) (x : Nat) (r : Strip) :
    (cutMissed c x r s).controls = s.controls := by
  have hmiss : (s.missesCut c.tag x).controls = s.controls := rfl
  rw [cutMissed_eq]
  split <;> simp [hmiss]

@[simp] theorem controls_trailCreation (c : CutList) (r : Strip) : (trailCreation c r s).controls = s.controls := by
  unfold trailCreation
  split <;> simp

@[simp] theorem controls_slipCheck (r : Strip) (l : Nat) : (slipCheck r l s).controls = s.controls := by
  unfold slipCheck
  split
  · rfl
  · split <;> rfl

/-! ## Eyes, pulses, the line's levels -/

@[simp] theorem controls_setHolder (e : TrimEye) (h : Option Nat) : (setHolder e h s).controls = s.controls := rfl
@[simp] theorem controls_setLevel (e : TrimEye) (b : Bool) : (setLevel e b s).controls = s.controls := rfl
@[simp] theorem controls_countStray (e : TrimEye) : (countStray e s).controls = s.controls := rfl
@[simp] theorem controls_levelsFollow : (levelsFollow s).controls = s.controls := rfl
@[simp] theorem controls_dropOutputs : (dropOutputs s).controls = s.controls := rfl
@[simp] theorem controls_clearLine : (clearLine s).controls = s.controls := rfl

@[simp] theorem controls_clearStrips : (clearStrips s).controls = s.controls := by
  rw [clearStrips_eq]
  rfl

@[simp] theorem controls_clearPieces : (clearPieces s).controls = s.controls :=
  controls_foldl clearPiece controls_clearPiece _ s

@[simp] theorem controls_announce (a : Announcement) : (announce a s).controls = s.controls := by
  unfold announce
  split <;> rfl

@[simp] theorem controls_scanLead : (scanLead s).controls = s.controls := by
  unfold scanLead
  split
  · unfold scanMatch
    dsimp only
    split <;> simp
  · rfl

@[simp] theorem controls_sawLead : (sawLead s).controls = s.controls := by
  unfold sawLead
  split <;> rfl

@[simp] theorem controls_gaugeMark : (gaugeMark s).controls = s.controls := by
  unfold gaugeMark
  dsimp only
  split
  · rfl
  · split <;> rfl

@[simp] theorem controls_gaugeTrail : (gaugeTrail s).controls = s.controls := by
  unfold gaugeTrail
  split <;> rfl

@[simp] theorem controls_barEnd : (barEnd s).controls = s.controls := by
  unfold barEnd
  split
  · split <;> rfl
  · rfl

@[simp] theorem controls_measureTrail : (measureTrail s).controls = s.controls := by
  unfold measureTrail
  split
  · simp
  · split
    · rfl
    · dsimp only
      split
      · rfl
      · unfold lengthWrite
        split <;> simp

@[simp] theorem controls_encoderPulse (e : Encoder) (d : Direction) : (encoderPulse e d s).controls = s.controls := by
  unfold encoderPulse
  split
  · rfl
  · cases e <;> rfl

/-! ## Pacing, bins, labels -/

@[simp] theorem controls_periodStart : (periodStart s).controls = s.controls := by
  unfold periodStart
  dsimp only
  split <;> rfl

@[simp] theorem controls_nextSlot : (nextSlot s).controls = s.controls := rfl
@[simp] theorem controls_fedSlot : (fedSlot s).controls = s.controls := rfl

@[simp] theorem controls_disableTaken (n : Nat) : (disableTaken n s).controls = s.controls := by
  unfold disableTaken
  split
  · rfl
  · split <;> simp
  · rfl

@[simp] theorem controls_cartChange (n : Nat) (a : Bool) : (cartChange n a s).controls = s.controls := by
  have told (u : State) : (if cartMasked (binAt s n) a then u else u.raise (.cart n a)).controls = u.controls := by
    split <;> rfl
  unfold cartChange
  split
  · rfl
  · dsimp only
    split
    · rw [controls_dischargeStart, told]; rfl
    · rw [told]; rfl

@[simp] theorem controls_dischargeEnd (n : Nat) : (dischargeEnd n s).controls = s.controls := by
  unfold dischargeEnd
  split <;> rfl

@[simp] theorem controls_labelState (b : Option Nat) (l : LabelState) : (labelState b l s).controls = s.controls := by
  unfold labelState
  split <;> rfl

/-- A running time runs on for 1 ms, at 0 too (log 1). -/
theorem controls_tick : (tick s).controls = s.controls := by
  unfold tick
  split <;> simp [State.controls, tickAlways, tickHeld, Tsc.group, Pfc.stage, Prq.engagement, countDown]

end

/-- The search of the bins offers and counts (R122). -/
@[simp] theorem controls_searchBins (p : Piece) (bs : List Nat) (s : State) :
    (searchBins p bs s).1.controls = s.controls := by
  induction bs generalizing s with
  | nil => rfl
  | cons b bs ih =>
    unfold searchBins
    split
    · dsimp only
      split
      · rfl
      · exact ih _
    · exact ih s

end Sys2Proof.Machine
end

section
/-! PROOFS. The cutter group, the changeover and the print port: each operation that changes one of the three keeps it
sound (O6). -/

namespace Sys2Proof.Machine

open Sys2Proof

/-! ## The cutter group (R103 to R109) -/

/-- The cutter group just sent to SPINUP, or to OFF, is sound whatever it was. -/
theorem upholds_enterSpinup (c : CutterCause) (s : State) : Upholds s (enterSpinup c s) :=
  .of_tsc rfl rfl fun _ => by simp [State.cutterSound, enterSpinup_eq, Tsc.spinningUp]

theorem cutterOff_tsc (c : CutterCause) (s : State) : (cutterOff c s).tsc = s.tsc.switchedOff := by
  by_cases h : s.tsc.cutter = .off <;> simp [cutterOff, cutterTo, h, Tsc.switchedOff]

theorem upholds_cutterOff (c : CutterCause) (s : State) : Upholds s (cutterOff c s) :=
  .of_tsc (by simp) (by simp) fun _ => by simp [State.cutterSound, cutterOff_tsc, Tsc.switchedOff]

/-- Outside STANDBY the residency timer does not run, and the latch does not stand (R103, R108). -/
theorem State.cutterSound.rested {s : State} (h : s.cutterSound) (hc : s.tsc.cutter ≠ .standby) :
    s.tsc.residTimer = none ∧ s.tsc.wake = false := by
  obtain ⟨-, -, -, hresid, hwake⟩ := h
  have hnone : s.tsc.residTimer = none := Option.not_isSome_iff_eq_none.mp fun h => hc (hresid h)
  exact ⟨hnone, by simpa [hnone] using hwake⟩

/-- Outside SPINUP the spin-up timer does not run (R103). -/
theorem State.cutterSound.unspun {s : State} (h : s.cutterSound) (hc : s.tsc.cutter ≠ .spinup) :
    s.tsc.spinTimer = none := by
  obtain ⟨-, hspin, -⟩ := h
  exact Option.not_isSome_iff_eq_none.mp (by simpa [hspin] using hc)

/-- Outside IDLE_WAIT the hysteresis timer does not run (R103). -/
theorem State.cutterSound.active {s : State} (h : s.cutterSound) (hc : s.tsc.cutter ≠ .idleWait) :
    s.tsc.hystTimer = none := by
  obtain ⟨-, -, hhyst, -⟩ := h
  exact Option.not_isSome_iff_eq_none.mp (by simpa [hhyst] using hc)

theorem upholds_idleTest (s : State) : Upholds s (idleTest s) := by
  unfold idleTest
  split
  · next h =>
    simp only [Bool.and_eq_true, beq_iff_eq] at h
    obtain ⟨⟨hc, -⟩, -⟩ := h
    refine .of_tsc rfl rfl fun hs => ?_
    obtain ⟨hr, hw⟩ := hs.rested (by simp [hc])
    simp [State.cutterSound, cutterTo, Cutter.driven, hr, hw, hs.unspun (by simp [hc])]
  · exact .refl s

theorem upholds_activity (s : State) : Upholds s (activity s) := by
  unfold activity
  split
  · next h =>
    have hc : s.tsc.cutter = .idleWait := by simpa using h
    refine .of_tsc rfl rfl fun hs => ?_
    obtain ⟨hr, hw⟩ := hs.rested (by simp [hc])
    simp [State.cutterSound, cutterTo, Cutter.driven, hr, hw, hs.unspun (by simp [hc])]
  · exact .refl s

theorem upholds_wakeReport (s : State) : Upholds s (wakeReport s) := by
  unfold wakeReport
  split
  · split
    · exact upholds_enterSpinup _ s
    · next hr =>
      exact .of_tsc rfl rfl fun ⟨h1, h2, h3, h4, _⟩ => ⟨h1, h2, h3, h4, fun _ => by simp [hr]⟩
  · exact .refl s

theorem upholds_spinupExpiry (s : State) : Upholds s (spinupExpiry s) := by
  unfold spinupExpiry
  split
  · next h =>
    simp only [Bool.and_eq_true, beq_iff_eq] at h
    obtain ⟨hc, -⟩ := h
    refine (upholds_idleTest _).after (.of_tsc rfl rfl fun hs => ?_)
    obtain ⟨hr, hw⟩ := hs.rested (by simp [hc])
    simp [State.cutterSound, cutterTo, Cutter.driven, hr, hw, hs.active (by simp [hc])]
  · exact .refl s

theorem upholds_hysteresisExpiry (s : State) : Upholds s (hysteresisExpiry s) := by
  unfold hysteresisExpiry
  split
  · next h =>
    simp only [Bool.and_eq_true, beq_iff_eq] at h
    obtain ⟨hc, -⟩ := h
    refine .of_tsc rfl rfl fun hs => ?_
    simp [State.cutterSound, cutterTo, Cutter.driven, hs.unspun (by simp [hc])]
  · exact .refl s

theorem upholds_residencyExpiry (s : State) : Upholds s (residencyExpiry s) := by
  unfold residencyExpiry
  split
  · dsimp only
    split
    · exact .of_tsc rfl rfl fun _ => by simp [State.cutterSound, enterSpinup_eq, Tsc.spinningUp]
    · next hw =>
      refine .of_tsc rfl rfl fun ⟨h1, h2, h3, _, _⟩ => ⟨h1, h2, h3, fun e => by simp at e, fun e => absurd e hw⟩
  · exact .refl s

/-- The end of STOPPING switches the cutter group off (R18, R109). -/
theorem upholds_endStopping (s : State) : Upholds s (endStopping s) := by
  unfold endStopping
  split
  · exact (upholds_cutterOff _ _).after_same (by simp)
  · exact .refl s

theorem upholds_feedReadyChange (b : Bool) (s : State) : Upholds s (feedReadyChange b s) := by
  unfold feedReadyChange
  dsimp only
  split
  · exact (upholds_activity _).after_same (by simp)
  · exact (upholds_idleTest _).after_same (by simp)

theorem upholds_feedReadyEdge (b : Bool) (s : State) : Upholds s (feedReadyEdge b s) := by
  unfold feedReadyEdge
  split
  · exact .refl s
  · dsimp only
    split
    · exact .of_controls (by simp)
    · exact (upholds_feedReadyChange _ _).after_same (by simp)

theorem upholds_decideSlot (s : State) : Upholds s (decideSlot s) := by
  unfold decideSlot
  split
  · exact .of_controls (by simp)
  · split
    · unfold heldSlot
      dsimp only
      split
      · exact (upholds_wakeReport _).after_same (by simp)
      · exact .of_controls (by simp)
    · split <;> exact .of_controls (by simp)

theorem upholds_slotEvent (s : State) : Upholds s (slotEvent s) := by
  unfold slotEvent
  split
  · dsimp only
    refine (upholds_decideSlot _).after_same ?_
    split <;> simp
  · exact .refl s

/-! ## The changeover (R89 to R93) -/

/-- A target stands outside RUNNING (section 6.5). -/
theorem State.changeoverSound.targeted {s : State} (h : s.changeoverSound) (hc : s.pfc.changeover ≠ .running) :
    s.pfc.target.isSome = true := by
  obtain ⟨-, -, ht⟩ := h
  rw [ht]
  simpa using hc

/-- The drain test passes from DRAINING, where a target stands, to TOOLING (R90). -/
theorem upholds_drainTest (s : State) : Upholds s (drainTest s) := by
  unfold drainTest
  split
  · next h =>
    simp only [Bool.and_eq_true, beq_iff_eq] at h
    obtain ⟨hc, -⟩ := h
    have hclosed : (binNumbers.foldl profileClose s).controls = s.controls :=
      controls_foldl _ (fun s b => controls_profileClose s b) _ s
    have hc' : (binNumbers.foldl profileClose s).pfc.changeover = .draining := by simp [hc]
    dsimp only
    generalize binNumbers.foldl profileClose s = u at hclosed hc'
    refine .trans (t := u) (.of_controls hclosed) (.of_pfc rfl rfl fun hs => ?_)
    exact ⟨rfl, rfl, hs.targeted (by simp [hc'])⟩
  · exact .refl s

theorem upholds_backToRunning (s : State) : Upholds s (backToRunning s) :=
  .of_pfc rfl rfl fun _ => ⟨rfl, rfl, rfl⟩

/-- A change to DRAINING, to another target there, or from TOOL_FAULT to TOOLING (R88, R89, R93). -/
theorem upholds_changeTaken (n : Nat) (s : State) : Upholds s (changeTaken n s) := by
  unfold changeTaken
  split
  · next hc =>
    split
    · exact .refl s
    · refine (upholds_drainTest _).after (.of_pfc rfl rfl fun ⟨hrequest, htimer, _⟩ => ?_)
      rw [hc] at hrequest htimer
      exact ⟨hrequest, htimer, rfl⟩
  · next hc =>
    split
    · exact .refl s
    · split
      · exact upholds_backToRunning s
      · exact .of_pfc rfl rfl fun ⟨hrequest, htimer, _⟩ => ⟨hrequest, htimer, by simp [hc]⟩
  · exact .refl s
  · next hc =>
    refine .of_pfc rfl rfl fun ⟨hrequest, _, _⟩ => ?_
    rw [hc] at hrequest
    exact ⟨hrequest, rfl, rfl⟩

theorem upholds_abortTaken (s : State) : Upholds s (abortTaken s) := by
  unfold abortTaken
  split
  · exact .refl s
  · exact (upholds_backToRunning _).after_same rfl

theorem upholds_toolingReadyRise (s : State) : Upholds s (toolingReadyRise s) := by
  unfold toolingReadyRise
  split
  · exact .refl s
  · dsimp only
    split
    · exact .of_pfc rfl rfl fun _ => ⟨rfl, rfl, rfl⟩
    · exact .of_controls rfl

theorem upholds_toolingTimerExpiry (s : State) : Upholds s (toolingTimerExpiry s) := by
  unfold toolingTimerExpiry
  split
  · next h =>
    simp only [Bool.and_eq_true, beq_iff_eq] at h
    obtain ⟨hc, -⟩ := h
    refine .of_pfc rfl rfl fun hs => ?_
    have htarget := hs.targeted (by simp [hc])
    obtain ⟨hrequest, -⟩ := hs
    rw [hc] at hrequest
    exact ⟨hrequest, rfl, htarget⟩
  · exact .refl s

/-! ## The print port (R163 to R168) -/

/-- Outside BUSY the timer, the strobe and a row transfer do not run (R165, R166). -/
theorem State.portSound.still {s : State} (h : s.portSound) (hp : s.prq.port ≠ .busy) :
    s.prq.timer.isSome = false ∧ s.prq.strobe = none ∧ s.prq.transfer = none := by
  obtain ⟨htimer, -, hstrobe, htransfer, -⟩ := h
  refine ⟨htimer.trans (by simpa using hp), ?_, ?_⟩ <;> rw [← Option.not_isSome_iff_eq_none]
  · exact fun e => hp (hstrobe e)
  · exact fun e => hp (htransfer e)

/-- Outside DONE no done pulse runs (R167). -/
theorem State.portSound.undone {s : State} (h : s.portSound) (hp : s.prq.port ≠ .done) :
    s.prq.donePulse.isSome = false := by
  obtain ⟨-, hdone, -⟩ := h
  exact hdone.trans (by simpa using hp)

/-- A print starts from the IDLE port (R163, R165). -/
theorem upholds_startTest (s : State) : Upholds s (startTest s) := by
  unfold startTest
  split
  · exact .refl s
  · split
    · next h =>
      simp only [startAllowed, Bool.and_eq_true, beq_iff_eq] at h
      obtain ⟨⟨⟨hp, -⟩, -⟩, -⟩ := h
      exact .of_prq rfl rfl fun hs =>
        ⟨rfl, hs.undone (by simp [hp]), fun _ => rfl, fun _ => rfl, fun _ => Nat.zero_le _⟩
    · exact .refl s

/-- A row transfer begins in BUSY (R166). -/
theorem upholds_rowRequest (s : State) : Upholds s (rowRequest s) := by
  unfold rowRequest
  split
  · exact .refl s
  · dsimp only
    split
    · next h =>
      simp only [Bool.and_eq_true, beq_iff_eq] at h
      obtain ⟨hp, -⟩ := h
      exact .of_prq rfl rfl fun ⟨h1, h2, h3, _, h5⟩ => ⟨h1, h2, h3, fun _ => hp, h5⟩
    · exact .of_controls rfl

/-- The port at the end of a label: DONE, with the done pulse the one time that runs (R167). -/
def Prq.labelEnded (p : Prq) : Prq :=
  { p with timer := none, port := .done, strobe := none, donePulse := some p.inForce.done }

theorem controls_labelEnd (s : State) : (labelEnd s).controls = (s.setPrq s.prq.labelEnded).controls := by
  have counted (u : State) : (u.setPrq { u.prq with printed := bump u.prq.printed }).controls = u.controls := rfl
  unfold labelEnd
  dsimp only
  rw [controls_attempt, controls_modSlot, counted, controls_raise, controls_labelState]
  rfl

/-- A row transfer's end leaves row 255 the last to send, or ends the label (R166, R167). -/
theorem upholds_rowTransferEnd (s : State) : Upholds s (rowTransferEnd s) := by
  unfold rowTransferEnd
  split
  · dsimp only
    split
    · refine (Upholds.of_controls (controls_labelEnd _)).after (.of_prq rfl rfl fun _ => ?_)
      exact ⟨rfl, rfl, nofun, nofun, nofun⟩
    · next hn =>
      refine .of_prq rfl rfl fun ⟨h1, h2, h3, _, h5⟩ => ⟨h1, h2, h3, nofun, fun e => ?_⟩
      have := h5 e
      simp only [State.setPrq_prq] at hn ⊢
      omega
  · exact .refl s

/-- A print fails in BUSY, and the port is IDLE again (R168). -/
theorem upholds_printFail (c : PrintCause) (s : State) (hp : s.prq.port = .busy) : Upholds s (printFail c s) := by
  cases c <;> exact .of_prq rfl rfl fun hs => ⟨rfl, hs.undone (by simp [hp]), nofun, nofun, nofun⟩

theorem upholds_printFaultAssert (s : State) : Upholds s (printFaultAssert s) := by
  unfold printFaultAssert
  split
  · exact .refl s
  · dsimp only
    split
    · next hp => exact (upholds_printFail _ _ (by simpa using hp)).after_same (by simp)
    · exact .of_controls rfl

theorem upholds_printFaultRelease (s : State) : Upholds s (printFaultRelease s) := by
  unfold printFaultRelease
  split
  · exact (upholds_startTest _).after_same (by simp)
  · exact .refl s

theorem upholds_printTimerExpiry (s : State) : Upholds s (printTimerExpiry s) := by
  unfold printTimerExpiry
  split
  · next h =>
    simp only [Bool.and_eq_true, beq_iff_eq] at h
    exact upholds_printFail _ s h.1
  · exact .refl s

theorem upholds_printReadyRise (s : State) : Upholds s (printReadyRise s) := by
  unfold printReadyRise
  split
  · exact .refl s
  · exact (upholds_startTest _).after_same (by simp)

/-- The strobe's end leaves the port as it is (R165). -/
theorem upholds_strobeEnd (s : State) : Upholds s (s.setPrq { s.prq with strobe := none }) :=
  .of_prq rfl rfl fun ⟨h1, h2, _, h4, h5⟩ => ⟨h1, h2, fun e => by simp at e, h4, h5⟩

/-- The done pulse's end leaves the port IDLE, and the start test follows (R167, R163). -/
theorem upholds_donePulseEnd (s : State) : Upholds s (donePulseEnd s) := by
  unfold donePulseEnd
  split
  · next h =>
    simp only [Bool.and_eq_true, beq_iff_eq] at h
    obtain ⟨hp, -⟩ := h
    refine (upholds_startTest _).after (.of_prq rfl rfl fun hs => ?_)
    obtain ⟨htimer, hstrobe, htransfer⟩ := hs.still (by simp [hp])
    exact ⟨htimer, rfl, by simp [hstrobe], by simp [htransfer], nofun⟩
  · exact .refl s

theorem upholds_retrySlot (k : Nat) (s : State) : Upholds s (retrySlot k s) := by
  unfold retrySlot
  exact (upholds_startTest _).after_same rfl

theorem upholds_dropSlot (k : Nat) (s : State) : Upholds s (dropSlot k s) := by
  have counted (u : State) : (u.setPrq { u.prq with drops := bump u.prq.drops }).controls = u.controls := rfl
  exact (upholds_startTest _).after_same (by
    rw [controls_attempt, controls_modSlot, counted, controls_labelState])

theorem upholds_finishRender (k n : Nat) (l : Image × List Nat) (s : State) : Upholds s (finishRender k n l s) :=
  (upholds_startTest _).after_same rfl

theorem upholds_renderCompletion (s : State) : Upholds s (renderCompletion s) := by
  unfold renderCompletion
  split
  · exact .refl s
  · split
    · exact .refl s
    · split
      · exact .refl s
      · exact upholds_finishRender _ _ _ s

end Sys2Proof.Machine
end

section
/-! PROOFS. Every step keeps the cutter group, the changeover and the print port sound (O6): the events and requests
that come to an operation on one of the three. -/

namespace Sys2Proof.Machine

open Sys2Proof

/-! ## Removals of strips and pieces -/

theorem upholds_afterPiece (s : State) : Upholds s (afterPiece s) :=
  (upholds_drainTest _).after (upholds_endStopping s)

theorem upholds_afterStrip (s : State) : Upholds s (afterStrip s) :=
  (upholds_drainTest _).after ((upholds_idleTest _).after (upholds_endStopping s))

theorem upholds_removeStrip (r : Strip) (s : State) : Upholds s (removeStrip r s) :=
  (upholds_afterStrip _).after_same (by simp)

theorem upholds_windowExpiry (e : TrimEye) (t : Nat) (s : State) : Upholds s (windowExpiry e t s) := by
  unfold windowExpiry
  split
  · exact .refl s
  · split
    · exact .refl s
    · split
      · exact (upholds_removeStrip _ _).after_same (by simp)
      · exact .refl s

theorem upholds_toBin0 (r : Bin0Reason) (p : Piece) (s : State) : Upholds s (toBin0 r p s) :=
  (upholds_afterPiece _).after_same (by simp)

theorem upholds_binSearch (p : Piece) (s : State) : Upholds s (binSearch p s) := by
  unfold binSearch
  split
  · exact upholds_toBin0 _ _ _
  · split
    · exact upholds_toBin0 _ _ _
    · have hsearch := controls_searchBins p binNumbers s
      split
      · next t b h =>
        rw [h] at hsearch
        exact .of_controls ((controls_assign t b p).trans hsearch)
      · next t h =>
        rw [h] at hsearch
        exact (upholds_toBin0 _ _ _).after_same hsearch

theorem upholds_dropLead (s : State) : Upholds s (dropLead s) := by
  unfold dropLead
  split
  · exact upholds_binSearch _ s
  · exact .of_controls rfl

theorem upholds_dropEdge (b : Bool) (s : State) : Upholds s (dropEdge b s) := by
  unfold dropEdge
  split
  · exact .refl s
  · dsimp only
    split
    · exact .of_controls rfl
    · exact .of_controls rfl
    · split
      · exact (upholds_dropLead _).after_same rfl
      · exact .of_controls rfl

theorem upholds_dropExpiry (t i : Nat) (s : State) : Upholds s (dropExpiry t i s) := by
  unfold dropExpiry
  split
  · exact .refl s
  · split
    · exact .refl s
    · split
      · exact (upholds_afterPiece _).after_same (by simp)
      · exact .refl s

theorem upholds_land (b : Nat) (p : Piece) (s : State) : Upholds s (land b p s) :=
  (upholds_afterPiece _).after_same (by simp)

theorem upholds_diverterFire (t i : Nat) (s : State) : Upholds s (diverterFire t i s) := by
  unfold diverterFire
  split
  · exact .refl s
  · split
    · exact .refl s
    · split
      · exact (upholds_land _ _ _).after_same rfl
      · exact .refl s

/-! ## The saw and the eyes -/

theorem upholds_doneTest (t : Nat) (s : State) : Upholds s (doneTest t s) := by
  unfold doneTest
  split
  · split
    · exact upholds_removeStrip _ s
    · exact .refl s
  · exact .refl s

theorem upholds_cutDue (t : Nat) (s : State) : Upholds s (cutDue t s) := by
  unfold cutDue
  split
  · split
    · exact .refl s
    · split
      · refine (upholds_doneTest _ _).after_same ?_
        split <;> simp
      · exact .refl s
  · exact .refl s

theorem upholds_sawTrailEdge (s : State) : Upholds s (sawTrailEdge s) := by
  unfold sawTrailEdge
  split
  · exact .refl s
  · dsimp only
    split
    · exact .of_controls rfl
    · unfold sawTrail
      split
      · exact .of_controls rfl
      · exact (upholds_doneTest _ _).after_same (by simp)

/-- A stray with a record is activity for the cutter group (R8, R106). -/
theorem upholds_measureLead (s : State) : Upholds s (measureLead s) := by
  unfold measureLead
  split
  · exact .of_controls (by simp)
  · split
    · exact .of_controls rfl
    · unfold measureStray
      dsimp only
      split
      · exact (upholds_activity _).after_same (by simp)
      · exact .of_controls rfl

theorem upholds_takeEdge (e : TrimEye) (b : Bool) (s : State) : Upholds s (takeEdge e b s) := by
  cases e <;> cases b
  case measure.true => exact upholds_measureLead s
  case saw.false => exact upholds_sawTrailEdge s
  all_goals exact .of_controls (by simp [takeEdge])

theorem upholds_trimEdge (e : TrimEye) (b : Bool) (s : State) : Upholds s (trimEdge e b s) := by
  unfold trimEdge
  split
  · exact .refl s
  · dsimp only
    split
    · exact .of_controls rfl
    · exact .of_controls rfl
    · exact (upholds_takeEdge _ _ _).after_same rfl

/-! ## The emergency stop, resets, and the line's requests -/

theorem upholds_enterHalted (s : State) : Upholds s (enterHalted s) :=
  .trans ((upholds_cutterOff _ _).after_same (by simp)) (.of_controls (controls_gaugeCancel _ _))

theorem upholds_estopAssert (s : State) : Upholds s (estopAssert s) := by
  unfold estopAssert
  dsimp only
  split
  · exact .of_controls rfl
  · exact (upholds_enterHalted _).after_same rfl

/-- After reset the three are at rest (R103, section 6.5, section 11.2). -/
theorem upholds_freshState (s : State) : Upholds s (freshState s) := by
  refine ⟨fun _ => ?_, fun _ => ⟨rfl, rfl, rfl⟩, fun _ => ⟨rfl, rfl, nofun, nofun, nofun⟩⟩
  simp [State.cutterSound, freshState, State.reset]

theorem upholds_resetAll (s : State) : Upholds s (resetAll s) := by
  unfold resetAll
  split
  · exact (upholds_enterHalted _).after (upholds_freshState s)
  · exact upholds_freshState s

theorem upholds_stopRunning (s : State) : Upholds s (stopRunning s) := by
  unfold stopRunning
  split
  · exact .trans ((upholds_cutterOff _ _).after_same (by simp)) (.of_controls (controls_gaugeCancel _ _))
  · exact .of_controls (by simp)

theorem upholds_resumeEdge (e : TrimEye) (s : State) : Upholds s (resumeEdge e s) := by
  unfold resumeEdge
  dsimp only
  split
  · exact .refl s
  · exact (upholds_takeEdge _ _ _).after_same rfl

theorem upholds_resumeDrop (s : State) : Upholds s (resumeDrop s) := by
  unfold resumeDrop
  dsimp only
  split
  · exact .refl s
  · split
    · exact (upholds_dropLead _).after_same rfl
    · exact .of_controls rfl

theorem upholds_resumeFeed (s : State) : Upholds s (resumeFeed s) := by
  unfold resumeFeed
  split
  · exact .refl s
  · exact upholds_feedReadyChange _ s

theorem upholds_resume (s : State) : Upholds s (resume s) := by
  unfold resume
  dsimp only
  have hcaughtUp (u : State) :
      Upholds u (resumeFeed (resumeDrop (resumeEdge .saw (resumeEdge .scan (resumeEdge .measure u))))) :=
    (upholds_resumeFeed _).after ((upholds_resumeDrop _).after ((upholds_resumeEdge _ _).after
      ((upholds_resumeEdge _ _).after (upholds_resumeEdge _ u))))
  refine (Upholds.of_controls (controls_dischargeAll _)).after ((upholds_enterSpinup _ _).after
    ((Upholds.of_controls (controls_raise _ _)).after ((hcaughtUp _).after_same rfl)))

theorem upholds_clearAll (s : State) : Upholds s (clearAll s) := (upholds_drainTest _).after_same (by simp)

/-! ## The owners of the requests -/

/-- A request taken upholds the conditions; a refusal changes nothing. -/
def OkUpholds (s : State) (a : Answer) : Prop := ∀ t d, a = .ok (t, d) → Upholds s t

@[simp] theorem okUpholds_taken (s t : State) (d : List Byte) : OkUpholds s (taken t d) ↔ Upholds s t :=
  ⟨fun h => h t d rfl, fun h u e he => by cases he; exact h⟩

@[simp] theorem okUpholds_error (s : State) (c : ResultCode) : OkUpholds s (.error c) :=
  fun _ _ he => by cases he

@[simp] theorem okUpholds_refuseIf (s : State) (b : Bool) (c : ResultCode) (a : Answer) :
    OkUpholds s (refuseIf b c a) ↔ (b = false → OkUpholds s a) := by
  cases b <;> simp

@[simp] theorem okUpholds_refuseHalted (s : State) (a : Answer) :
    OkUpholds s (refuseHalted s a) ↔ (s.ltr.lineState ≠ .halted → OkUpholds s a) := by
  simp [refuseHalted]

@[simp] theorem okUpholds_refuseHeld (s : State) (a : Answer) :
    OkUpholds s (refuseHeld s a) ↔ (s.lcp.hold = false → OkUpholds s a) := by
  simp [refuseHeld]

@[simp] theorem okUpholds_refuseWatching (s : State) (a : Answer) :
    OkUpholds s (refuseWatching s a) ↔ (watching s = false → OkUpholds s a) := by
  simp [refuseWatching]

@[simp] theorem upholds_refl (s : State) : Upholds s s := .refl s
@[simp] theorem upholds_setMsu (s : State) (v : Msu) : Upholds s (s.setMsu v) := .of_controls rfl
@[simp] theorem upholds_setPle (s : State) (v : Ple) : Upholds s (s.setPle v) := .of_controls rfl
@[simp] theorem upholds_setFdp (s : State) (v : Fdp) : Upholds s (s.setFdp v) := .of_controls rfl
@[simp] theorem upholds_setSrt (s : State) (v : Srt) : Upholds s (s.setSrt v) := .of_controls rfl
@[simp] theorem upholds_setBdb (s : State) (v : Bdb) : Upholds s (s.setBdb v) := .of_controls rfl
@[simp] theorem upholds_setLcp (s : State) (v : Lcp) : Upholds s (s.setLcp v) := .of_controls rfl
@[simp] theorem upholds_setLif (s : State) (v : Lif) : Upholds s (s.setLif v) := .of_controls rfl
@[simp] theorem upholds_modLine (s : State) (k : Nat) (f : OrderLine → OrderLine) : Upholds s (s.modLine k f) :=
  .of_controls rfl
@[simp] theorem upholds_closeRequest (s : State) (b : Nat) (r : CloseReason) : Upholds s (closeRequest b r s) :=
  .of_controls (by simp)
@[simp] theorem upholds_disableTaken (s : State) (n : Nat) : Upholds s (disableTaken n s) :=
  .of_controls (by simp)
@[simp] theorem upholds_gaugeCancel (s : State) (c : GaugeCause) : Upholds s (gaugeCancel c s) :=
  .of_controls (by simp)

theorem okUpholds_lineStart (s : State) : OkUpholds s (lineStart s) := by
  simp only [lineStart, okUpholds_refuseHalted, okUpholds_refuseIf]
  intro _ _
  split <;> rw [okUpholds_taken]
  · exact (upholds_enterSpinup _ _).after_same rfl
  · exact .of_controls rfl
  · exact .refl s

theorem okUpholds_lineStop (s : State) : OkUpholds s (lineStop s) := by
  simp only [lineStop, okUpholds_refuseHalted, okUpholds_taken]
  intro _
  split
  · exact upholds_stopRunning s
  · exact .refl s

theorem okUpholds_lineClear (s : State) : OkUpholds s (lineClear s) := by
  simp only [lineClear, okUpholds_refuseIf, okUpholds_taken]
  exact fun _ _ => upholds_clearAll s

theorem okUpholds_stripRead (n : Nat) (s : State) : OkUpholds s (stripRead n s) := by
  unfold stripRead
  split <;> simp

theorem okUpholds_orderClose (k : Nat) (s : State) : OkUpholds s (orderClose k s) := by
  simp only [orderClose, okUpholds_refuseHalted, okUpholds_refuseIf]
  intro _ _ _
  split <;> rw [okUpholds_taken] <;> exact .of_controls (by simp)

theorem okUpholds_manifestRead (n : Nat) (s : State) : OkUpholds s (manifestRead n s) := by
  unfold manifestRead
  split
  · simp
  · split <;> simp

theorem okUpholds_manifestTake (n : Nat) (s : State) : OkUpholds s (manifestTake n s) := by
  unfold manifestTake
  split
  · simp
  · simp only [okUpholds_refuseIf, okUpholds_taken]
    exact fun _ => .of_controls (by simp)

theorem okUpholds_tplOp (o : Nat) (m p : Byte) (s : State) : OkUpholds s (tplOp o m p s) := by
  simp only [tplOp, okUpholds_refuseHeld]
  intro _
  split
  · simp
  · exact (okUpholds_taken _ _ _).mpr (.of_controls rfl)

theorem okUpholds_tplHold (s : State) : OkUpholds s (tplHold s) := by
  unfold tplHold
  split <;> rw [okUpholds_taken] <;> exact .of_controls (by simp)

theorem okUpholds_printRetry (s : State) : OkUpholds s (printRetry s) := by
  unfold printRetry
  split
  · simp
  · exact (okUpholds_taken _ _ _).mpr (upholds_retrySlot _ s)

theorem okUpholds_printDrop (s : State) : OkUpholds s (printDrop s) := by
  unfold printDrop
  split
  · simp
  · exact (okUpholds_taken _ _ _).mpr (upholds_dropSlot _ s)

/-- The settings and the tables change no control. -/
theorem okUpholds_settings {s t : State} {b : Bool} {c : ResultCode} {d : List Byte} (h : t.controls = s.controls) :
    OkUpholds s (refuseHalted s <| refuseIf b c <| taken t d) := by
  simp only [okUpholds_refuseHalted, okUpholds_refuseIf, okUpholds_taken]
  exact fun _ _ => .of_controls h

/-- Every owner's answer upholds the conditions. -/
theorem okUpholds_ownerAnswer (i : Instr) (s : State) : OkUpholds s (ownerAnswer i s) := by
  cases i with
  | lineStart _ => exact okUpholds_lineStart s
  | lineStop _ => exact okUpholds_lineStop s
  | lineResume _ => simp [ownerAnswer, lineResume, upholds_resume]
  | lineClear _ => exact okUpholds_lineClear s
  | lineGeometry _ g =>
    simp only [ownerAnswer, lineGeometry, okUpholds_refuseHalted, okUpholds_refuseIf, okUpholds_taken]
    exact fun _ _ _ => .of_controls rfl
  | stripRead _ n => exact okUpholds_stripRead n s
  | orderAmend _ k d =>
    simp only [ownerAnswer, orderAmend, okUpholds_refuseHalted, okUpholds_refuseIf, okUpholds_taken]
    exact fun _ _ _ _ => .of_controls (by simp)
  | orderClose _ k => exact okUpholds_orderClose k s
  | profileSet _ n p =>
    simp only [ownerAnswer, profileSet, okUpholds_refuseHalted, okUpholds_refuseIf, okUpholds_taken]
    exact fun _ _ _ _ => .of_controls rfl
  | profileChange _ n => simp [ownerAnswer, profileChange, upholds_changeTaken]
  | profileAbort _ => simp [ownerAnswer, profileAbort, upholds_abortTaken]
  | trimSet _ t => exact okUpholds_settings rfl
  | headsSet _ h => exact okUpholds_settings rfl
  | binSet _ n e b =>
    simp only [ownerAnswer, binSet, okUpholds_refuseHalted, okUpholds_refuseIf, okUpholds_taken]
    exact fun _ _ _ _ _ => .of_controls rfl
  | manifestRead _ n => exact okUpholds_manifestRead n s
  | manifestTake _ n => exact okUpholds_manifestTake n s
  | tplOp _ o m p => exact okUpholds_tplOp o m p s
  | tplHold _ => exact okUpholds_tplHold s
  | printSet _ p =>
    simp only [ownerAnswer, printSet, okUpholds_refuseIf, okUpholds_taken]
    exact fun _ => .of_controls rfl
  | printRetry _ => exact okUpholds_printRetry s
  | printDrop _ => exact okUpholds_printDrop s
  | _ =>
    simp [ownerAnswer, measureSet, gaugeTable, gaugeVerify, gaugeCancelRequest, gaugeRelease, gradeSet, weightSet,
      classSet, valueSet, planOptions, orderLoad, orderRead, paceSet, sortSet, binClose, binDisable, binRead, cartMask,
      tplWindow, tplAddr, tplWrite, tplFill, tplRead, tplClear, tplRelease, glyphWrite, protectSet, fieldSet, setDate,
      noticePoll, noticeMask]

/-! ## Requests and frames -/

theorem upholds_request (k t : Byte) (o : State → Answer) (s : State) (h : OkUpholds s (o s)) :
    Upholds s (request k t o s) := by
  unfold request
  split
  · exact .of_controls (by simp)
  · split
    · next ho => exact (Upholds.of_controls (controls_setReply _ _ _ _ _ _)).after (h _ _ ho)
    · exact .of_controls rfl

theorem upholds_unanswered (o : State → Answer) (s : State) (h : OkUpholds s (o s)) : Upholds s (unanswered o s) := by
  unfold unanswered
  split
  · next ho => exact h _ _ ho
  · exact .refl s

theorem upholds_resetRequest (t : Byte) (s : State) : Upholds s (resetRequest t s) := by
  unfold resetRequest
  split <;> exact .of_controls (by simp)

theorem upholds_addressedFrame (k t : Byte) (p : List Byte) (s : State) : Upholds s (addressedFrame k t p s) := by
  unfold addressedFrame
  split
  · exact upholds_resetRequest _ s
  · exact upholds_request _ _ _ s (okUpholds_ownerAnswer _ s)
  · exact upholds_request _ _ _ s (okUpholds_error s _)

/-- A broadcast's own request: RESET, SET_DATE or LINE_STOP (R176). -/
theorem upholds_broadcastFrame (k : Byte) (p : List Byte) (s : State) : Upholds s (broadcastFrame k p s) := by
  unfold broadcastFrame
  split
  · exact .of_controls (by simp)
  · split
    · exact upholds_resetAll s
    · split
      · exact upholds_unanswered _ s (okUpholds_ownerAnswer (.setDate 0 p) s)
      · split
        · exact upholds_unanswered _ s (okUpholds_lineStop s)
        · exact upholds_setLif s _

theorem upholds_scanFrame (k : Byte) (p : List Byte) (s : State) : Upholds s (scanFrame k p s) := by
  unfold scanFrame
  split
  · exact .of_controls (by simp)
  · exact upholds_setLif s _

theorem upholds_frameCheck (k : Link) (b : List Byte) (s : State) : Upholds s (frameCheck k b s) := by
  unfold frameCheck
  dsimp only
  split
  · split
    · unfold controlFrame
      split
      · exact upholds_addressedFrame _ _ _ s
      · split
        · exact upholds_broadcastFrame _ _ s
        · exact upholds_setLif s _
    · unfold scanLinkFrame
      split
      · exact upholds_scanFrame _ _ s
      · exact upholds_setLif s _
  · exact upholds_setLif s _

/-- A byte taken changes the link interface, and its frame's last byte runs the frame (R172, R173). -/
theorem upholds_framerByte (k : Link) (b : Byte) (s : State) : Upholds s (framerByte k b s) := by
  unfold framerByte
  split
  · exact .refl s
  · dsimp only
    split
    · unfold huntByte
      split <;> exact upholds_setLif s _
    · unfold headerByte
      split
      · exact upholds_setLif s _
      · split
        · exact upholds_setLif s _
        · split <;> exact upholds_setLif s _
    · exact upholds_setLif s _
    · unfold crcByteTaken
      split
      · exact upholds_setLif s _
      · exact (upholds_frameCheck k _ _).after (upholds_setLif s _)

theorem upholds_gapExpiry (k : Link) (s : State) : Upholds s (gapExpiry k s) := by
  unfold gapExpiry
  split
  · exact .refl s
  · exact upholds_setLif s _

theorem upholds_replyBegins (s : State) : Upholds s (replyBegins s) := by
  unfold replyBegins
  split
  · exact .refl s
  · split
    · exact .refl s
    · exact upholds_setLif s _

theorem upholds_replySent (s : State) : Upholds s (replySent s) := by
  unfold replySent
  split
  · exact .refl s
  · split
    · dsimp only
      split
      · exact (upholds_resetAll _).after (upholds_setLif s _)
      · exact upholds_setLif s _
    · exact .refl s

theorem upholds_announceSent (s : State) : Upholds s (announceSent s) := by
  unfold announceSent
  split
  · exact .refl s
  · exact upholds_setLif s _

/-! ## Every step -/

/-- The state that a step leaves meets whatever of the three the state before it met. -/
def OutcomeUpholds (s : State) : Outcome → Prop
  | .next t => Upholds s t
  | _ => True

/-- Every command that is no request. -/
theorem outcomeUpholds_event (i : Instr) (s : State) (h : Wire.writeRequest i = none) :
    OutcomeUpholds s (exec i s) := by
  cases i with
  | powerOnReset stn rate => exact (upholds_resetAll _).after_same rfl
  | framerByte k b => exact upholds_framerByte k b s
  | gapTimerExpiry k => exact upholds_gapExpiry k s
  | broadcastFrame k p => exact upholds_broadcastFrame k p s
  | replySent => exact upholds_replySent s
  | scanRecord p => exact .of_controls (controls_scanRecordReceived s p)
  | announceSent => exact upholds_announceSent s
  | estopAssert => exact upholds_estopAssert s
  | estopRelease => exact .of_controls rfl
  | encoderPulse e d => exact .of_controls (controls_encoderPulse s e d)
  | measureLeadingEdge => exact upholds_trimEdge .measure true s
  | measureTrailingEdge => exact upholds_trimEdge .measure false s
  | scanLeadingEdge => exact upholds_trimEdge .scan true s
  | scanTrailingEdge => exact upholds_trimEdge .scan false s
  | sawLeadingEdge => exact upholds_trimEdge .saw true s
  | sawTrailingEdge => exact upholds_trimEdge .saw false s
  | windowExpiry e t => exact upholds_windowExpiry e t s
  | deadline t => exact .of_controls (controls_deliverDeadline s t)
  | planCompletion => exact .of_controls (controls_planCompletion s)
  | barEnd => exact .of_controls (controls_barEnd s)
  | slotEvent => exact upholds_slotEvent s
  | feedReadyEdge b => exact upholds_feedReadyEdge b s
  | feedPulseEnd => exact upholds_setFdp s _
  | toolingReadyRise => exact upholds_toolingReadyRise s
  | toolingReadyFall => exact .of_controls rfl
  | toolingTimerExpiry => exact upholds_toolingTimerExpiry s
  | cutDue t => exact upholds_cutDue t s
  | sawPulseEnd => exact .of_controls rfl
  | spinupExpiry => exact upholds_spinupExpiry s
  | hysteresisExpiry => exact upholds_hysteresisExpiry s
  | residencyExpiry => exact upholds_residencyExpiry s
  | dropLeadingEdge => exact upholds_dropEdge true s
  | dropTrailingEdge => exact upholds_dropEdge false s
  | dropWindowExpiry t k => exact upholds_dropExpiry t k s
  | diverterFire t k => exact upholds_diverterFire t k s
  | diverterPulseEnd b => exact upholds_setSrt s _
  | cart n a => exact .of_controls (controls_cartChange s n a)
  | dischargePulseEnd n => exact .of_controls (controls_dischargeEnd s n)
  | renderCompletion => exact upholds_renderCompletion s
  | printReadyRise => exact upholds_printReadyRise s
  | printFaultAssert => exact upholds_printFaultAssert s
  | printFaultRelease => exact upholds_printFaultRelease s
  | printTimerExpiry => exact upholds_printTimerExpiry s
  | rowRequest => exact upholds_rowRequest s
  | rowTransferEnd => exact upholds_rowTransferEnd s
  | strobeEnd => exact upholds_strobeEnd s
  | donePulseEnd => exact upholds_donePulseEnd s
  | printReadyFall => exact .of_controls rfl
  | rowRequestFall => exact .of_controls rfl
  | replyBegins => exact upholds_replyBegins s
  | _ => cases h

theorem outcomeUpholds_exec (i : Instr) (s : State) : OutcomeUpholds s (exec i s) := by
  cases hw : Wire.writeRequest i with
  | none => exact outcomeUpholds_event i s hw
  | some w =>
    obtain ⟨k, g, p⟩ := w
    rcases exec_request i s hw with ⟨t, -, he⟩ | he <;> rw [he]
    · exact upholds_resetRequest t s
    · exact upholds_request k g _ s (okUpholds_ownerAnswer i s)

/-- Every step upholds the three conditions: 1 ms leaves the controls, and so does the taking of a command from the
queue before its execution. -/
theorem upholds_step (s t : State) (h : step s = .next t) : Upholds s t := by
  cases hq : s.pending with
  | nil =>
    rw [step_tick s hq] at h
    cases h
    exact .of_controls (controls_tick s)
  | cons c rest =>
    have he : step s = exec c (s.setPending rest) := by simp [step, hq]
    have hu := outcomeUpholds_exec c (s.setPending rest)
    rw [← he, h] at hu
    exact Upholds.after_same hu (controls_setPending s rest)

/-- Settles O6, as the three parts of what every step upholds. -/
theorem controllersStaySound : Obligations.ControllersStaySound :=
  ⟨fun s t hs h => (upholds_step s t h).cutter hs, fun s t hs h => (upholds_step s t h).changeover hs,
    fun s t hs h => (upholds_step s t h).port hs⟩

end Sys2Proof.Machine
end

section
/-! PROOFS. The drop eye (O41): its levels, the bin search with its outcomes, and the missing piece. -/

namespace Sys2Proof.Machine

open Sys2Proof

/-! ## Entries of the queue (R114, R115) -/

theorem named_iff (p : Piece) (tag i : Nat) : p.named tag i = true ↔ p.tag = tag ∧ p.index = i := by
  simp [Piece.named]

/-- The entry found by a tag and index carries them. -/
theorem pieceOf_named {s : State} {tag i : Nat} {p : Piece} (h : pieceOf s tag i = some p) :
    p.tag = tag ∧ p.index = i := by
  simpa using List.find?_some h

/-- A tag and index that no entry carries find none. -/
theorem pieceOf_absent {s : State} {tag i : Nat} (h : ∀ q ∈ s.srt.pieces, ¬ (q.tag = tag ∧ q.index = i)) :
    pieceOf s tag i = none := by
  simpa [pieceOf] using h

/-- The state without the entry of a tag and index (R114). -/
theorem dropPiece_eq (tag i : Nat) (s : State) : dropPiece tag i s = { s with
    srt := { s.srt with pieces := s.srt.pieces.filter (fun q => ¬ (q.tag = tag ∧ q.index = i)) } } := by
  simp only [dropPiece, State.setSrt, ← named_iff, Bool.not_eq_true, Bool.decide_eq_false]

/-- The state with the entry of a tag and index changed (R114). -/
theorem modPiece_eq (tag i : Nat) (f : Piece → Piece) (s : State) : s.modPiece tag i f = { s with
    srt := { s.srt with
      pieces := s.srt.pieces.map (fun q => if q.tag = tag ∧ q.index = i then f q else q) } } := by
  simp only [State.modPiece, State.setSrt, named_iff]

/-! ## The drop eye's input (R118, R119) -/

/-- The state in which the drop eye's input has changed and the level has followed it (R118). -/
def State.seesDrop (s : State) (blocked : Bool) : State :=
  { s with pins := { s.pins with drop := blocked }, srt := { s.srt with level := blocked } }

/-- An edge to the level the input has (log 3). -/
theorem dropEdge_same {b : Bool} {s : State} (h : s.pins.drop = b) : dropEdge b s = s :=
  if_pos (by simp [h])

/-- In HALTED the level holds (R118). -/
theorem dropEdge_halted {b : Bool} {s : State} (h : s.pins.drop ≠ b) (hl : s.ltr.lineState = .halted) :
    dropEdge b s = { s with pins := { s.pins with drop := b } } := by
  simp [dropEdge, h, hl, State.setPins]

/-- In STOPPED the level follows (R118). -/
theorem dropEdge_stopped {b : Bool} {s : State} (h : s.pins.drop ≠ b) (hl : s.ltr.lineState = .stopped) :
    dropEdge b s = s.seesDrop b := by
  simp [dropEdge, h, hl, State.setPins, State.setSrt, State.seesDrop]

/-- Outside HALTED a trailing edge moves only the level (R118). -/
theorem dropEdge_trailing {s : State} (h : s.pins.drop = true) (hl : s.ltr.lineState ≠ .halted) :
    dropEdge false s = s.seesDrop false := by
  cases hs : s.ltr.lineState with
  | halted => exact absurd hs hl
  | stopped => exact dropEdge_stopped (by simp [h]) hs
  | running => simp [dropEdge, h, hs, State.setPins, State.setSrt, State.seesDrop]
  | stopping => simp [dropEdge, h, hs, State.setPins, State.setSrt, State.seesDrop]

/-- In RUNNING and STOPPING a leading edge is taken (R119). -/
theorem dropEdge_leading {s : State} (h : s.pins.drop = false)
    (hl : s.ltr.lineState = .running ∨ s.ltr.lineState = .stopping) :
    dropEdge true s = dropLead (s.seesDrop true) := by
  rcases hl with hl | hl <;> simp [dropEdge, h, hl, State.setPins, State.setSrt, State.seesDrop]

/-- A leading edge is matched to the oldest EXPECTED entry (R119). -/
theorem dropLead_matched {s : State} {p : Piece} (h : dropPointer s = some p) : dropLead s = binSearch p s := by
  simp [dropLead, h]

/-- A leading edge with no EXPECTED entry is a stray (R119). -/
theorem dropLead_stray {s : State} (h : ∀ p ∈ s.srt.pieces, p.isExpected = false) :
    dropLead s = { s with
      srt := { s.srt with dropStrays := min (s.srt.dropStrays + 1) 65535 }
      lif := s.lif.raise (.stray .drop s.srt.pos 0) } := by
  have hnone : dropPointer s = none := by simpa [dropPointer] using h
  simp [dropLead, hnone, State.setSrt, State.raise, State.setLif, bump]

/-! ## The bin search (R121, R122) -/

theorem mem_binNumbers (b : Nat) : b ∈ binNumbers ↔ 1 ≤ b ∧ b ≤ 14 := by
  rw [show binNumbers = List.range' 1 14 from rfl, List.mem_range'_1]
  omega

/-- The bins below bin b come before it. -/
theorem binNumbers_split {b : Nat} (h1 : 1 ≤ b) (h14 : b ≤ 14) :
    binNumbers = List.range' 1 (b - 1) ++ b :: List.range' (b + 1) (14 - b) := by
  interval_cases b <;> rfl

/-- The state with the bins' records replaced. -/
def State.withBins (s : State) (bins : Vector Bin 14) : State := { s with bdb := { s.bdb with bins := bins } }

/-- An offer leaves the bin's state (R134). -/
theorem offer_state (x : Bin) (n profile : Nat) (k : TallyKey) : (offer x n profile k).1.state = x.state := by
  unfold offer allocate
  split_ifs <;> rfl

/-- A bin's own refusal, where it is OPEN and matches (R122, R134). -/
def State.refuses (s : State) (p : Piece) (j : Nat) : Prop :=
  (binAt s j).state = .opened → entryTakes (entryAt s j) p →
    (offer (binAt s j) p.net p.profile (tallyKey s p.line)).2 = false

/-- A search in which every bin refuses finds none (R122). -/
theorem searchBins_none {p : Piece} {s : State} (h : ∀ j, s.refuses p j) :
    ∃ bins, searchBins p binNumbers s = (s.withBins bins, none)
      ∧ (∀ j, (binAt s j).state = .opened → entryTakes (entryAt s j) p →
        binAt (s.withBins bins) j = (offer (binAt s j) p.net p.profile (tallyKey s p.line)).1)
      ∧ (∀ j, ((binAt s j).state ≠ .opened ∨ ¬ entryTakes (entryAt s j) p) →
        binAt (s.withBins bins) j = binAt s j) := by
  obtain ⟨t, hsearch, ht, hoffered, hothers⟩ := searchBins_refusals p binNumbers [] s
    (fun b => (mem_binNumbers b).mp) (by decide) (fun j _ => h j)
  refine ⟨t.bdb.bins, ?_, fun j ho he => ?_, fun j hj => ?_⟩
  · rw [List.append_nil] at hsearch
    rw [hsearch, State.withBins, ← ht]
    rfl
  · rw [State.withBins, ← ht]
    exact hoffered j ((mem_binNumbers j).mpr (bin_exists s j (by simp [ho]))) ho he
  · rw [State.withBins, ← ht]
    exact hothers j (.inr hj)

/-- A search in which bin b accepts and every bin below refuses finds bin b (R122). -/
theorem searchBins_accepts {p : Piece} {s : State} {b : Nat} {x : Bin} (h1 : 1 ≤ b) (h14 : b ≤ 14)
    (ho : (binAt s b).state = .opened) (he : entryTakes (entryAt s b) p) (h : ∀ j, j < b → s.refuses p j)
    (hx : offer (binAt s b) p.net p.profile (tallyKey s p.line) = (x, true)) :
    ∃ bins, searchBins p binNumbers s = (s.withBins bins, some b)
      ∧ binAt (s.withBins bins) b = x
      ∧ (∀ j, j < b → (binAt s j).state = .opened → entryTakes (entryAt s j) p →
        binAt (s.withBins bins) j = (offer (binAt s j) p.net p.profile (tallyKey s p.line)).1)
      ∧ (∀ j, (b < j ∨ j < b ∧ ((binAt s j).state ≠ .opened ∨ ¬ entryTakes (entryAt s j) p)) →
        binAt (s.withBins bins) j = binAt s j) := by
  have hmem : ∀ j, j ∈ List.range' 1 (b - 1) ↔ 1 ≤ j ∧ j < b := fun j => by rw [List.mem_range'_1]; omega
  obtain ⟨t, hsearch, ht, hoffered, hothers⟩ := searchBins_refusals p (List.range' 1 (b - 1))
    (b :: List.range' (b + 1) (14 - b)) s (fun j hj => by rw [hmem] at hj; omega) List.nodup_range'
    (fun j hj => h j ((hmem j).mp hj).2)
  obtain ⟨bins, rfl⟩ : ∃ bins, t = s.withBins bins := ⟨_, ht⟩
  have hb : binAt (s.withBins bins) b = binAt s b := hothers b (.inl (by simp [hmem]))
  have hoffer : offer (binAt (s.withBins bins) b) p.net p.profile (tallyKey (s.withBins bins) p.line) = (x, true) := by
    rw [hb]; exact hx
  have hbins : ∀ j, binAt ((s.withBins bins).modBin b fun _ => x) j
      = if j = b then x else binAt (s.withBins bins) j := fun j => by
    rw [binAt_modBin]; simp [h1, h14]
  refine ⟨tabMod bins b fun _ => x, ?_, (hbins b).trans (if_pos rfl), fun j hj hjo hje => ?_, fun j hj => ?_⟩
  · rw [binNumbers_split h1 h14, hsearch, searchBins, if_pos, hoffer]
    · rfl
    · rw [Bool.and_eq_true, beq_iff_eq, matchesEntry_iff, hb]
      exact ⟨ho, he⟩
  · refine (hbins j).trans ((if_neg (by omega)).trans (hoffered j ?_ hjo hje))
    have := bin_exists s j (by simp [hjo])
    exact (hmem j).mpr ⟨this.1, hj⟩
  · refine (hbins j).trans ((if_neg (by omega)).trans (hothers j ?_))
    rw [hmem]
    rcases hj with hj | hj
    · exact .inl (by omega)
    · exact .inr hj.2

/-- The bin search, outcome by outcome (R122). -/
theorem binSearch_forced {p : Piece} {s : State} (h : p.force = true) : binSearch p s = toBin0 .forced p s := if_pos h

theorem binSearch_grade0 {p : Piece} {s : State} (h : p.force = false) (hg : p.grade = 0) :
    binSearch p s = toBin0 .grade0 p s := by
  simp [binSearch, h, hg]

theorem binSearch_noBin {p : Piece} {s t : State} (h : p.force = false) (hg : p.grade ≠ 0)
    (ht : searchBins p binNumbers s = (t, none)) : binSearch p s = toBin0 .noBin p t := by
  simp [binSearch, h, hg, ht]

theorem binSearch_accepted {p : Piece} {s t : State} {b : Nat} (h : p.force = false) (hg : p.grade ≠ 0)
    (ht : searchBins p binNumbers s = (t, some b)) : binSearch p s = assign b p t := by
  simp [binSearch, h, hg, ht]

/-! ## Bin 0 (R123) -/

/-- The bin 0 counter of a reason raised (R123). -/
def Bin0Reason.counts : Bin0Reason → Srt → Srt
  | .forced, v => { v with forced := min (v.forced + 1) 65535 }
  | .grade0, v => { v with grade0 := min (v.grade0 + 1) 65535 }
  | .noBin, v => { v with noBin := min (v.noBin + 1) 65535 }

theorem countBin0_eq (r : Bin0Reason) (s : State) : countBin0 r s = { s with srt := r.counts s.srt } := by
  cases r <;> rfl

/-- The reasons leave the queue, the level and the total. -/
theorem Bin0Reason.counts_frame (r : Bin0Reason) (v : Srt) : (r.counts v).pieces = v.pieces
    ∧ (r.counts v).bin0Total = v.bin0Total
    ∧ ∀ l, r.counts { v with level := l } = { r.counts v with level := l } := by
  cases r <;> exact ⟨rfl, rfl, fun _ => rfl⟩

/-- A piece at bin 0: its reservation released, counted by its reason and in the total, and out of the queue (R123). -/
theorem toBin0_spec (r : Bin0Reason) (p : Piece) (s : State) : ∃ u, toBin0 r p s = afterPiece u
    ∧ u = { s with
        srt := { r.counts s.srt with
          bin0Total := min (s.srt.bin0Total + p.net) 4294967295
          pieces := s.srt.pieces.filter (fun q => ¬ (q.tag = p.tag ∧ q.index = p.index)) }
        otu := u.otu
        lif := (s.ordersDone p.reservations).foldl Lif.raise s.lif }
    ∧ ∀ k, lineAt u k = (lineAt s k).released k p.reservations := by
  obtain ⟨hrelease, hlines⟩ := release_piece_spec p s
  obtain ⟨hpieces, htotal, -⟩ := r.counts_frame s.srt
  refine ⟨_, rfl, ?_, fun k => ?_⟩
  · rw [hrelease, countBin0_eq, dropPiece_eq]
    simp only [addBin0, State.setSrt, hpieces, htotal, addTotal]
  · rw [← hlines k, countBin0_eq, dropPiece_eq]
    rfl

/-! ## A bin that accepts (R124, R135) -/

/-- A bin with one more piece to come: closed when its bundle is full (R124, R135). -/
def Bin.awaits (x : Bin) : Bin :=
  if x.bundle.rowFills.length = x.settings.rows
      ∧ (x.settings.length : Int) - x.bundle.rowFills.getLast?.getD 0 < x.settings.closeSlack then
    { x with incoming := x.incoming + 1, state := .closePending, reason := some .full }
  else { x with incoming := x.incoming + 1 }

theorem bundleFull_iff (x : Bin) : bundleFull x = true ↔ x.bundle.rowFills.length = x.settings.rows
    ∧ (x.settings.length : Int) - x.bundle.rowFills.getLast?.getD 0 < x.settings.closeSlack := by
  rw [bundleFull, Bool.and_eq_true, beq_iff_eq, decide_eq_true_iff]
  rfl

/-- A FULL close request of an OPEN bin with a piece to come stays in CLOSE_PENDING (R130, R131). -/
theorem closeRequest_full {s : State} {b : Nat} (ho : (binAt s b).state = .opened) (hi : (binAt s b).incoming ≠ 0) :
    closeRequest b .full s = s.withBins (closeRequest b .full s).bdb.bins
      ∧ (∀ j, j ≠ b → binAt (closeRequest b .full s) j = binAt s j)
      ∧ binAt (closeRequest b .full s) b = { binAt s b with state := .closePending, reason := some .full } := by
  obtain ⟨u, hu, hothers, hb, -, hstays⟩ := (requestsClose_closeRequest s b .full).1 ho
  have ht : closeRequest b .full s = u := hstays (.inr (by rw [hb]; exact hi))
  rw [ht]
  exact ⟨hu, hothers, hb.trans (by simp)⟩

/-- A piece ASSIGNED to bin b, with its drop edge and fire positions (R124). -/
def Piece.sentTo (q : Piece) (b : Nat) (s : State) : Piece :=
  { q with place := .assigned b s.srt.pos (s.srt.pos + umOfMm ((entryAt s b).offset - (entryAt s b).lead)) }

/-- The state in which a piece is ASSIGNED to bin b and counted as incoming (R124). -/
def State.sends (s : State) (p : Piece) (b : Nat) : State :=
  (s.modPiece p.tag p.index (·.sentTo b s)).modBin b fun x => { x with incoming := x.incoming + 1 }

theorem sends_frame (s : State) (p : Piece) (b : Nat) : s.sends p b = { s with
    srt := { s.srt with pieces := s.srt.pieces.map (fun q =>
      if q.tag = p.tag ∧ q.index = p.index then q.sentTo b s else q) }
    bdb := { s.bdb with bins := (s.sends p b).bdb.bins } } := by
  rw [State.sends, modPiece_eq]
  rfl

theorem binAt_sends (s : State) (p : Piece) {b : Nat} (hb : 1 ≤ b ∧ b ≤ 14) (j : Nat) : binAt (s.sends p b) j
    = if j = b then { binAt s b with incoming := (binAt s b).incoming + 1 } else binAt s j := by
  rw [State.sends, binAt_modBin]
  simp only [hb, and_self, and_true]
  rfl

/-- The piece ASSIGNED to an OPEN bin, and the FULL test (R124, R135). -/
theorem assign_spec {b : Nat} (p : Piece) {s : State} (ho : (binAt s b).state = .opened) :
    assign b p s = { s with
        srt := { s.srt with pieces := s.srt.pieces.map (fun q =>
          if q.tag = p.tag ∧ q.index = p.index then q.sentTo b s else q) }
        bdb := { s.bdb with bins := (assign b p s).bdb.bins } }
      ∧ ∀ j, binAt (assign b p s) j = if j = b then (binAt s b).awaits else binAt s j := by
  have hb := binAt_sends s p (bin_exists s b (by simp [ho]))
  have hassign : assign b p s
      = if bundleFull (binAt (s.sends p b) b) then closeRequest b .full (s.sends p b) else s.sends p b := rfl
  have hfull : bundleFull (binAt (s.sends p b) b) = bundleFull (binAt s b) := by rw [hb, if_pos rfl]; rfl
  rw [hfull] at hassign
  by_cases h : bundleFull (binAt s b) = true
  · obtain ⟨hframe, hothers, hsame⟩ := closeRequest_full (s := s.sends p b) (b := b)
      (by rw [hb, if_pos rfl]; exact ho) (by rw [hb, if_pos rfl]; simp)
    rw [hassign, if_pos h]
    refine ⟨hframe.trans ?_, fun j => ?_⟩
    · rw [State.withBins, sends_frame]
    · by_cases hj : j = b
      · rw [hj, hsame, hb, if_pos rfl, if_pos rfl, Bin.awaits, if_pos ((bundleFull_iff _).mp h)]
      · rw [hothers j hj, hb]
        simp only [hj, if_false]
  · rw [hassign, if_neg h]
    refine ⟨sends_frame s p b, fun j => ?_⟩
    rw [hb, Bin.awaits, if_neg fun hf => h ((bundleFull_iff _).mpr hf)]

/-! ## The missing piece (R120) -/

/-- A name that no entry carries, and an entry in the other place (log 3). -/
theorem dropExpiry_absent {s : State} {tag i : Nat} (h : pieceOf s tag i = none) : dropExpiry tag i s = s := by
  simp [dropExpiry, h]

theorem diverterFire_absent {s : State} {tag i : Nat} (h : pieceOf s tag i = none) : diverterFire tag i s = s := by
  simp [diverterFire, h]

theorem dropExpiry_assigned {s : State} {tag i b : Nat} {p : Piece} {d f : Pos} (h : pieceOf s tag i = some p)
    (hp : p.place = .assigned b d f) : dropExpiry tag i s = s := by
  simp [dropExpiry, h, hp]

theorem diverterFire_expected {s : State} {tag i : Nat} {p : Piece} {c : Pos} (h : pieceOf s tag i = some p)
    (hp : p.place = .expected c) : diverterFire tag i s = s := by
  simp [diverterFire, h, hp]

/-- A drop window's expiry before its close is exceeded, or in HALTED (log 3). -/
theorem dropExpiry_notDue {s : State} {tag i : Nat} {p : Piece} {c : Pos} (hp : pieceOf s tag i = some p)
    (hc : p.place = .expected c) (h : s.ltr.lineState = .halted ∨ (s.srt.pos - c).toInt ≤ 0) :
    dropExpiry tag i s = s := by
  have hd : ¬ (s.ltr.lineState ≠ .halted ∧ exceeded s.srt.pos c = true) := by
    rw [exceeded_iff]
    exact fun ⟨hl, he⟩ => h.elim hl fun h => by omega
  simp only [dropExpiry, hp, hc]
  exact if_neg (by simpa using hd)

/-- The state in which a missing piece is counted, released, told and removed (R120). -/
def State.losesPiece (s : State) (p : Piece) : State :=
  dropPiece p.tag p.index ((release p.line p.net
    (s.setSrt { s.srt with missing := min (s.srt.missing + 1) 65535 })).raise
      (.pieceLost p.tag p.index p.net p.grade (p.line.getD 0) p.force))

/-- A drop window exceeded outside HALTED (R120). -/
theorem dropExpiry_due {s : State} {p : Piece} {c : Pos} (hp : pieceOf s p.tag p.index = some p)
    (hc : p.place = .expected c) (hl : s.ltr.lineState ≠ .halted) (h : 0 < (s.srt.pos - c).toInt) :
    dropExpiry p.tag p.index s = afterPiece (s.losesPiece p) := by
  simp [dropExpiry, hp, hc, hl, (exceeded_iff _ _).mpr h, State.losesPiece, bump]

theorem losesPiece_spec (s : State) (p : Piece) :
    s.losesPiece p = { s with
        srt := { s.srt with missing := min (s.srt.missing + 1) 65535
                            pieces := s.srt.pieces.filter (fun q => ¬ (q.tag = p.tag ∧ q.index = p.index)) }
        otu := (s.losesPiece p).otu
        lif := ((s.ordersDone p.reservations).foldl Lif.raise s.lif).raise
          (.pieceLost p.tag p.index p.net p.grade (p.line.getD 0) p.force) }
      ∧ ∀ k, lineAt (s.losesPiece p) k = (lineAt s k).released k p.reservations := by
  obtain ⟨hrelease, hlines⟩ := release_piece_spec p
    (s.setSrt { s.srt with missing := min (s.srt.missing + 1) 65535 })
  rw [State.losesPiece, dropPiece_eq]
  refine ⟨?_, hlines⟩
  rw [hrelease]
  rfl

/-! ## The obligation -/

/-- A matched piece sent to bin 0 after a search that replaced the bins' records (R123). -/
theorem toBin0_seesDrop (r : Bin0Reason) (p : Piece) (s : State) (bins : Vector Bin 14) :
    ∃ t u : State, toBin0 r p ((s.seesDrop true).withBins bins) = t
      ∧ u = { s with
          pins := { s.pins with drop := true }
          srt := { r.counts s.srt with
            level := true, bin0Total := min (s.srt.bin0Total + p.net) 4294967295
            pieces := s.srt.pieces.filter (fun q => ¬ (q.tag = p.tag ∧ q.index = p.index)) }
          bdb := { s.bdb with bins := u.bdb.bins }
          otu := u.otu
          lif := (s.ordersDone p.reservations).foldl Lif.raise s.lif }
      ∧ (∀ b, binAt u b = binAt (s.withBins bins) b)
      ∧ (∀ k, lineAt u k = (lineAt s k).released k p.reservations)
      ∧ u.afterPieceRemoval t := by
  obtain ⟨u, ht, hu, hlines⟩ := toBin0_spec r p ((s.seesDrop true).withBins bins)
  have hbdb : u.bdb = { s.bdb with bins := bins } := by rw [hu]; rfl
  refine ⟨_, u, ht, ?_, fun b => by rw [binAt, hbdb]; rfl, hlines, afterPieceRemoval_afterPiece u⟩
  rw [hbdb]
  refine hu.trans ?_
  have hlevel := (r.counts_frame s.srt).2.2 true
  simp only [State.withBins, State.seesDrop, hlevel]
  rfl

/-- Settles O41: the levels and the stray, then a matched piece by its outcome (bin 0 by reason, or the first bin that
accepts), then the drop window's expiry. -/
theorem dropEyeEdges : Obligations.DropEyeEdges := by
  refine ⟨fun s => ⟨rfl, fun _ => rfl⟩, fun s => ⟨fun b c h hc => ?_, fun h hl => ?_, fun h hl => ?_, fun h hl => ?_,
    fun h hl => ?_, fun h hl hnone => ?_⟩, fun s p hd hl hp => ?_, fun s tag i => ⟨fun h => ?_, fun p c hp hc => ?_⟩⟩
  · rcases hc with ⟨rfl, rfl⟩ | ⟨rfl, rfl⟩ <;> exact next_congr (dropEdge_same h)
  · exact next_congr (dropEdge_halted (by simp [h]) hl)
  · exact next_congr (dropEdge_stopped (by simp [h]) hl)
  · exact next_congr (dropEdge_halted (by simp [h]) hl)
  · exact next_congr (dropEdge_trailing h hl)
  · exact next_congr ((dropEdge_leading h hl).trans (dropLead_stray hnone))
  · have hedge : dropEdge true s = binSearch p (s.seesDrop true) :=
      (dropEdge_leading hd hl).trans (dropLead_matched hp)
    refine ⟨fun c hc => ?_, fun b x hf hg h1 h14 ho he hrefuse hx => ?_⟩
    · rcases hc with ⟨hf, rfl⟩ | ⟨hf, hg, rfl⟩ | ⟨hf, hg, rfl, hrefuse⟩
      · obtain ⟨t, u, ht, hu, hbins, hrest⟩ := toBin0_seesDrop .forced p s s.bdb.bins
        exact ⟨t, u, next_congr (hedge.trans ((binSearch_forced hf).trans ht)), hu,
          fun b hf' => absurd (hf.symm.trans hf') nofun, fun b _ => hbins b, hrest⟩
      · obtain ⟨t, u, ht, hu, hbins, hrest⟩ := toBin0_seesDrop .grade0 p s s.bdb.bins
        exact ⟨t, u, next_congr (hedge.trans ((binSearch_grade0 hf hg).trans ht)), hu,
          fun b _ hg' => absurd hg hg', fun b _ => hbins b, hrest⟩
      · obtain ⟨bins, hsearch, hoffered, hothers⟩ := searchBins_none (s := s.seesDrop true) hrefuse
        obtain ⟨t, u, ht, hu, hbins, hrest⟩ := toBin0_seesDrop .noBin p s bins
        refine ⟨t, u, next_congr (hedge.trans ((binSearch_noBin hf hg hsearch).trans ht)), hu,
          fun b _ _ ho he => (hbins b).trans (hoffered b ho he), fun b hb => (hbins b).trans (hothers b ?_), hrest⟩
        exact (hb.resolve_left (by simp [hf])).resolve_left hg
    · obtain ⟨bins, hsearch, hb, hoffered, hothers⟩ :=
        searchBins_accepts (s := s.seesDrop true) h1 h14 ho he hrefuse hx
      have hopen : (binAt ((s.seesDrop true).withBins bins) b).state = .opened := by
        have hstate := offer_state (binAt s b) p.net p.profile (tallyKey s p.line)
        rw [hx] at hstate
        rw [hb]
        exact hstate.trans ho
      obtain ⟨hassign, hbins⟩ := assign_spec p hopen
      rw [hb] at hbins
      refine ⟨_, next_congr (hedge.trans (binSearch_accepted hf hg hsearch)), hassign, fun j hj hjo hje => ?_,
        fun j hj => ?_, fun hfull => ?_, fun hfull => ?_⟩
      · exact (hbins j).trans ((if_neg (by omega)).trans (hoffered j hj hjo hje))
      · exact (hbins j).trans ((if_neg (by omega)).trans (hothers j hj))
      · exact (hbins b).trans ((if_pos rfl).trans (if_neg hfull))
      · exact (hbins b).trans ((if_pos rfl).trans (if_pos hfull))
  · exact ⟨next_congr (dropExpiry_absent (pieceOf_absent h)), next_congr (diverterFire_absent (pieceOf_absent h))⟩
  · obtain ⟨rfl, rfl⟩ := pieceOf_named hp
    refine ⟨next_congr (diverterFire_expected hp hc), fun h => next_congr (dropExpiry_notDue hp hc h), fun hl h => ?_⟩
    obtain ⟨hloses, hlines⟩ := losesPiece_spec s p
    exact ⟨_, _, next_congr (dropExpiry_due hp hc hl h), hloses, hlines, afterPieceRemoval_afterPiece _⟩

end Sys2Proof.Machine
end

section
/-! PROOFS. A diverter's firing and the landing of its piece (O42). -/

namespace Sys2Proof.Machine

open Sys2Proof

/-! ## The firing (R125) -/

/-- A firing before its position is reached, or in HALTED (log 3). -/
theorem diverterFire_notDue {s : State} {tag i b : Nat} {p : Piece} {d f : Pos} (hp : pieceOf s tag i = some p)
    (ha : p.place = .assigned b d f) (h : s.ltr.lineState = .halted ∨ (s.srt.pos - f).toInt < 0) :
    diverterFire tag i s = s := by
  have hd : ¬ (s.ltr.lineState ≠ .halted ∧ reached s.srt.pos f = true) := by
    rw [reached_iff]
    exact fun ⟨hl, hr⟩ => h.elim hl fun h => by omega
  simp only [diverterFire, hp, ha]
  exact if_neg (by simpa using hd)

/-- The state in which bin b's diverter is driven and the firing counted (R125). -/
def State.fires (s : State) (b : Nat) : State := { s with srt := { s.srt with
  diverters := tabMod s.srt.diverters b (fun _ => some (entryAt s b).pulse)
  firings := min (s.srt.firings + 1) 65535 } }

/-- A fire position reached outside HALTED (R125). -/
theorem diverterFire_due {s : State} {tag i b : Nat} {p : Piece} {d f : Pos} (hp : pieceOf s tag i = some p)
    (ha : p.place = .assigned b d f) (hl : s.ltr.lineState ≠ .halted) (h : 0 ≤ (s.srt.pos - f).toInt) :
    diverterFire tag i s = land b p (s.fires b) := by
  simp [diverterFire, hp, ha, hl, (reached_iff _ _).mpr h, State.fires, State.setSrt, bump]

/-! ## The credit (R75) -/

/-- A landing's credit changes the order lines and queues notices, and nothing else. -/
theorem credit_eq (line : Option Nat) (n : Nat) (s : State) : credit line n s = { s with
    otu := (credit line n s).otu, lif := (credit line n s).lif } := State.eq_of_blocks (by simp)

/-- The credit leaves every reference, and so the piece's tally key (R134). -/
theorem tallyKey_credit {s : State} {line : Option Nat} (n : Nat)
    (h : ∀ k, line = some k → (lineAt s k).state ≠ .free) :
    tallyKey (credit line n s) line = tallyKey s line := by
  cases line with
  | none => rfl
  | some k =>
    have hk := (credit_spec k n s (line_exists s k (h k rfl))).1 k
    rw [if_pos rfl] at hk
    exact congrArg (fun l => TallyKey.order l.reference) hk

/-! ## The landing (R126, R136) -/

/-- A bundle with a landed piece's figures added (R136); `short` is the bin's threshold of a short piece. -/
def Bundle.lands (x : Bundle) (short : Nat) (p : Piece) (key : TallyKey) : Bundle :=
  { x with
    landed := x.landed + 1, perClass := tabMod x.perClass p.cls (· + 1), lineal := x.lineal + p.net
    shortsLanded := if p.net < short then x.shortsLanded + p.net else x.shortsLanded
    tallies := x.tallies.map (fun y => if y.key = key then { y with pieces := y.pieces + 1, mm := y.mm + p.net } else y)
    worst := max x.worst p.grade
    colour := if x.colour = none ∨ x.colour = some (.one p.colour) then some (.one p.colour) else some .mixed }

theorem landIn_eq (p : Piece) (key : TallyKey) (x : Bin) : landIn p.net p.grade p.cls p.colour key x
    = { x with bundle := x.bundle.lands x.settings.shortsThreshold p key } := by
  simp only [landIn, Bundle.lands, isShort, decide_eq_true_eq, beq_iff_eq]
  cases hx : x.bundle.colour with
  | none => rfl
  | some c => by_cases hc : c = .one p.colour <;> simp [hc]

/-- The state in which a piece has left the queue for bin b and is credited, before its bundle counts it (R126). -/
def State.credits (s : State) (b : Nat) (p : Piece) : State :=
  credit p.line p.net ((dropPiece p.tag p.index s).modBin b fun x => { x with incoming := x.incoming - 1 })

/-- The state in which a piece has landed in bin b, before what follows (R126). -/
def State.lands (s : State) (b : Nat) (p : Piece) : State :=
  (s.credits b p).modBin b (landIn p.net p.grade p.cls p.colour (tallyKey (s.credits b p) p.line))

theorem land_eq (b : Nat) (p : Piece) (s : State) : land b p s = afterPiece (settlePending b (s.lands b p)) := rfl

theorem lands_frame (s : State) (b : Nat) (p : Piece) : s.lands b p = { s with
    srt := { s.srt with pieces := s.srt.pieces.filter (fun q => ¬ (q.tag = p.tag ∧ q.index = p.index)) }
    bdb := { s.bdb with bins := (s.lands b p).bdb.bins }
    otu := (s.lands b p).otu, lif := (s.lands b p).lif } := by
  rw [State.lands, State.credits, credit_eq, dropPiece_eq]
  rfl

/-- The bins after a landing: one piece fewer to come, and the bundle's landed fields (R126, R136). -/
theorem binAt_lands {s : State} {b : Nat} {p : Piece} (h1 : 1 ≤ b) (h14 : b ≤ 14)
    (h : ∀ k, p.line = some k → (lineAt s k).state ≠ .free) (j : Nat) : binAt (s.lands b p) j
      = if j = b then { binAt s b with
          incoming := (binAt s b).incoming - 1
          bundle := (binAt s b).bundle.lands (binAt s b).settings.shortsThreshold p (tallyKey s p.line) }
        else binAt s j := by
  have hcredits : ∀ j, binAt (s.credits b p) j
      = if j = b then { binAt s b with incoming := (binAt s b).incoming - 1 } else binAt s j := fun j => by
    rw [State.credits, credit_eq]
    refine (binAt_modBin (dropPiece p.tag p.index s) j b _).trans ?_
    simp only [h1, h14, and_self, and_true]
    rfl
  have hkey : tallyKey (s.credits b p) p.line = tallyKey s p.line := tallyKey_credit p.net h
  rw [State.lands, binAt_modBin, hkey]
  simp only [h1, h14, and_self, and_true, landIn_eq, hcredits, if_true]
  by_cases hj : j = b <;> simp only [hj, if_true, if_false]

/-- Settles O42: the firing not due, then the landing with its credit, its bundle and what follows. -/
theorem firingLandsThePiece : Obligations.FiringLandsThePiece := by
  refine ⟨fun s => ⟨rfl, fun _ => rfl⟩, fun s p b d f hp ha h1 h14 => ⟨next_congr (dropExpiry_assigned hp ha),
    fun h => next_congr (diverterFire_notDue hp ha h), fun hl h hline => ?_⟩⟩
  have hbins := binAt_lands (s := s.fires b) h1 h14 hline
  refine ⟨_, (s.fires b).lands b p, _, next_congr (diverterFire_due hp ha hl h), lands_frame _ b p,
    fun j hj => (hbins j).trans (if_neg hj), ⟨_, rfl, (hbins b).trans (if_pos rfl)⟩, fun hn => ?_, fun k hk => ?_,
    settles_settlePending _ b, afterPieceRemoval_afterPiece _⟩
  · rw [State.lands, State.credits, hn]
    exact ⟨rfl, rfl⟩
  · obtain ⟨hlines, hnotices⟩ := credit_spec k p.net ((dropPiece p.tag p.index (s.fires b)).modBin b
      fun x => { x with incoming := x.incoming - 1 }) (line_exists s k (hline k hk))
    rw [State.lands, State.credits, hk]
    exact ⟨fun j hj => (hlines j).trans (if_neg hj), (hlines k).trans (if_pos rfl), hnotices⟩

end Sys2Proof.Machine
end

section
/-! PROOFS. What a byte, a frame or a reply can do (R172 to R177), and the operations that leave the bundle builder
alone (O9). -/

namespace Sys2Proof.Machine

open Sys2Proof

/-! ## The links -/

/-- What a byte, a frame or a reply does to a state: a change of the links, and between two such changes at most one
of an owner's answer, a reset and a scan record (R172 to R177, R184). -/
inductive Linked (s : State) : State → Prop where
  | links (v : Lif) : Linked s (s.setLif v)
  | owner (v w : Lif) (i : Instr) (t : State) (d : List Byte) (h : ownerAnswer i (s.setLif v) = .ok (t, d)) :
      Linked s (t.setLif w)
  | reset (v : Lif) : Linked s (resetAll (s.setLif v))
  | scan (v : Lif) (p : List Byte) : Linked s (scanRecordReceived p (s.setLif v))

theorem Linked.refl (s : State) : Linked s s := .links s.lif

/-- What follows a change of the links. -/
theorem Linked.after_links {s t : State} {v : Lif} (h : Linked (s.setLif v) t) : Linked s t := by
  cases h with
  | links w => exact .links w
  | owner w w' i u d h => exact .owner w w' i u d h
  | reset w => exact .reset w
  | scan w p => exact .scan w p

theorem linked_frameWhilePending (s : State) (r : Reply) : Linked s (s.frameWhilePending r) := by
  unfold State.frameWhilePending
  split
  · exact .refl s
  · exact .links _

theorem linked_request (k g : Byte) (o : State → Answer) (s : State)
    (ho : (∃ i, o s = ownerAnswer i s) ∨ ∃ c, o s = .error c) : Linked s (request k g o s) := by
  unfold request
  split
  · exact linked_frameWhilePending s _
  · split
    · next t d h =>
      obtain ⟨i, hi⟩ | ⟨c, hc⟩ := ho
      · exact .owner s.lif _ i t d (hi.symm.trans h)
      · cases hc.symm.trans h
    · exact .links _

theorem linked_resetRequest (g : Byte) (s : State) : Linked s (resetRequest g s) := by
  unfold resetRequest
  split
  · exact linked_frameWhilePending s _
  · exact .links _

theorem linked_unanswered (i : Instr) (s : State) : Linked s (unanswered (ownerAnswer i) s) := by
  unfold unanswered
  split
  · next t d h => exact .owner s.lif t.lif i t d h
  · exact .refl s

theorem linked_addressedFrame (k g : Byte) (p : List Byte) (s : State) : Linked s (addressedFrame k g p s) := by
  unfold addressedFrame
  split
  · exact linked_resetRequest _ s
  · exact linked_request _ _ _ s (.inl ⟨_, rfl⟩)
  · exact linked_request _ _ _ s (.inr ⟨_, rfl⟩)

theorem linked_broadcastFrame (k : Byte) (p : List Byte) (s : State) : Linked s (broadcastFrame k p s) := by
  unfold broadcastFrame
  split
  · exact linked_frameWhilePending s _
  · split
    · exact .reset s.lif
    · split
      · exact linked_unanswered (.setDate 0 p) s
      · split
        · exact linked_unanswered (.lineStop 0) s
        · exact .links _

theorem linked_frameCheck (k : Link) (b : List Byte) (s : State) : Linked s (frameCheck k b s) := by
  unfold frameCheck
  dsimp only
  split
  · split
    · unfold controlFrame
      split
      · exact linked_addressedFrame _ _ _ s
      · split
        · exact linked_broadcastFrame _ _ s
        · exact .links _
    · unfold scanLinkFrame
      split
      · unfold scanFrame
        split
        · exact .scan s.lif _
        · exact .links _
      · exact .links _
  · exact .links _

theorem linked_framerByte (k : Link) (b : Byte) (s : State) : Linked s (framerByte k b s) := by
  unfold framerByte
  split
  · exact .refl s
  · dsimp only
    split
    · unfold huntByte
      split <;> exact .links _
    · unfold headerByte
      split
      · exact .links _
      · split
        · exact .links _
        · split <;> exact .links _
    · exact .links _
    · unfold crcByteTaken
      split
      · exact .links _
      · exact (linked_frameCheck k _ _).after_links

theorem linked_gapExpiry (k : Link) (s : State) : Linked s (gapExpiry k s) := by
  unfold gapExpiry
  split
  · exact .refl s
  · exact .links _

theorem linked_replyBegins (s : State) : Linked s (replyBegins s) := by
  unfold replyBegins
  split
  · exact .refl s
  · split
    · exact .refl s
    · exact .links _

theorem linked_replySent (s : State) : Linked s (replySent s) := by
  unfold replySent
  split
  · exact .refl s
  · split
    · dsimp only
      split
      · exact .reset _
      · exact .links _
    · exact .refl s

theorem linked_announceSent (s : State) : Linked s (announceSent s) := by
  unfold announceSent
  split
  · exact .refl s
  · exact .links _

/-- A command that is a request is an owner's answer between two changes of the links (R174). -/
theorem linked_exec_request {i : Instr} {s : State} {w : Byte × Byte × List Byte} (h : Wire.writeRequest i = some w) :
    ∃ t, exec i s = .next t ∧ Linked s t := by
  obtain ⟨k, g, p⟩ := w
  rcases exec_request i s h with ⟨g, -, he⟩ | he
  · exact ⟨_, he, linked_resetRequest g s⟩
  · exact ⟨_, he, linked_request k g _ s (.inl ⟨i, rfl⟩)⟩

/-! ## Operations that leave the bundle builder alone -/

section
variable (s : State)

@[simp] theorem frameWhilePending_bdb (r : Reply) : (s.frameWhilePending r).bdb = s.bdb := by simp

@[simp] theorem writePlan_bdb (r : Strip) (n : Snapshot) : (writePlan r n s).bdb = s.bdb := by
  unfold writePlan
  dsimp only
  split
  · rfl
  · obtain ⟨-, -, -, hf⟩ := reservePieces_spec (r.scan.getD { colour := 0, defects := [] }).colour (_ :: _) s
    rw [hf]
    rfl

@[simp] theorem planCompletion_bdb : (planCompletion s).bdb = s.bdb := by
  unfold planCompletion
  split
  · rfl
  · dsimp only
    split <;> simp

@[simp] theorem deadlineAction_bdb (r : Strip) : (deadlineAction r s).bdb = s.bdb := by
  unfold deadlineAction
  split
  · rfl
  · rfl
  · simp
  · split
    · simp
    · split <;> simp

@[simp] theorem deliverDeadline_bdb (t : Nat) : (deliverDeadline t s).bdb = s.bdb := by
  unfold deliverDeadline
  split
  · rfl
  · split
    · rfl
    · split <;> simp

@[simp] theorem scanRecordReceived_bdb (p : List Byte) : (scanRecordReceived p s).bdb = s.bdb := by
  unfold scanRecordReceived takeScanRecord
  dsimp only
  split
  · split <;> rfl
  · split
    · rfl
    · simp [scanAccept]

@[simp] theorem releasePlan_bdb (r : Strip) : (releasePlan r s).bdb = s.bdb := by
  rw [releasePlan_eq, releaseAll_frame]

@[simp] theorem countBin0_bdb (r : Bin0Reason) : (countBin0 r s).bdb = s.bdb := by cases r <;> rfl

@[simp] theorem createAt_bdb (i : Option Nat) (c : CutList) (r : Strip) : (createAt i c r s).bdb = s.bdb := by
  unfold createAt
  split
  · rfl
  · unfold createPlanned
    split
    · rfl
    · split <;> simp

@[simp] theorem createUncut_bdb (c : CutList) (r : Strip) : (createUncut c r s).bdb = s.bdb := by simp [createUncut]

@[simp] theorem cutMade_bdb (c : CutList) (x : Nat) (r : Strip) : (cutMade c x r s).bdb = s.bdb := by
  have hfires : (s.firesCut c.tag x).bdb = s.bdb := rfl
  rw [cutMade_eq]
  split <;> simp [hfires]

@[simp] theorem cutMissed_bdb (c : CutList) (x : Nat) (r : Strip) : (cutMissed c x r s).bdb = s.bdb := by
  have hmisses : (s.missesCut c.tag x).bdb = s.bdb := rfl
  rw [cutMissed_eq]
  split <;> simp [hmisses]

@[simp] theorem trailCreation_bdb (c : CutList) (r : Strip) : (trailCreation c r s).bdb = s.bdb := by
  unfold trailCreation
  split <;> simp

@[simp] theorem slipCheck_bdb (r : Strip) (l : Nat) : (slipCheck r l s).bdb = s.bdb := by
  unfold slipCheck
  split
  · rfl
  · split <;> rfl

@[simp] theorem gaugeMark_bdb : (gaugeMark s).bdb = s.bdb := by
  unfold gaugeMark
  dsimp only
  split
  · rfl
  · split <;> rfl

@[simp] theorem barEnd_bdb : (barEnd s).bdb = s.bdb := by
  unfold barEnd
  split
  · split <;> rfl
  · rfl

@[simp] theorem measureLead_bdb : (measureLead s).bdb = s.bdb := by
  unfold measureLead
  split
  · simp
  · split
    · rfl
    · unfold measureStray
      dsimp only
      split
      · simp [countStray, setHolder]
      · rfl

@[simp] theorem measureTrail_bdb : (measureTrail s).bdb = s.bdb := by
  unfold measureTrail
  split
  · unfold gaugeTrail
    split <;> rfl
  · split
    · rfl
    · dsimp only
      split
      · rfl
      · unfold lengthWrite
        split
        · simp [setHolder]
        · rfl

@[simp] theorem scanLead_bdb : (scanLead s).bdb = s.bdb := by
  unfold scanLead
  split
  · unfold scanMatch announce
    dsimp only
    split
    · rfl
    · split <;> rfl
  · rfl

@[simp] theorem sawLead_bdb : (sawLead s).bdb = s.bdb := by
  unfold sawLead
  split <;> rfl

@[simp] theorem encoderPulse_bdb (e : Encoder) (d : Direction) : (encoderPulse e d s).bdb = s.bdb := by
  unfold encoderPulse
  split
  · rfl
  · cases e <;> rfl

@[simp] theorem feedReadyChange_bdb (b : Bool) : (feedReadyChange b s).bdb = s.bdb := by
  unfold feedReadyChange
  dsimp only
  split <;> simp

@[simp] theorem feedReadyEdge_bdb (b : Bool) : (feedReadyEdge b s).bdb = s.bdb := by
  unfold feedReadyEdge
  split
  · rfl
  · dsimp only
    split <;> simp

@[simp] theorem decideSlot_bdb : (decideSlot s).bdb = s.bdb := by
  unfold decideSlot
  split
  · rfl
  · split
    · unfold heldSlot
      dsimp only
      split <;> simp
    · split <;> rfl

@[simp] theorem slotEvent_bdb : (slotEvent s).bdb = s.bdb := by
  unfold slotEvent
  split
  · dsimp only
    split
    · unfold periodStart
      dsimp only
      split <;> simp [nextSlot]
    · simp [nextSlot]
  · rfl

@[simp] theorem spinupExpiry_bdb : (spinupExpiry s).bdb = s.bdb := by
  unfold spinupExpiry
  split <;> simp

@[simp] theorem hysteresisExpiry_bdb : (hysteresisExpiry s).bdb = s.bdb := by
  unfold hysteresisExpiry
  split <;> simp

@[simp] theorem residencyExpiry_bdb : (residencyExpiry s).bdb = s.bdb := by
  unfold residencyExpiry
  split
  · dsimp only
    split <;> simp
  · rfl

@[simp] theorem abortTaken_bdb : (abortTaken s).bdb = s.bdb := by
  unfold abortTaken
  split
  · rfl
  · simp [backToRunning]

@[simp] theorem toolingReadyRise_bdb : (toolingReadyRise s).bdb = s.bdb := by
  unfold toolingReadyRise
  split
  · rfl
  · dsimp only
    split
    · simp [changeComplete]
    · rfl

@[simp] theorem toolingTimerExpiry_bdb : (toolingTimerExpiry s).bdb = s.bdb := by
  unfold toolingTimerExpiry
  split <;> simp

@[simp] theorem stopRunning_bdb : (stopRunning s).bdb = s.bdb := by
  unfold stopRunning
  split <;> simp

@[simp] theorem rowRequest_bdb : (rowRequest s).bdb = s.bdb := by
  unfold rowRequest
  split
  · rfl
  · dsimp only
    split <;> rfl

@[simp] theorem printFaultAssert_bdb : (printFaultAssert s).bdb = s.bdb := by
  unfold printFaultAssert
  split
  · rfl
  · dsimp only
    split <;> simp

@[simp] theorem printFaultRelease_bdb : (printFaultRelease s).bdb = s.bdb := by
  unfold printFaultRelease
  split <;> simp

@[simp] theorem printTimerExpiry_bdb : (printTimerExpiry s).bdb = s.bdb := by
  unfold printTimerExpiry
  split <;> simp

@[simp] theorem printReadyRise_bdb : (printReadyRise s).bdb = s.bdb := by
  unfold printReadyRise
  split <;> simp

@[simp] theorem donePulseEnd_bdb : (donePulseEnd s).bdb = s.bdb := by
  unfold donePulseEnd
  split <;> simp

@[simp] theorem retrySlot_bdb (k : Nat) : (retrySlot k s).bdb = s.bdb := by simp [retrySlot]

end

end Sys2Proof.Machine
end

section
/-! PROOFS. Every step keeps the open bundles within their limits (O9): the few operations that change a bundle or its
settings, and every other as one that leaves both. -/

namespace Sys2Proof.Machine

open Sys2Proof

/-! ## The relation -/

/-- Bin by bin, t's open bundle keeps its limits where s's does (R134). -/
def Fits (s t : State) : Prop := ∀ b, (binAt s b).bundleSound → (binAt t b).bundleSound

theorem Fits.refl (s : State) : Fits s s := fun _ => id

theorem Fits.trans {s t u : State} (h : Fits s t) (h' : Fits t u) : Fits s u := fun b hb => h' b (h b hb)

/-- The same, the later change first. -/
theorem Fits.after {s t u : State} (h' : Fits t u) (h : Fits s t) : Fits s u := h.trans h'

/-- The limits are those of the bundle and the settings, and of nothing else of the bin. -/
theorem Bin.bundleSound_congr {x y : Bin} (hb : y.bundle = x.bundle) (hs : y.settings = x.settings) :
    y.bundleSound ↔ x.bundleSound := by
  unfold Bin.bundleSound
  rw [hb, hs]

/-- Bins that differ in neither bundle nor settings. -/
theorem Fits.of_same {s t : State} (h : ∀ b, (binAt t b).bundle = (binAt s b).bundle
    ∧ (binAt t b).settings = (binAt s b).settings) : Fits s t :=
  fun b => (Bin.bundleSound_congr (h b).1 (h b).2).mpr

@[simp] theorem Fits.of_bdb {s t : State} (h : t.bdb = s.bdb) : Fits s t :=
  fun b => by unfold binAt; rw [h]; exact id

/-- After a change of other blocks. -/
theorem Fits.after_bdb {s t u : State} (h : Fits t u) (hb : t.bdb = s.bdb) : Fits s u := h.after (.of_bdb hb)

/-- Closings and discards leave the bundles and the settings. -/
theorem Clears.fits {f : Nat → Nat} {s t : State} (h : Clears f s t) : Fits s t :=
  .of_same fun b => ⟨(h.bins b).1, (h.bins b).2.1⟩

/-- An empty bundle is within any limits. -/
theorem bundleSound_emptied {x : Bin} (h : x.bundle = .emptied) : x.bundleSound := by
  simp [Bin.bundleSound, h, Bundle.emptied]

theorem bundlesSound_iff (s : State) : s.bundlesSound ↔ ∀ b, (binAt s b).bundleSound := by
  have h := exists_entry_iff s.bdb.bins Bin.initial (P := fun x => ¬ x.bundleSound)
    (not_not.mpr (bundleSound_emptied rfl))
  have h' := not_congr h
  push Not at h'
  exact h'.symm

/-- A change of one bin. -/
theorem fits_modBin (s : State) (b : Nat) (f : Bin → Bin)
    (hf : (binAt s b).bundleSound → (f (binAt s b)).bundleSound) : Fits s (s.modBin b f) := by
  intro j hj
  rw [binAt_modBin]
  split
  · next h => exact hf (h.1 ▸ hj)
  · exact hj

/-- A change of every bin that leaves bundles and settings. -/
theorem fits_mapBins {s t : State} (f : Bin → Bin) (ht : t.bdb.bins = s.bdb.bins.map f)
    (hf : ∀ x, (f x).bundle = x.bundle ∧ (f x).settings = x.settings) : Fits s t := by
  refine .of_same fun b => ?_
  unfold binAt tabGet
  rw [ht]
  split
  · exact ⟨rfl, rfl⟩
  · rw [Vector.getElem?_map]
    cases s.bdb.bins[b - 1]? with
    | none => exact ⟨rfl, rfl⟩
    | some x => exact hf x

/-! ## Acceptance and landing (R134, R136) -/

/-- An accepted piece's space stays within the limits its acceptance tested (R134). -/
theorem bundleSound_allocate {x : Bin} {n : Nat} (p : Nat) {k : TallyKey} (h : x.bundleSound)
    (hspace : spaceOk x n = true) (hshorts : shortsOk x n = true) (htallies : talliesOk x k = true) :
    (allocate x n p k).bundleSound := by
  obtain ⟨hfills, hrows, hlimit, hcount⟩ := h
  simp only [spaceOk, Bool.or_eq_true, Bool.and_eq_true, decide_eq_true_eq] at hspace
  simp only [shortsOk, Bool.or_eq_true, Bool.not_eq_true', decide_eq_true_eq] at hshorts
  simp only [talliesOk, Bool.or_eq_true, decide_eq_true_eq] at htallies
  refine ⟨fun f hf => ?_, ?_, ?_, ?_⟩
  · by_cases hfit : fitsRow x n = true
    · have hlen : x.bundle.currentFill + addedFill x n ≤ x.settings.length := by
        simp only [fitsRow, Bool.and_eq_true, decide_eq_true_eq] at hfit
        exact hfit.2
      simp only [allocate, hfit, if_true, List.mem_append, List.mem_singleton] at hf
      obtain hf | rfl := hf
      · exact hfills f (List.mem_of_mem_dropLast hf)
      · exact hlen
    · obtain ⟨-, hn⟩ := hspace.resolve_left hfit
      simp only [allocate, hfit, Bool.false_eq_true, if_false, List.mem_append, List.mem_singleton] at hf
      obtain hf | rfl := hf
      · exact hfills f hf
      · exact hn
  · by_cases hfit : fitsRow x n = true
    · have hne : x.bundle.rowFills ≠ [] := by
        simp only [fitsRow, Bundle.allocated, Bool.and_eq_true, Bool.not_eq_true', List.isEmpty_eq_false_iff] at hfit
        exact hfit.1
      have := List.length_pos_iff.mpr hne
      simp only [allocate, hfit, if_true, List.length_append, List.length_dropLast, List.length_singleton]
      omega
    · obtain ⟨hr, -⟩ := hspace.resolve_left hfit
      simpa [allocate, hfit] using (show x.bundle.rowFills.length + 1 ≤ x.settings.rows from hr)
  · by_cases hshort : isShort x n = true
    · simpa [allocate, hshort] using hshorts.resolve_left (by simp [hshort])
    · simpa [allocate, hshort] using hlimit
  · by_cases htally : hasTally x.bundle k = true
    · simpa [allocate, htally] using hcount
    · have hroom : x.bundle.tallies.length < 6 := htallies.resolve_left htally
      simp only [allocate, htally, Bool.false_eq_true, if_false, List.length_append, List.length_singleton]
      omega

/-- An offer refused counts; an offer accepted allocates (R134). -/
theorem bundleSound_offer {x : Bin} (n p : Nat) (k : TallyKey) (h : x.bundleSound) :
    (offer x n p k).1.bundleSound := by
  unfold offer
  split
  · exact h
  · next hspace =>
    split
    · exact h
    · next hshorts =>
      split
      · exact h
      · next htallies =>
        exact bundleSound_allocate p h (by simpa using hspace) (by simpa using hshorts) (by simpa using htallies)

/-- A landing raises landed figures only (R136). -/
theorem bundleSound_landIn {x : Bin} (n g c col : Nat) (k : TallyKey) (h : x.bundleSound) :
    (landIn n g c col k x).bundleSound := by
  obtain ⟨hfills, hrows, hlimit, hcount⟩ := h
  exact ⟨hfills, hrows, hlimit, by simpa [landIn] using hcount⟩

/-! ## Removals, pieces, the saw -/

theorem fits_afterPiece (s : State) : Fits s (afterPiece s) := (closes_drainTest _).fits.after_bdb (by simp)

theorem fits_afterStrip (s : State) : Fits s (afterStrip s) := (closes_drainTest _).fits.after_bdb (by simp)

theorem fits_removeStrip (r : Strip) (s : State) : Fits s (removeStrip r s) :=
  (fits_afterStrip _).after_bdb (by simp)

theorem fits_windowExpiry (e : TrimEye) (t : Nat) (s : State) : Fits s (windowExpiry e t s) := by
  unfold windowExpiry
  split
  · exact .refl s
  · split
    · exact .refl s
    · split
      · exact (fits_removeStrip _ _).after_bdb (by simp)
      · exact .refl s

theorem fits_doneTest (t : Nat) (s : State) : Fits s (doneTest t s) := by
  unfold doneTest
  split
  · split
    · exact fits_removeStrip _ s
    · exact .refl s
  · exact .refl s

theorem fits_cutDue (t : Nat) (s : State) : Fits s (cutDue t s) := by
  unfold cutDue
  split
  · split
    · exact .refl s
    · split
      · refine (fits_doneTest _ _).after_bdb ?_
        split <;> simp
      · exact .refl s
  · exact .refl s

theorem fits_sawTrailEdge (s : State) : Fits s (sawTrailEdge s) := by
  unfold sawTrailEdge
  split
  · exact .refl s
  · dsimp only
    split
    · exact .of_bdb rfl
    · unfold sawTrail
      split
      · exact .of_bdb rfl
      · exact (fits_doneTest _ _).after_bdb (by simp [setHolder])

theorem fits_takeEdge (e : TrimEye) (b : Bool) (s : State) : Fits s (takeEdge e b s) := by
  cases e <;> cases b
  case saw.false => exact fits_sawTrailEdge s
  all_goals exact .of_bdb (by simp [takeEdge, setHolder])

theorem fits_trimEdge (e : TrimEye) (b : Bool) (s : State) : Fits s (trimEdge e b s) := by
  unfold trimEdge
  split
  · exact .refl s
  · dsimp only
    split
    · exact .of_bdb rfl
    · exact .of_bdb rfl
    · exact (fits_takeEdge _ _ _).after_bdb rfl

/-! ## The drop eye and the diverters -/

theorem fits_toBin0 (r : Bin0Reason) (p : Piece) (s : State) : Fits s (toBin0 r p s) :=
  (fits_afterPiece _).after_bdb (by simp)

theorem fits_searchBins (p : Piece) (bs : List Nat) (s : State) : Fits s (searchBins p bs s).1 := by
  induction bs generalizing s with
  | nil => exact .refl s
  | cons b bs ih =>
    have hoffer := fits_modBin s b (fun _ => (offer (binAt s b) p.net p.profile (tallyKey s p.line)).1)
      (bundleSound_offer _ _ _)
    unfold searchBins
    split
    · dsimp only
      split
      · exact hoffer
      · exact hoffer.trans (ih _)
    · exact ih s

theorem fits_assign (b : Nat) (p : Piece) (s : State) : Fits s (assign b p s) := by
  have hcounted (u : State) : Fits u (u.modBin b fun x => { x with incoming := x.incoming + 1 }) :=
    fits_modBin u b _ id
  unfold assign
  dsimp only
  split
  · exact (closes_closeRequest _ _ _).fits.after ((hcounted _).after_bdb (by simp))
  · exact (hcounted _).after_bdb (by simp)

theorem fits_binSearch (p : Piece) (s : State) : Fits s (binSearch p s) := by
  have hsearch := fits_searchBins p binNumbers s
  unfold binSearch
  split
  · exact fits_toBin0 _ _ s
  · split
    · exact fits_toBin0 _ _ s
    · split
      · next h =>
        rw [h] at hsearch
        exact hsearch.trans (fits_assign _ _ _)
      · next h =>
        rw [h] at hsearch
        exact hsearch.trans (fits_toBin0 _ _ _)

theorem fits_dropLead (s : State) : Fits s (dropLead s) := by
  unfold dropLead
  split
  · exact fits_binSearch _ s
  · exact .of_bdb rfl

theorem fits_dropEdge (b : Bool) (s : State) : Fits s (dropEdge b s) := by
  unfold dropEdge
  split
  · exact .refl s
  · dsimp only
    split
    · exact .of_bdb rfl
    · exact .of_bdb rfl
    · split
      · exact (fits_dropLead _).after_bdb rfl
      · exact .of_bdb rfl

theorem fits_dropExpiry (t i : Nat) (s : State) : Fits s (dropExpiry t i s) := by
  unfold dropExpiry
  split
  · exact .refl s
  · split
    · exact .refl s
    · split
      · exact (fits_afterPiece _).after_bdb (by simp)
      · exact .refl s

theorem fits_land (b : Nat) (p : Piece) (s : State) : Fits s (land b p s) := by
  have harrived : Fits s ((dropPiece p.tag p.index s).modBin b fun x => { x with incoming := x.incoming - 1 }) :=
    (fits_modBin _ b _ (by exact id)).after_bdb rfl
  have hcredited (u : State) : Fits u (credit p.line p.net u) := .of_bdb (by simp)
  exact (fits_afterPiece _).after ((closes_settlePending b _).fits.after
    ((fits_modBin _ b _ (bundleSound_landIn _ _ _ _ _)).after ((hcredited _).after harrived)))

theorem fits_diverterFire (t i : Nat) (s : State) : Fits s (diverterFire t i s) := by
  unfold diverterFire
  split
  · exact .refl s
  · split
    · exact .refl s
    · split
      · exact (fits_land _ _ _).after_bdb rfl
      · exact .refl s

/-! ## The line -/

theorem fits_enterHalted (s : State) : Fits s (enterHalted s) :=
  fits_mapBins (fun b => { b with discharge := none }) (by rw [enterHalted_eq]) fun _ => ⟨rfl, rfl⟩

theorem fits_estopAssert (s : State) : Fits s (estopAssert s) := by
  unfold estopAssert
  dsimp only
  split
  · exact .of_bdb rfl
  · exact (fits_enterHalted _).after_bdb rfl

/-- After reset every bundle is empty (R128, R177). -/
theorem fits_freshState (s : State) : Fits s (freshState s) := by
  refine fun b _ => (bundlesSound_iff _).mp (fun x hx => ?_) b
  have hx : x = .initial := by simpa [freshState, State.reset] using hx
  exact bundleSound_emptied (by rw [hx]; rfl)

theorem fits_resetAll (s : State) : Fits s (resetAll s) := by
  unfold resetAll
  split
  · exact (fits_enterHalted _).after (fits_freshState s)
  · exact fits_freshState s

theorem fits_resumeEdge (e : TrimEye) (s : State) : Fits s (resumeEdge e s) := by
  unfold resumeEdge
  dsimp only
  split
  · exact .refl s
  · exact (fits_takeEdge _ _ _).after_bdb rfl

theorem fits_resumeDrop (s : State) : Fits s (resumeDrop s) := by
  unfold resumeDrop
  dsimp only
  split
  · exact .refl s
  · split
    · exact (fits_dropLead _).after_bdb rfl
    · exact .of_bdb rfl

theorem fits_resumeFeed (s : State) : Fits s (resumeFeed s) := by
  unfold resumeFeed
  split
  · exact .refl s
  · exact .of_bdb (by simp)

theorem fits_resume (s : State) : Fits s (resume s) := by
  have hedges (u : State) :
      Fits u (resumeFeed (resumeDrop (resumeEdge .saw (resumeEdge .scan (resumeEdge .measure u))))) :=
    (fits_resumeFeed _).after ((fits_resumeDrop _).after ((fits_resumeEdge _ _).after
      ((fits_resumeEdge _ _).after (fits_resumeEdge _ u))))
  have hspins (u : State) (n : Notice) : Fits u (enterSpinup .request (u.raise n)) := .of_bdb (by simp)
  exact (closes_dischargeAll _).fits.after ((hspins _ _).after ((hedges _).after_bdb rfl))

theorem fits_clearAll (s : State) : Fits s (clearAll s) :=
  (closes_drainTest _).fits.after (clears_clearedLine s).fits

theorem fits_changeTaken (n : Nat) (s : State) : Fits s (changeTaken n s) := by
  unfold changeTaken
  split
  · split
    · exact .refl s
    · exact (closes_drainTest _).fits.after_bdb (by simp)
  · split
    · exact .refl s
    · split
      · exact .of_bdb (by simp [backToRunning])
      · exact .of_bdb rfl
  · exact .refl s
  · exact .of_bdb (by simp)

/-- 1 ms lets the discharge times run (log 1). -/
theorem fits_tick (s : State) : Fits s (tick s) := by
  unfold tick
  split
  · exact .of_bdb rfl
  · exact fits_mapBins (fun b => { b with discharge := countDown b.discharge }) rfl fun _ => ⟨rfl, rfl⟩

/-! ## Bins, manifests, labels -/

/-- A bin set opens with an empty bundle (R129). -/
theorem fits_openBin (n : Nat) (b : BundleSettings) (s : State) : Fits s (s.modBin n (openBin b)) :=
  fits_modBin s n _ fun _ => bundleSound_emptied rfl

theorem fits_disableTaken (n : Nat) (s : State) : Fits s (disableTaken n s) := by
  unfold disableTaken
  split
  · exact .refl s
  · split
    · exact (closes_closeRequest _ _ _).fits
    · exact fits_modBin s n _ id
  · exact fits_modBin s n _ id

theorem fits_cartChange (n : Nat) (a : Bool) (s : State) : Fits s (cartChange n a s) := by
  have htold (u : State) : (if cartMasked (binAt s n) a then u else u.raise (.cart n a)).bdb = u.bdb := by
    split <;> rfl
  unfold cartChange
  split
  · exact .refl s
  · dsimp only
    split
    · exact (closes_dischargeStart _ _).fits.after_bdb (htold _)
    · exact .of_bdb (htold _)

theorem fits_dischargeEnd (n : Nat) (s : State) : Fits s (dischargeEnd n s) := by
  unfold dischargeEnd
  split
  · have hmarked (v : List Manifest) : Fits s (s.setBdb { s.bdb with manifests := v }) := .of_same fun _ => ⟨rfl, rfl⟩
    exact (fits_modBin _ n _ fun _ => bundleSound_emptied rfl).after (hmarked _)
  · exact .refl s

theorem fits_cartMask (a d : BitVec 16) (s : State) : Fits s (s.setBdb { s.bdb with
    bins := s.bdb.bins.mapFinIdx fun i x _ => { x with arrivalMask := a.getLsbD i, departureMask := d.getLsbD i } }) := by
  refine .of_same fun b => ?_
  unfold binAt tabGet
  split
  · exact ⟨rfl, rfl⟩
  · rw [State.setBdb_bdb, Vector.getElem?_mapFinIdx]
    cases h : s.bdb.bins[b - 1]? with
    | none => simp
    | some x => simp

theorem fits_labelState (b : Option Nat) (l : LabelState) (s : State) : Fits s (labelState b l s) := by
  unfold labelState
  split
  · exact .refl s
  · exact .of_same fun _ => ⟨rfl, rfl⟩

theorem fits_rowTransferEnd (s : State) : Fits s (rowTransferEnd s) := by
  unfold rowTransferEnd
  split
  · dsimp only
    split
    · have hcounted (u : State) (n : Notice) (f : Slot → Slot) (k : Nat) :
          Fits u (((u.raise n).setPrq { (u.raise n).prq with printed := bump (u.raise n).prq.printed }).modSlot k f) :=
        .of_bdb rfl
      exact (closes_attempt _).fits.after ((hcounted _ _ _ _).after ((fits_labelState _ _ _).after_bdb rfl))
    · exact .of_bdb rfl
  · exact .refl s

theorem fits_dropSlot (k : Nat) (s : State) : Fits s (dropSlot k s) := by
  have hcounted (u : State) (f : Slot → Slot) :
      Fits u ((u.setPrq { u.prq with drops := bump u.prq.drops }).modSlot k f) := .of_bdb rfl
  have hstarts (u : State) : Fits u (startTest u) := .of_bdb (by simp)
  exact (hstarts _).after ((closes_attempt _).fits.after ((hcounted _ _).after (fits_labelState _ _ s)))

theorem fits_renderCompletion (s : State) : Fits s (renderCompletion s) := by
  have hstarts (u : State) : Fits u (startTest u) := .of_bdb (by simp)
  unfold renderCompletion
  split
  · exact .refl s
  · split
    · exact .refl s
    · split
      · exact .refl s
      · exact (hstarts _).after (.of_same fun _ => ⟨rfl, rfl⟩)

/-! ## The owners of the requests -/

/-- A request taken keeps the bundles within their limits; a refusal changes nothing. -/
def OkFits (s : State) (a : Answer) : Prop := ∀ t d, a = .ok (t, d) → Fits s t

@[simp] theorem okFits_taken (s t : State) (d : List Byte) : OkFits s (taken t d) ↔ Fits s t :=
  ⟨fun h => h t d rfl, fun h u e he => by cases he; exact h⟩

@[simp] theorem okFits_error (s : State) (c : ResultCode) : OkFits s (.error c) := fun _ _ he => by cases he

@[simp] theorem okFits_refuseIf (s : State) (b : Bool) (c : ResultCode) (a : Answer) :
    OkFits s (refuseIf b c a) ↔ (b = false → OkFits s a) := by
  cases b <;> simp

@[simp] theorem okFits_refuseHalted (s : State) (a : Answer) :
    OkFits s (refuseHalted s a) ↔ (s.ltr.lineState ≠ .halted → OkFits s a) := by
  simp [refuseHalted]

@[simp] theorem okFits_refuseHeld (s : State) (a : Answer) :
    OkFits s (refuseHeld s a) ↔ (s.lcp.hold = false → OkFits s a) := by
  simp [refuseHeld]

@[simp] theorem okFits_refuseWatching (s : State) (a : Answer) :
    OkFits s (refuseWatching s a) ↔ (watching s = false → OkFits s a) := by
  simp [refuseWatching]

theorem okFits_manifestTake (n : Nat) (s : State) : OkFits s (manifestTake n s) := by
  have hleft (v : List Manifest) : Fits s (s.setBdb { s.bdb with manifests := v }) := .of_same fun _ => ⟨rfl, rfl⟩
  unfold manifestTake
  split
  · simp
  · simp only [okFits_refuseIf, okFits_taken]
    exact fun _ => (closes_attempt _).fits.after (hleft _)

theorem okFits_tplHold (s : State) : OkFits s (tplHold s) := by
  unfold tplHold
  split <;> rw [okFits_taken]
  · exact .refl s
  · exact (closes_attempt _).fits.after_bdb rfl

theorem okFits_printDrop (s : State) : OkFits s (printDrop s) := by
  unfold printDrop
  split
  · simp
  · exact (okFits_taken _ _ _).mpr (fits_dropSlot _ s)

@[simp] theorem fits_setMsu (s : State) (v : Msu) : Fits s (s.setMsu v) := .of_bdb rfl
@[simp] theorem fits_setPle (s : State) (v : Ple) : Fits s (s.setPle v) := .of_bdb rfl
@[simp] theorem fits_setFdp (s : State) (v : Fdp) : Fits s (s.setFdp v) := .of_bdb rfl
@[simp] theorem fits_setPfc (s : State) (v : Pfc) : Fits s (s.setPfc v) := .of_bdb rfl
@[simp] theorem fits_setTsc (s : State) (v : Tsc) : Fits s (s.setTsc v) := .of_bdb rfl
@[simp] theorem fits_setSrt (s : State) (v : Srt) : Fits s (s.setSrt v) := .of_bdb rfl
@[simp] theorem fits_setLcp (s : State) (v : Lcp) : Fits s (s.setLcp v) := .of_bdb rfl
@[simp] theorem fits_setPrq (s : State) (v : Prq) : Fits s (s.setPrq v) := .of_bdb rfl
@[simp] theorem fits_setLif (s : State) (v : Lif) : Fits s (s.setLif v) := .of_bdb rfl
@[simp] theorem fits_modLine (s : State) (k : Nat) (f : OrderLine → OrderLine) : Fits s (s.modLine k f) := .of_bdb rfl

theorem okFits_lineGeometry (g : Geometry) (s : State) : OkFits s (lineGeometry g s) := by
  simp only [lineGeometry, okFits_refuseHalted, okFits_refuseIf, okFits_taken]
  exact fun _ _ _ => .of_bdb rfl

theorem okFits_lineStart (s : State) : OkFits s (lineStart s) := by
  simp only [lineStart, okFits_refuseHalted, okFits_refuseIf]
  intro _ _
  split
  · simp [levelsFollow]
  · simp
  · simp

theorem okFits_lineStop (s : State) : OkFits s (lineStop s) := by
  simp only [lineStop, okFits_refuseHalted, okFits_taken]
  intro _
  split <;> simp

theorem okFits_stripRead (n : Nat) (s : State) : OkFits s (stripRead n s) := by
  unfold stripRead
  split <;> simp

theorem okFits_orderClose (k : Nat) (s : State) : OkFits s (orderClose k s) := by
  simp only [orderClose, okFits_refuseHalted, okFits_refuseIf]
  intro _ _ _
  split <;> simp

theorem okFits_manifestRead (n : Nat) (s : State) : OkFits s (manifestRead n s) := by
  unfold manifestRead
  split
  · simp
  · split <;> simp

theorem okFits_tplOp (o : Nat) (m p : Byte) (s : State) : OkFits s (tplOp o m p s) := by
  simp only [tplOp, okFits_refuseHeld]
  intro _
  split <;> simp

theorem okFits_printRetry (s : State) : OkFits s (printRetry s) := by
  unfold printRetry
  split <;> simp

/-- Every owner's answer keeps the bundles within their limits. -/
theorem okFits_ownerAnswer (i : Instr) (s : State) : OkFits s (ownerAnswer i s) := by
  cases i with
  | lineResume _ => simp [ownerAnswer, lineResume, fits_resume]
  | lineClear _ => simp [ownerAnswer, lineClear, fits_clearAll]
  | profileChange _ n => simp [ownerAnswer, profileChange, fits_changeTaken]
  | binSet _ n e b =>
    simp only [ownerAnswer, binSet, okFits_refuseHalted, okFits_refuseIf, okFits_taken]
    exact fun _ _ _ _ _ => (fits_openBin n b _).after_bdb rfl
  | binClose _ n => simp [ownerAnswer, binClose, (closes_closeRequest _ _ _).fits]
  | binDisable _ n => simp [ownerAnswer, binDisable, fits_disableTaken]
  | cartMask _ a d => simp [ownerAnswer, cartMask, fits_cartMask]
  | manifestTake _ n => exact okFits_manifestTake n s
  | tplHold _ => exact okFits_tplHold s
  | printDrop _ => exact okFits_printDrop s
  | lineGeometry _ g => exact okFits_lineGeometry g s
  | lineStart _ => exact okFits_lineStart s
  | lineStop _ => exact okFits_lineStop s
  | stripRead _ n => exact okFits_stripRead n s
  | orderClose _ k => exact okFits_orderClose k s
  | manifestRead _ n => exact okFits_manifestRead n s
  | tplOp _ o m p => exact okFits_tplOp o m p s
  | printRetry _ => exact okFits_printRetry s
  | _ =>
    simp [ownerAnswer, measureSet, gaugeTable, gaugeVerify, gaugeCancelRequest, gaugeRelease, gradeSet,
      weightSet, classSet, valueSet, planOptions, orderLoad, orderAmend, orderRead, paceSet, profileSet, profileAbort,
      trimSet, headsSet, sortSet, binRead, tplWindow, tplAddr, tplWrite, tplFill, tplRead, tplClear, tplRelease,
      glyphWrite, protectSet, fieldSet, printSet, setDate, noticePoll, noticeMask]

/-! ## Every step -/

/-- A byte, a frame or a reply keeps the bundles within their limits. -/
theorem Linked.fits {s t : State} (h : Linked s t) : Fits s t := by
  cases h with
  | links v => exact .of_bdb rfl
  | owner v w i u d h =>
    have hlinks : Fits u (u.setLif w) := .of_bdb rfl
    exact hlinks.after ((okFits_ownerAnswer i _ _ _ h).after_bdb rfl)
  | reset v => exact (fits_resetAll _).after_bdb rfl
  | scan v p => exact .of_bdb (by simp)

/-- Every command that is no request. -/
theorem fits_event {i : Instr} {s t : State} (h : Wire.writeRequest i = none) (ht : exec i s = .next t) :
    Fits s t := by
  cases i with
  | powerOnReset stn rate => cases ht; exact (fits_resetAll _).after_bdb rfl
  | framerByte k b => cases ht; exact (linked_framerByte k b s).fits
  | gapTimerExpiry k => cases ht; exact (linked_gapExpiry k s).fits
  | broadcastFrame k p => cases ht; exact (linked_broadcastFrame k p s).fits
  | replyBegins => cases ht; exact (linked_replyBegins s).fits
  | replySent => cases ht; exact (linked_replySent s).fits
  | announceSent => cases ht; exact (linked_announceSent s).fits
  | estopAssert => cases ht; exact fits_estopAssert s
  | measureLeadingEdge => cases ht; exact fits_trimEdge .measure true s
  | measureTrailingEdge => cases ht; exact fits_trimEdge .measure false s
  | scanLeadingEdge => cases ht; exact fits_trimEdge .scan true s
  | scanTrailingEdge => cases ht; exact fits_trimEdge .scan false s
  | sawLeadingEdge => cases ht; exact fits_trimEdge .saw true s
  | sawTrailingEdge => cases ht; exact fits_trimEdge .saw false s
  | windowExpiry e t => cases ht; exact fits_windowExpiry e t s
  | cutDue t => cases ht; exact fits_cutDue t s
  | dropLeadingEdge => cases ht; exact fits_dropEdge true s
  | dropTrailingEdge => cases ht; exact fits_dropEdge false s
  | dropWindowExpiry t k => cases ht; exact fits_dropExpiry t k s
  | diverterFire t k => cases ht; exact fits_diverterFire t k s
  | cart n a => cases ht; exact fits_cartChange n a s
  | dischargePulseEnd n => cases ht; exact fits_dischargeEnd n s
  | renderCompletion => cases ht; exact fits_renderCompletion s
  | rowTransferEnd => cases ht; exact fits_rowTransferEnd s
  | scanRecord | estopRelease | encoderPulse | deadline | planCompletion | barEnd | slotEvent | feedReadyEdge
  | feedPulseEnd | toolingReadyRise | toolingReadyFall | toolingTimerExpiry | sawPulseEnd | spinupExpiry
  | hysteresisExpiry | residencyExpiry | diverterPulseEnd | printReadyRise | printFaultAssert | printFaultRelease
  | printTimerExpiry | rowRequest | strobeEnd | donePulseEnd | printReadyFall | rowRequestFall =>
    cases ht
    exact .of_bdb (by simp)
  | _ => cases h

/-- Every command keeps the bundles within their limits. -/
theorem fits_exec {i : Instr} {s t : State} (ht : exec i s = .next t) : Fits s t := by
  cases hw : Wire.writeRequest i with
  | none => exact fits_event hw ht
  | some w =>
    obtain ⟨u, hu, hl⟩ := linked_exec_request (s := s) hw
    cases hu.symm.trans ht
    exact hl.fits

/-- Every step keeps the bundles within their limits: 1 ms, and a command taken from the queue. -/
theorem fits_step {s t : State} (h : step s = .next t) : Fits s t := by
  cases hq : s.pending with
  | nil =>
    rw [step_tick s hq] at h
    cases h
    exact fits_tick s
  | cons c rest =>
    have he : step s = exec c (s.setPending rest) := by simp [step, hq]
    exact (fits_exec (s := s.setPending rest) (he ▸ h)).after_bdb rfl

/-- Settles O9, bin by bin. -/
theorem bundlesKeepTheirLimits : Obligations.BundlesKeepTheirLimits := fun s t hs h =>
  (bundlesSound_iff t).mpr fun b => fits_step h b ((bundlesSound_iff s).mp hs b)

end Sys2Proof.Machine
end

section
/-! PROOFS. What the acceptance test of a bin does (O45): each of its tests as arithmetic over the bundle, then the
chain of refusals (R134). -/

namespace Sys2Proof.Machine

open Sys2Proof

theorem Bundle.allocated_iff (u : Bundle) : u.allocated = true ↔ u.rowFills ≠ [] := by
  simp [Bundle.allocated]

theorem fitsRow_iff (x : Bin) (n : Nat) : fitsRow x n = true ↔ x.bundle.rowFills ≠ []
    ∧ (x.bundle.rowFills.getLast?.getD 0) + (if x.bundle.inRow = 0 then 0 else x.settings.gap) + n
      ≤ x.settings.length := by
  rw [fitsRow, Bool.and_eq_true, Bundle.allocated_iff, decide_eq_true_eq, addedFill, ← Nat.add_assoc]
  rfl

theorem spaceOk_iff (x : Bin) (n : Nat) : spaceOk x n = true ↔
    fitsRow x n = true ∨ (x.bundle.rowFills.length < x.settings.rows ∧ n ≤ x.settings.length) := by
  rw [spaceOk, Bool.or_eq_true, Bool.and_eq_true, decide_eq_true_eq, decide_eq_true_eq]
  rfl

theorem shortsOk_iff (x : Bin) (n : Nat) : shortsOk x n = true ↔ x.settings.shortsThreshold ≤ n
    ∨ x.bundle.shorts + n ≤ x.settings.shortsShare * x.settings.length * x.settings.rows / 100 := by
  rw [shortsOk, Bool.or_eq_true, isShort, Bool.not_eq_true', decide_eq_false_iff_not, Nat.not_lt,
    decide_eq_true_eq]
  rfl

theorem hasTally_iff (u : Bundle) (k : TallyKey) : hasTally u k = true ↔ ∃ y ∈ u.tallies, y.key = k := by
  simp [hasTally]

theorem talliesOk_iff (x : Bin) (k : TallyKey) : talliesOk x k = true ↔
    (∃ y ∈ x.bundle.tallies, y.key = k) ∨ x.bundle.tallies.length < 6 := by
  rw [talliesOk, Bool.or_eq_true, hasTally_iff, decide_eq_true_eq]
  rfl

/-- A piece that fits is laid in the current row, any other starts a row (R134). -/
theorem allocate_rows (x : Bin) (n p : Nat) (k : TallyKey) :
    (fitsRow x n = true →
      (allocate x n p k).bundle.rowFills = x.bundle.rowFills.dropLast ++ [(x.bundle.rowFills.getLast?.getD 0)
          + (if x.bundle.inRow = 0 then 0 else x.settings.gap) + n]
        ∧ (allocate x n p k).bundle.inRow = x.bundle.inRow + 1)
    ∧ (¬ fitsRow x n = true →
      (allocate x n p k).bundle.rowFills = x.bundle.rowFills ++ [n] ∧ (allocate x n p k).bundle.inRow = 1) := by
  refine ⟨fun h => ?_, fun h => ?_⟩
  · simp [allocate, h, addedFill, Bundle.currentFill, Nat.add_assoc]
  · simp [allocate, h]

/-- A tally is opened for a key the bundle has none of (R134). -/
theorem allocate_tallies (x : Bin) (n p : Nat) (k : TallyKey) :
    ((∃ y ∈ x.bundle.tallies, y.key = k) → (allocate x n p k).bundle.tallies = x.bundle.tallies)
    ∧ ((∀ y ∈ x.bundle.tallies, y.key ≠ k) →
      (allocate x n p k).bundle.tallies = x.bundle.tallies ++ [{ key := k, pieces := 0, mm := 0 }]) := by
  refine ⟨fun h => if_pos ((hasTally_iff _ _).mpr h), fun h => if_neg fun hk => ?_⟩
  obtain ⟨y, hy, rfl⟩ := (hasTally_iff _ _).mp hk
  exact h y hy rfl

/-- Short pieces add to the shorts length, and the first piece gives the bundle its profile (R134). -/
theorem allocate_figures (x : Bin) (n p : Nat) (k : TallyKey) :
    (allocate x n p k).bundle.shorts
        = (if n < x.settings.shortsThreshold then x.bundle.shorts + n else x.bundle.shorts)
      ∧ (allocate x n p k).bundle.profile = (if x.bundle.rowFills = [] then p else x.bundle.profile) := by
  refine ⟨?_, ?_⟩
  · simp [allocate, isShort]
  · by_cases h : x.bundle.rowFills = [] <;> simp [allocate, Bundle.allocated, h]

/-- Settles O45, test by test. -/
theorem acceptanceTest : Obligations.AcceptanceTest := by
  intro x n p k fits space shorts tally hfits hspace hshorts htally
  have hfit : fits ↔ fitsRow x n = true := hfits.trans (fitsRow_iff x n).symm
  have hsp : space ↔ spaceOk x n = true := by rw [hspace, hfit, spaceOk_iff]
  have hsh : shorts ↔ shortsOk x n = true := hshorts.trans (shortsOk_iff x n).symm
  have hta : tally ↔ talliesOk x k = true := htally.trans (talliesOk_iff x k).symm
  rw [hsp, hsh, hta, hfit]
  refine ⟨fun h => ?_, fun h h' => ?_, fun h h' h'' => ?_, fun h h' h'' => ⟨(allocate x n p k).bundle, ?_,
    (allocate_rows x n p k).1, (allocate_rows x n p k).2, (allocate_figures x n p k).1,
    (allocate_tallies x n p k).1, (allocate_tallies x n p k).2, (allocate_figures x n p k).2, rfl⟩⟩
  · simp [offer, h, bump]
  · simp [offer, h, h', bump]
  · simp [offer, h, h', h'', bump]
  · simp [offer, h, h', h'', allocate]

end Sys2Proof.Machine
end

section
/-! PROOFS. The bins, the label slots and the numbers that name them, as the tables hold them. -/

namespace Sys2Proof.Machine

open Sys2Proof

theorem within_iff (lo hi n : Nat) : within lo hi n = true ↔ lo ≤ n ∧ n ≤ hi := by simp [within]

theorem binOk_iff (b : Nat) : binOk b = true ↔ 1 ≤ b ∧ b ≤ 14 := within_iff 1 14 b

/-- An entry of a table after its change. -/
theorem tabGet_tabMod_some {α : Type} {n k : Nat} {v : Vector α n} {x : α} (f : α → α) (h : tabGet v k = some x) :
    tabGet (tabMod v k f) k = some (f x) := by
  rw [tabGet_tabMod_same, h]
  rfl

theorem binAt_eq {s : State} {b : Nat} {x : Bin} (h : tabGet s.bdb.bins b = some x) : binAt s b = x := by
  simp [binAt, h]

theorem slotAt_eq {s : State} {k : Nat} {x : Slot} (h : tabGet s.prq.slots k = some x) : slotAt s k = x := by
  simp [slotAt, h]

theorem tabGet_bins {s : State} {b : Nat} (h : 1 ≤ b ∧ b ≤ 14) : tabGet s.bdb.bins b = some (binAt s b) := by
  obtain ⟨x, hx⟩ := Option.isSome_iff_exists.mp ((tabGet_range s.bdb.bins b).mpr h)
  rw [hx, binAt_eq hx]

theorem tabGet_slots {s : State} {k : Nat} (h : 1 ≤ k ∧ k ≤ 4) : tabGet s.prq.slots k = some (slotAt s k) := by
  obtain ⟨x, hx⟩ := Option.isSome_iff_exists.mp ((tabGet_range s.prq.slots k).mpr h)
  rw [hx, slotAt_eq hx]

theorem range_of_tabGet {α : Type} {n k : Nat} {v : Vector α n} {x : α} (h : tabGet v k = some x) :
    1 ≤ k ∧ k ≤ n := (tabGet_range v k).mp (by simp [h])

/-- An entry of a table every entry of which is changed by its number. -/
theorem tabGet_mapFinIdx {α : Type} {n k : Nat} {v : Vector α n} {x : α} (f : Nat → α → α) (h : tabGet v k = some x) :
    tabGet (v.mapFinIdx fun i y _ => f i y) k = some (f (k - 1) x) := by
  have hk : k ≠ 0 := by have := range_of_tabGet h; omega
  simp only [tabGet, if_neg hk] at h ⊢
  simp [h]

/-- The start of a discharge changes bins only. -/
theorem dischargeStart_bins (b : Nat) (s : State) :
    dischargeStart b s = { s with bdb := { s.bdb with bins := (dischargeStart b s).bdb.bins } } := by
  unfold dischargeStart
  dsimp only
  split <;> rfl

end Sys2Proof.Machine
end

section
/-! PROOFS. The manifests taken, the carts and the end of a discharge (O47). -/

namespace Sys2Proof.Machine

open Sys2Proof

/-! ## MANIFEST_TAKE (R141) -/

theorem Manifest.takeable_iff (m : Manifest) : m.takeable = true ↔ m.label ≠ .pending ∧ m.discharged = true := by
  simp [Manifest.takeable]

theorem answered_manifestTake_none {s : State} {n : Nat} (k g : Byte) (h : ∀ m ∈ s.bdb.manifests, m.number ≠ n) :
    s.answered k g (manifestTake n s) = s.refusedWith k g .notFound := by
  have hnone : manifestOf s n = none := by simpa [manifestOf] using h
  simp only [manifestTake, hnone, answered_error]

theorem answered_manifestTake_some {s : State} {n : Nat} {m : Manifest} (k g : Byte)
    (h : s.bdb.manifests.find? (fun m => m.number == n) = some m) :
    s.answered k g (manifestTake n s) = if m.takeable = true then s.answered k g (taken (attempt (s.setBdb { s.bdb with
        manifests := s.bdb.manifests.filter (fun x => x.number != n) })) m.record)
      else s.refusedWith k g .notReady := by
  simp only [manifestTake, manifestOf, h, answered_refuseIf, Bool.not_eq_true', ← Bool.not_eq_true, ite_not]

/-- The manifest taken leaves the table, and an attempt at completion follows (R138, R141). -/
theorem closesWaiting_take (s : State) (n : Nat) : State.closesWaiting { s with
      bdb := { s.bdb with manifests := s.bdb.manifests.filter (fun m => m.number ≠ n) } }
    (attempt (s.setBdb { s.bdb with manifests := s.bdb.manifests.filter (fun x => x.number != n) })) := by
  have hf : (fun m : Manifest => decide (m.number ≠ n)) = fun x => x.number != n := by
    funext m
    by_cases h : m.number = n <;> simp [h]
  rw [hf]
  exact closesWaiting_attempt _

/-! ## Carts (R142, R143) -/

/-- A cart input changed to c, with its notice where it is not masked: what comes before the discharge that an arrival
may begin (R142). -/
def State.cartTold (s : State) (n : Nat) (c : Bool) : State :=
  { s with pins := { s.pins with carts := tabMod s.pins.carts n (fun _ => c) }
           lif := if cartMasked (binAt s n) c then s.lif else s.lif.raise (.cart n c) }

theorem cartPresent_eq {s : State} {n : Nat} {c : Bool} (h : tabGet s.pins.carts n = some c) :
    cartPresent s n = c := by simp [cartPresent, h]

theorem cartChange_same {s : State} {n : Nat} {c : Bool} (h : tabGet s.pins.carts n = some c) :
    cartChange n c s = s := by simp [cartChange, cartPresent_eq h]

theorem cartChange_other {s : State} {n : Nat} {c : Bool} (h : tabGet s.pins.carts n = some c) :
    cartChange n (!c) s = if c = true then s.cartTold n false else dischargeStart n (s.cartTold n true) := by
  have hn : binOk n = true := (binOk_iff n).mpr (range_of_tabGet h)
  have htold : ∀ d, (if cartMasked (binAt s n) d = true then
        s.setPins { s.pins with carts := tabMod s.pins.carts n (fun _ => d) }
      else (s.setPins { s.pins with carts := tabMod s.pins.carts n (fun _ => d) }).raise (.cart n d))
      = s.cartTold n d := fun d => by
    unfold State.cartTold
    split <;> rfl
  cases c <;> simp [cartChange, hn, cartPresent_eq h, htold]

theorem cartTold_carts {s : State} {n : Nat} {c d : Bool} (h : tabGet s.pins.carts n = some c) :
    tabGet (s.cartTold n d).pins.carts n = some d
      ∧ ∀ j, j ≠ n → tabGet (s.cartTold n d).pins.carts j = tabGet s.pins.carts j :=
  ⟨tabGet_tabMod_some _ h, fun _ hj => tabGet_tabMod_other _ _ _ _ hj⟩

theorem cartMasked_iff (x : Bin) (c : Bool) : cartMasked x (!c) = true ↔
    (c = false ∧ x.arrivalMask = true) ∨ (c = true ∧ x.departureMask = true) := by
  cases c <;> simp [cartMasked]

theorem cartTold_lif (s : State) (n : Nat) (c : Bool) : (s.cartTold n (!c)).lif =
    (if (c = false ∧ (binAt s n).arrivalMask = true) ∨ (c = true ∧ (binAt s n).departureMask = true) then s.lif
      else s.lif.raise (.cart n (!c))) := if_congr (cartMasked_iff _ _) rfl rfl

/-- The bins after a change of a cart input: an arrival in WAIT_CART outside HALTED begins the discharge, unless one
runs (R143). -/
theorem binAt_cartChange {s : State} {n : Nat} {c : Bool} (h : tabGet s.pins.carts n = some c) (j : Nat) :
    binAt (cartChange n (!c) s) j = if j = n ∧ c = false ∧ (binAt s n).state = .waitCart
        ∧ s.ltr.lineState ≠ .halted ∧ (binAt s n).discharge = none then
      { binAt s n with discharge := some (binAt s n).settings.dischargePulse } else binAt s j := by
  rw [cartChange_other h]
  cases c with
  | true => simp [binAt, State.cartTold]
  | false =>
    have hc : tabGet (s.cartTold n true).pins.carts n = some true := (cartTold_carts h).1
    have hb : ∀ j, binAt (s.cartTold n true) j = binAt s j := fun _ => rfl
    have hl : (s.cartTold n true).ltr = s.ltr := rfl
    simp [binAt_dischargeStart _ _ _ (range_of_tabGet h), hc, hb, hl]

/-- What a change of a cart input leaves as it was (R142, R143). -/
theorem cartChange_frame {s : State} {n : Nat} {c : Bool} (h : tabGet s.pins.carts n = some c) :
    cartChange n (!c) s = { s.cartTold n (!c) with
      bdb := { s.bdb with bins := (cartChange n (!c) s).bdb.bins } } := by
  rw [cartChange_other h]
  cases c with
  | true => rfl
  | false => exact dischargeStart_bins n (s.cartTold n true)

/-! ## The end of a discharge (R143) -/

theorem dischargeEnd_idle {s : State} {n : Nat}
    (h : (binAt s n).state ≠ .waitCart ∨ (binAt s n).discharge = none) : dischargeEnd n s = s := by
  refine if_neg ?_
  simp only [Bool.and_eq_true, beq_iff_eq, Option.isSome_iff_ne_none]
  tauto

theorem dischargeEnd_running {s : State} {n ms : Nat} {x : Bin} (h : tabGet s.bdb.bins n = some x)
    (hx : x.state = .waitCart) (hd : x.discharge = some ms) : dischargeEnd n s = { s with
      bdb := { s.bdb with bins := tabMod s.bdb.bins n afterDischarge
                          manifests := dischargedManifest n s.bdb.manifests } } :=
  if_pos (by rw [binAt_eq h]; simp [hx, hd])

theorem dischargedManifest_eq (n : Nat) (ms : List Manifest) : dischargedManifest n ms =
    ms.map (fun m => if m.bin = n ∧ m.discharged = false then { m with discharged := true } else m) := by
  simp [dischargedManifest]

/-- Settles O47. -/
theorem manifestsCartsAndDischarge : Obligations.ManifestsCartsAndDischarge := by
  refine ⟨fun m => (readsAnswerAndChangeNothing.2.2 m).1, rfl, fun g n s hr => ⟨fun h => ?_, fun m hm => ⟨fun h => ?_,
    fun hl hd => ?_⟩⟩, fun s => ⟨fun g a d hr => ?_, fun n c hc => ⟨?_, ?_⟩, fun n h => ?_, fun n x ms hx hs hd => ?_⟩⟩
  · exact (request_answered hr 0x5E#8 g (manifestTake n)).trans (next_congr (answered_manifestTake_none _ _ h))
  · refine (request_answered hr 0x5E#8 g (manifestTake n)).trans (next_congr ?_)
    rw [answered_manifestTake_some _ _ hm, if_neg]
    rw [m.takeable_iff]
    rintro ⟨hl, hd⟩
    exact h.elim hl (by simp [hd])
  · refine ⟨_, (request_answered hr 0x5E#8 g (manifestTake n)).trans (next_congr ?_), closesWaiting_take s n⟩
    rw [answered_manifestTake_some _ _ hm, if_pos (m.takeable_iff.mpr ⟨hl, hd⟩), answered_taken]
  · refine ⟨_, request_answered hr 0x5C#8 g (cartMask a d), fun b x _ hx => ?_⟩
    exact tabGet_mapFinIdx (fun i x => { x with arrivalMask := a.getLsbD i, departureMask := d.getLsbD i }) hx
  · exact next_congr (cartChange_same hc)
  · have hf := cartChange_frame hc
    have hcarts := cartTold_carts (d := !c) hc
    have hpins : (cartChange n (!c) s).pins = (s.cartTold n (!c)).pins := by rw [hf]
    have hlif : (cartChange n (!c) s).lif = (s.cartTold n (!c)).lif := by rw [hf]
    refine ⟨cartChange n (!c) s, rfl, ?_, hpins ▸ hcarts.1, hpins ▸ hcarts.2, hlif.trans (cartTold_lif s n c),
      fun j hj => ?_, ?_⟩
    · rw [hpins, hlif]
      exact hf
    · rw [binAt_cartChange hc, if_neg fun e => hj e.1]
    · rw [binAt_cartChange hc]
      exact if_congr (and_iff_right rfl) rfl rfl
  · exact next_congr (dischargeEnd_idle h)
  · refine ⟨tabMod s.bdb.bins n afterDischarge, next_congr ?_, tabGet_tabMod_some _ hx,
      fun j hj => tabGet_tabMod_other _ _ _ _ hj⟩
    rw [← dischargedManifest_eq]
    exact dischargeEnd_running hx hs hd

end Sys2Proof.Machine
end

section
/-! PROOFS. The requests of the print queue and the start test at its three events (O54). -/

namespace Sys2Proof.Machine

open Sys2Proof

theorem printOk_iff (p : PrintSettings) : printOk p = true ↔
    (1 ≤ p.timer ∧ p.timer ≤ 60) ∧ (1 ≤ p.strobe ∧ p.strobe ≤ 50) ∧ (1 ≤ p.done ∧ p.done ≤ 50)
      ∧ (1 ≤ p.byteTime ∧ p.byteTime ≤ 200) := by
  simp only [printOk, Bool.and_eq_true, within_iff, and_assoc]

/-- The one slot in FAULT is the one that RETRY and DROP act on (R169). -/
theorem faultSlot_eq {s : State} {k : Nat} {x : Slot} (hk : tabGet s.prq.slots k = some x) (hx : x.state = .fault)
    (honly : ∀ j y, j ≠ k → tabGet s.prq.slots j = some y → y.state ≠ .fault) : faultSlot s = some k := by
  have hin : k ∈ slotNumbers := by
    have := range_of_tabGet hk
    simp only [slotNumbers, List.mem_cons, List.not_mem_nil, or_false]
    omega
  have hfault : ((slotAt s k).state == .fault) = true := by rw [slotAt_eq hk, hx]; rfl
  obtain ⟨j, hj⟩ : ∃ j, faultSlot s = some j :=
    Option.isSome_iff_exists.mp (List.find?_isSome.mpr ⟨k, hin, hfault⟩)
  have hjf : (slotAt s j).state = .fault := by simpa using List.find?_some hj
  have hjr : 1 ≤ j ∧ j ≤ 4 := by
    have := List.mem_of_find?_eq_some hj
    simp only [slotNumbers, List.mem_cons, List.not_mem_nil, or_false] at this
    omega
  by_cases h : j = k
  · rw [hj, h]
  · exact absurd hjf (honly j _ h (tabGet_slots hjr))

/-- The manifests of a bundle number changed, in the words of the statements. -/
theorem modManifest_eq (s : State) (n : Nat) (f : Manifest → Manifest) : s.modManifest n f = { s with
    bdb := { s.bdb with manifests := s.bdb.manifests.map (fun m => if m.number = n then f m else m) } } := by
  simp [State.modManifest, State.setBdb]

/-- A label dropped: its manifest reads LOST and its slot is FREE, before an attempt and the start test (R170). -/
theorem dropSlot_eq {s : State} {k n : Nat} {x : Slot} (hk : tabGet s.prq.slots k = some x) (hn : x.bundle = some n) :
    dropSlot k s = startTest (attempt { s with
      bdb := { s.bdb with manifests := s.bdb.manifests.map (fun m =>
        if m.number = n then { m with label := .lost } else m) }
      prq := { s.prq with slots := tabMod s.prq.slots k slotFreed, drops := min (s.prq.drops + 1) 65535 } }) := by
  simp only [dropSlot, slotAt_eq hk, hn, labelState, modManifest_eq]
  rfl

/-- What an event that ends in the start test does (R163, R165). -/
theorem exec_startTest {c : Instr} {s u : State} (h : exec c s = .next (startTest u)) :
    ((u.prq.port ≠ .idle ∨ (∃ x ∈ u.prq.slots.toList, x.state = .fault) ∨ u.prq.order = []
        ∨ u.pins.printReady = false ∨ u.pins.printFault = true) → exec c s = .next u)
      ∧ (∀ k rest x, u.prq.port = .idle → (∀ x ∈ u.prq.slots.toList, x.state ≠ .fault) →
          u.prq.order = k :: rest → u.pins.printReady = true → u.pins.printFault = false →
          tabGet u.prq.slots k = some x →
        ∃ v, exec c s = .next { u with prq := { u.prq with
            slots := v, order := rest, port := .busy, sending := k, rowsSent := 0, transfer := none
            strobe := some u.prq.settings.strobe, timer := some (u.prq.settings.timer * 1000)
            inForce := u.prq.settings } }
          ∧ tabGet v k = some { x with state := .printing, attempts := min 255 (x.attempts + 1) }
          ∧ ∀ j, j ≠ k → tabGet v j = tabGet u.prq.slots j) := by
  obtain ⟨hidle, hstart⟩ := startsPrint_startTest u
  refine ⟨fun hno => h.trans (next_congr (hidle hno)), fun k rest x hp hf ho hr hi hk => ?_⟩
  obtain ⟨v, ht, hv, hj⟩ := hstart k rest x hp hf ho hr hi hk
  exact ⟨v, h.trans (next_congr ht), hv, hj⟩

/-- Settles O54: the requests on the slot in FAULT, and the three events that end in the start test. -/
theorem printRequestsAndStarts : Obligations.PrintRequestsAndStarts := by
  refine ⟨fun g s hr => ⟨fun p => ?_, fun h => ⟨?_, ?_⟩, fun k x hk hx honly => ⟨?_, fun n hn => ?_⟩⟩,
    fun s u c hc => exec_startTest ?_⟩
  · refine (request_answered hr 0x70#8 g (printSet p)).trans (next_congr ?_)
    simp only [printSet, answered_refuseIf, answered_taken, not_eq_true_iff (printOk_iff p), ite_not]
    rfl
  · refine (request_answered hr 0x71#8 g printRetry).trans (next_congr ?_)
    simp only [printRetry, (faultSlot_none s).mpr h, answered_error]
  · refine (request_answered hr 0x72#8 g printDrop).trans (next_congr ?_)
    simp only [printDrop, (faultSlot_none s).mpr h, answered_error]
  · refine ⟨retrySlot k s, _, tabMod s.prq.slots k (fun x => { x with state := .queued }),
      (request_answered hr 0x71#8 g printRetry).trans (next_congr ?_), rfl, tabGet_tabMod_some _ hk,
      fun j hj => tabGet_tabMod_other _ _ _ _ hj, startsPrint_startTest _⟩
    simp only [printRetry, faultSlot_eq hk hx honly, answered_taken]
  · refine ⟨dropSlot k s, _, _, tabMod s.prq.slots k slotFreed,
      (request_answered hr 0x72#8 g printDrop).trans (next_congr ?_), rfl, tabGet_tabMod_some _ hk,
      fun j hj => tabGet_tabMod_other _ _ _ _ hj, closesWaiting_attempt _, ?_⟩
    · simp only [printDrop, faultSlot_eq hk hx honly, answered_taken]
    · rw [dropSlot_eq hk hn]
      exact startsPrint_startTest _
  · obtain ⟨rfl, h, rfl⟩ | ⟨rfl, h, rfl⟩ | ⟨rfl, hp, ⟨ms, hd⟩, rfl⟩ := hc
    · exact next_congr (if_neg (by simp [h]))
    · exact next_congr (if_pos h)
    · exact next_congr (if_pos (by simp [hp, hd]))

end Sys2Proof.Machine
end

section
/-! PROOFS. The rows of a label, its end and the ends of a print in fault (O55). -/

namespace Sys2Proof.Machine

open Sys2Proof

/-! ## The bytes of a row (R145) -/

theorem byteOfPixels_append (ps : List Bool) (p : Bool) :
    byteOfPixels (ps ++ [p]) = (byteOfPixels ps <<< 1) ||| (if p then 1#8 else 0#8) := by
  simp [byteOfPixels]

/-- The bits of a byte of pixels from the least significant: the pixels from the last, as far as 8 reach. -/
theorem getLsbD_byteOfPixels (ps : List Bool) (k : Nat) :
    (byteOfPixels ps).getLsbD k = (decide (k < 8) && ps.reverse[k]?.getD false) := by
  induction ps using List.reverseRecOn generalizing k with
  | nil => simp [byteOfPixels]
  | append_singleton ps p ih =>
    rw [byteOfPixels_append, BitVec.getLsbD_or, BitVec.getLsbD_shiftLeft, ih, List.reverse_concat]
    cases k with
    | zero => cases p <;> simp
    | succ k =>
      have hp : (if p = true then 1#8 else 0#8).getLsbD (k + 1) = false := by cases p <;> simp
      simp only [hp, Nat.add_sub_cancel, List.getElem?_cons_succ, Bool.or_false]
      by_cases hk : k + 1 < 8
      · simp [hk, Nat.lt_of_succ_lt hk]
      · simp [hk]

/-- Eight pixels as a byte, the first in the most significant bit. -/
theorem getMsbD_byteOfPixels (f : Nat → Bool) {j : Nat} (hj : j < 8) :
    (byteOfPixels ((List.range 8).map f)).getMsbD j = f j := by
  have hrev : ((List.range 8).map f).reverse[7 - j]? = ((List.range 8).map f)[j]? := by
    rw [List.getElem?_reverse (by simp; omega)]
    congr 1
    simp; omega
  rw [BitVec.getMsbD_eq_getLsbD, Nat.add_sub_cancel 7 1, getLsbD_byteOfPixels, hrev]
  simp [hj, show 7 - j < 8 by omega]

/-- Each pixel of a row stands in its bit of the row's bytes. -/
theorem getMsbD_rowBytes {i : Image} {x y : Nat} {b : Byte} (h : (Image.rowBytes i y)[x / 8]? = some b) :
    b.getMsbD (x % 8) = Image.pixel i x y := by
  simp only [Image.rowBytes, List.getElem?_map, Option.map_eq_some_iff] at h
  obtain ⟨k, hk, rfl⟩ := h
  obtain ⟨hx, hkx⟩ := List.getElem?_eq_some_iff.mp hk
  rw [List.getElem_range] at hkx
  rw [getMsbD_byteOfPixels _ (Nat.mod_lt x (by decide)), ← hkx, Nat.div_add_mod]

/-! ## Requests for rows and the end of a label (R166, R167) -/

theorem rowRequest_begun {s : State} (h : s.pins.rowRequest = false) (hb : s.prq.port = .busy)
    (ht : s.prq.transfer = none) : rowRequest s = { s with
      pins := { s.pins with rowRequest := true }
      prq := { s.prq with transfer := some (Image.rowBytes (slotAt s s.prq.sending).image s.prq.rowsSent) } } := by
  simp [rowRequest, h, hb, ht, State.setPins, State.setPrq, slotAt]

theorem rowRequest_stray {s : State} (h : s.pins.rowRequest = false)
    (hs : s.prq.port ≠ .busy ∨ ∃ bytes, s.prq.transfer = some bytes) : rowRequest s = { s with
      pins := { s.pins with rowRequest := true }
      prq := { s.prq with strayRows := min (s.prq.strayRows + 1) 65535 } } := by
  have hno : (s.prq.port == .busy && s.prq.transfer.isNone) = false := by
    obtain hs | ⟨bytes, hs⟩ := hs <;> simp [hs]
  simp [rowRequest, h, hno, State.setPins, State.setPrq, bump]

theorem rowTransferEnd_counts {s : State} {bytes : List Byte} (h : s.prq.transfer = some bytes)
    (hr : s.prq.rowsSent ≠ 255) : rowTransferEnd s = { s with
      prq := { s.prq with transfer := none, rowsSent := s.prq.rowsSent + 1 } } := by
  simp [rowTransferEnd, h, hr, State.setPrq]

/-- The end of a label: told as PRINTED, its slot FREE and the done pulse on, before an attempt (R167). -/
theorem labelEnd_eq {s : State} {n : Nat} {x : Slot} (hx : tabGet s.prq.slots s.prq.sending = some x)
    (hn : x.bundle = some n) : labelEnd s = attempt { s with
      bdb := { s.bdb with manifests := s.bdb.manifests.map (fun m =>
        if m.number = n then { m with label := .printed } else m) }
      prq := { s.prq with
        slots := tabMod s.prq.slots s.prq.sending slotFreed, timer := none, strobe := none, port := .done
        donePulse := some s.prq.inForce.done, printed := min (s.prq.printed + 1) 65535 }
      lif := s.lif.raise (.labelPrinted n s.prq.sending x.attempts) } := by
  simp only [labelEnd, slotAt_eq hx, hn, labelState, modManifest_eq]
  rfl

/-- The end of row 255 is counted and ends the label. -/
theorem rowTransferEnd_last {s : State} {bytes : List Byte} (h : s.prq.transfer = some bytes)
    (hr : s.prq.rowsSent = 255) :
    rowTransferEnd s = labelEnd { s with prq := { s.prq with transfer := none, rowsSent := 256 } } := by
  simp [rowTransferEnd, h, hr, State.setPrq]

/-! ## Faults (R168) -/

/-- The end of a print in fault: its slot in FAULT with its image and bundle, the port IDLE, told and counted. -/
theorem printFail_eq {s : State} {n : Nat} {x : Slot} (c : PrintCause)
    (hx : tabGet s.prq.slots s.prq.sending = some x) (hn : x.bundle = some n) : printFail c s = { s with
      prq := countFault c { s.prq with
        slots := tabMod s.prq.slots s.prq.sending (fun x => { x with state := .fault })
        transfer := none, strobe := none, timer := none, port := .idle }
      lif := s.lif.raise (.printFault n s.prq.sending c s.prq.rowsSent x.attempts) } := by
  simp only [printFail, slotAt_eq hx, hn]
  rfl

theorem printFaultAssert_stray {s : State} (h : s.pins.printFault = false) (hp : s.prq.port ≠ .busy) :
    printFaultAssert s = { s with
      pins := { s.pins with printFault := true }
      prq := { s.prq with strayFaults := min (s.prq.strayFaults + 1) 65535 } } := by
  simp [printFaultAssert, h, hp, State.setPins, State.setPrq, bump]

theorem printFaultAssert_busy {s : State} (h : s.pins.printFault = false) (hp : s.prq.port = .busy) :
    printFaultAssert s = printFail .faultInput { s with pins := { s.pins with printFault := true } } := by
  simp [printFaultAssert, h, hp, State.setPins]

theorem printTimerExpiry_stopped {s : State} (h : s.prq.port ≠ .busy ∨ s.prq.timer = none) :
    printTimerExpiry s = s := by
  refine if_neg ?_
  obtain h | h := h <;> simp [h]

theorem printTimerExpiry_busy {s : State} {ms : Nat} (hp : s.prq.port = .busy) (ht : s.prq.timer = some ms) :
    printTimerExpiry s = printFail .timeout s := if_pos (by simp [hp, ht])

/-- Settles O55: the rows of a label, then the two causes of a fault. -/
theorem rowsAndPrintFaults : Obligations.RowsAndPrintFaults := by
  refine ⟨fun s => ⟨fun h => ?_, fun h hb ht => ?_, fun h hs => ?_, fun ht => ⟨?_, fun h => ?_⟩,
      fun bytes ht hr => ?_, fun bytes x n ht hr hx hn => ?_⟩,
    fun s => ⟨fun h => ?_, fun h hp => ?_, fun h => ?_, fun x n hp hx hn => ?_⟩⟩
  · exact next_congr (if_pos h)
  · exact ⟨_, next_congr (rowRequest_begun h hb ht), by simp [Image.rowBytes], fun i b hi => getMsbD_rowBytes hi⟩
  · exact next_congr (rowRequest_stray h hs)
  · exact next_congr (if_neg (by simp [ht]))
  · refine next_congr (if_neg ?_)
    obtain h | h := h <;> simp [h]
  · exact next_congr (rowTransferEnd_counts ht hr)
  · refine ⟨rowTransferEnd s, tabMod s.prq.slots s.prq.sending slotFreed, rfl, ?_, tabGet_tabMod_some _ hx,
      fun j hj => tabGet_tabMod_other _ _ _ _ hj⟩
    have hend := (rowTransferEnd_last ht hr).trans (labelEnd_eq hx hn)
    rw [hend]
    exact closesWaiting_attempt _
  · exact next_congr (if_pos h)
  · exact next_congr (printFaultAssert_stray h hp)
  · exact next_congr (printTimerExpiry_stopped h)
  · refine ⟨tabMod s.prq.slots s.prq.sending (fun x => { x with state := .fault }), tabGet_tabMod_some _ hx,
      fun j hj => tabGet_tabMod_other _ _ _ _ hj, fun h => next_congr ?_, fun ms ht => next_congr ?_⟩
    · exact (printFaultAssert_busy h hp).trans (printFail_eq .faultInput hx hn)
    · exact (printTimerExpiry_busy hp ht).trans (printFail_eq .timeout hx hn)

end Sys2Proof.Machine
end

section
/-! PROOFS. The requests that set and close bins (O44), and what they share with the close completions (O46). -/

namespace Sys2Proof.Machine

open Sys2Proof

/-! ## BIN_SET (R129) -/

/-- A class set within n classes (R121). -/
theorem topClass_le_iff (cs : BitVec 8) (n : Nat) : topClass cs ≤ n ↔ ∀ c, cs.getLsbD c = true → c < n := by
  rw [← Nat.not_lt, lt_topClass_iff]
  push Not
  rfl

theorem binSetOk_iff (s : State) (e : SortEntry) (b : BundleSettings) : binSetOk s e b = true ↔
    (e.grade = .any ∨ ∃ k, e.grade = .only k ∧ 1 ≤ k ∧ k ≤ s.ple.grades.length)
      ∧ e.colour ∈ [.any, .only 0, .only 1, .only 2, .only 3]
      ∧ (e.classSet ≠ 0#8 ∧ ∀ c, e.classSet.getLsbD c = true → c < s.ple.bounds.length)
      ∧ (50 ≤ e.offset ∧ e.offset ≤ 60000 ∧ e.lead ≤ 1000 ∧ e.lead < e.offset)
      ∧ (10 ≤ e.pulse ∧ e.pulse ≤ 1000) ∧ (500 ≤ b.length ∧ b.length ≤ 3000)
      ∧ (1 ≤ b.rows ∧ b.rows ≤ 40) ∧ b.gap ≤ 20 ∧ b.closeSlack ≤ b.length ∧ b.shortsThreshold ≤ 3000
      ∧ b.shortsShare ≤ 255 ∧ (100 ≤ b.dischargePulse ∧ b.dischargePulse ≤ 10000) := by
  unfold binSetOk
  simp only [Bool.and_eq_true, colourOk_iff, bne_iff_ne, within_iff, decide_eq_true_eq, topClass_le_iff, Nat.zero_le,
    true_and]
  cases e.grade with
  | any =>
    simp only [true_or, true_and]
    tauto
  | only k =>
    simp only [reduceCtorEq, false_or, Wanted.only.injEq, exists_eq_left', within_iff]
    tauto

/-- BIN_SET taken (R129): the sort entry and the bin replaced. -/
def State.binTaken (s : State) (n : Nat) (e : SortEntry) (b : BundleSettings) : State :=
  { s with srt := { s.srt with entries := tabMod s.srt.entries n (fun _ => e) }
           bdb := { s.bdb with bins := tabMod s.bdb.bins n (openBin b) } }

theorem answered_binSet (k g : Byte) (n : Nat) (e : SortEntry) (b : BundleSettings) (s : State) :
    s.answered k g (binSet n e b s) =
      if s.ltr.lineState = .halted then s.refusedWith k g .halted
      else if ¬ (1 ≤ n ∧ n ≤ 14) then s.refusedWith k g .badValue
      else if ¬ (tablesLoaded s = true) then s.refusedWith k g .notConfigured
      else if ¬ (binSetOk s e b = true) then s.refusedWith k g .badValue
      else if (binAt s n).state ≠ .disabled then s.refusedWith k g .wrongState
      else { s.binTaken n e b with lif := s.lif.answering k g .ok (be1 (min 100 b.shortsShare)) } := by
  simp only [binSet, answered_refuseHalted, answered_refuseIf, answered_taken, not_eq_true_iff (binOk_iff n),
    not_eq_true_iff (Iff.refl (tablesLoaded s = true)), not_eq_true_iff (Iff.refl (binSetOk s e b = true)), bne_iff_ne]
  rfl

theorem entryAt_binTaken {s : State} {n : Nat} (e : SortEntry) (b : BundleSettings) (hn : 1 ≤ n ∧ n ≤ 14) :
    entryAt (s.binTaken n e b) n = e ∧ ∀ j, j ≠ n → entryAt (s.binTaken n e b) j = entryAt s j := by
  obtain ⟨x, hx⟩ := Option.isSome_iff_exists.mp ((tabGet_range s.srt.entries n).mpr hn)
  have h : tabGet (s.binTaken n e b).srt.entries n = some e := tabGet_tabMod_some _ hx
  exact ⟨by rw [entryAt, h]; rfl, fun j hj => congrArg (·.getD clearedEntry) (tabGet_tabMod_other _ _ _ _ hj)⟩

/-! ## BIN_CLOSE and BIN_DISABLE (R132) -/

/-- A request's OK reply that tells the state of bin n (R132). -/
def State.tellsBin (s : State) (k g : Byte) (n : Nat) : State :=
  { s with lif := s.lif.answering k g .ok (be1 (binAt s n).state.code) }

theorem answered_binClose (k g : Byte) (n : Nat) (s : State) : s.answered k g (binClose n s) =
    if s.ltr.lineState = .halted then s.refusedWith k g .halted
    else if ¬ (1 ≤ n ∧ n ≤ 14) then s.refusedWith k g .badValue
    else if (binAt s n).state = .disabled then s.refusedWith k g .wrongState
    else if (binAt s n).state = .opened ∧ (binAt s n).bundle.rowFills = [] then s.refusedWith k g .empty
    else (closeRequest n .requested s).tellsBin k g n := by
  have hempty : ((binAt s n).state == .opened && !(binAt s n).bundle.allocated) = true
      ↔ (binAt s n).state = .opened ∧ (binAt s n).bundle.rowFills = [] := by
    rw [Bool.and_eq_true, beq_iff_eq, not_eq_true_iff (Bundle.allocated_iff _), ne_eq, not_not]
  simp only [binClose, answered_refuseHalted, answered_refuseIf, answered_taken, not_eq_true_iff (binOk_iff n),
    beq_iff_eq, hempty]
  rfl

theorem answered_binDisable (k g : Byte) (n : Nat) (s : State) : s.answered k g (binDisable n s) =
    if s.ltr.lineState = .halted then s.refusedWith k g .halted
    else if ¬ (1 ≤ n ∧ n ≤ 14) then s.refusedWith k g .badValue
    else (disableTaken n s).tellsBin k g n := by
  simp only [binDisable, answered_refuseHalted, answered_refuseIf, answered_taken, not_eq_true_iff (binOk_iff n)]
  rfl

/-- BIN_CLOSE or BIN_DISABLE with its request kind and the reason it closes an OPEN bundle for. -/
def Closing (g : Byte) (n : Nat) (i : Instr) (kind : Byte) (reason : CloseReason) : Prop :=
  i = .binClose g n ∧ kind = 0x59#8 ∧ reason = .requested
    ∨ i = .binDisable g n ∧ kind = 0x5A#8 ∧ reason = .disable

/-- Either of an OPEN bin with something allocated makes the close request, and its reply tells the bin's state after
it (R131, R132). -/
theorem exec_closing {g kind : Byte} {n : Nat} {s : State} {i : Instr} {reason : CloseReason}
    (hi : Closing g n i kind reason) (hr : s.lif.reply = none) (hl : s.ltr.lineState ≠ .halted)
    (ho : (binAt s n).state = .opened) (hf : (binAt s n).bundle.rowFills ≠ []) :
    exec i s = .next ((closeRequest n reason s).tellsBin kind g n) := by
  have hn := bin_exists s n (by rw [ho]; simp)
  obtain ⟨rfl, rfl, rfl⟩ | ⟨rfl, rfl, rfl⟩ := hi
  · refine (request_answered hr 0x59#8 g (binClose n)).trans (next_congr ?_)
    rw [answered_binClose, if_neg hl, if_neg (not_not.mpr hn), if_neg (by simp [ho]), if_neg fun h => hf h.2]
  · refine (request_answered hr 0x5A#8 g (binDisable n)).trans (next_congr ?_)
    have ht : disableTaken n s = closeRequest n .disable s := by
      simp [disableTaken, ho, (Bundle.allocated_iff _).mpr hf]
    rw [answered_binDisable, if_neg hl, if_neg (not_not.mpr hn), ht]

/-! ## Close requests without a completion (R131, R137) -/

/-- A bin with a close request (R131). -/
def Bin.asked (r : CloseReason) (x : Bin) : Bin :=
  { x with state := .closePending, reason := some r, toDisabled := x.toDisabled || decide (r = .disable) }

/-- A bin in CLOSING (R137). -/
def Bin.atClosing (x : Bin) : Bin := { x with state := .closing }

theorem binAt_asked {s : State} {n : Nat} (r : CloseReason) (hn : 1 ≤ n ∧ n ≤ 14) :
    binAt (s.modBin n (Bin.asked r)) n = (binAt s n).asked r :=
  (binAt_modBin s n n _).trans (if_pos ⟨rfl, hn⟩)

theorem closeRequest_opened {s : State} {n : Nat} (r : CloseReason) (ho : (binAt s n).state = .opened) :
    closeRequest n r s = settlePending n (s.modBin n (Bin.asked r)) := by
  have hd : (r == CloseReason.disable) = decide (r = .disable) := by cases r <;> rfl
  rw [closeRequest, if_pos (by simp [ho]), hd]
  rfl

theorem closeRequest_unopened {s : State} {n : Nat} (r : CloseReason) (ho : (binAt s n).state ≠ .opened) :
    closeRequest n r s = s := if_neg (by simpa using ho)

/-- With a piece incoming the request waits in CLOSE_PENDING (R130). -/
theorem closeRequest_waits {s : State} {n : Nat} (r : CloseReason) (ho : (binAt s n).state = .opened)
    (hi : 0 < (binAt s n).incoming) : closeRequest n r s = s.modBin n (Bin.asked r) := by
  have hx := binAt_asked (s := s) r (bin_exists s n (by rw [ho]; simp))
  rw [closeRequest_opened r ho, settlePending, if_neg]
  rw [hx, Bool.and_eq_true, beq_iff_eq, beq_iff_eq]
  exact fun h => absurd h.2 hi.ne'

/-- The state in which bin n, its close request made, joins the closing order (R137). -/
def State.joinsClosing (s : State) (n : Nat) (r : CloseReason) : State :=
  { s with bdb := { s.bdb with bins := tabMod (tabMod s.bdb.bins n (Bin.asked r)) n Bin.atClosing
                               closingOrder := s.bdb.closingOrder ++ [n] } }

/-- With none the bin joins the closing order, and an attempt is made (R137). -/
theorem closeRequest_joins {s : State} {n : Nat} (r : CloseReason) (ho : (binAt s n).state = .opened)
    (hi : (binAt s n).incoming = 0) : closeRequest n r s = attempt (s.joinsClosing n r) := by
  have hx := binAt_asked (s := s) r (bin_exists s n (by rw [ho]; simp))
  rw [closeRequest_opened r ho, settlePending, if_pos]
  · rfl
  · rw [hx, Bool.and_eq_true, beq_iff_eq, beq_iff_eq]
    exact ⟨rfl, hi⟩

/-! ## The two requests by bin state (R132) -/

theorem exec_binClose {g : Byte} {n : Nat} {s : State} (hr : s.lif.reply = none) (hl : s.ltr.lineState ≠ .halted)
    (hn : 1 ≤ n ∧ n ≤ 14) (hd : (binAt s n).state ≠ .disabled)
    (hf : ¬ ((binAt s n).state = .opened ∧ (binAt s n).bundle.rowFills = [])) :
    exec (.binClose g n) s = .next ((closeRequest n .requested s).tellsBin 0x59#8 g n) := by
  refine (request_answered hr 0x59#8 g (binClose n)).trans (next_congr ?_)
  rw [answered_binClose, if_neg hl, if_neg (not_not.mpr hn), if_neg hd, if_neg hf]

theorem exec_binDisable {g : Byte} {n : Nat} {s : State} (hr : s.lif.reply = none) (hl : s.ltr.lineState ≠ .halted)
    (hn : 1 ≤ n ∧ n ≤ 14) : exec (.binDisable g n) s = .next ((disableTaken n s).tellsBin 0x5A#8 g n) := by
  refine (request_answered hr 0x5A#8 g (binDisable n)).trans (next_congr ?_)
  rw [answered_binDisable, if_neg hl, if_neg (not_not.mpr hn)]

/-- The reply after a change of bins that leaves bin n as x. -/
theorem tellsBin_eq {s : State} {n : Nat} {x : Bin} (k g : Byte) (h : tabGet s.bdb.bins n = some x) :
    s.tellsBin k g n = { s with lif := s.lif.answering k g .ok (be1 x.state.code) } := by
  rw [State.tellsBin, binAt_eq h]

/-- Outside OPEN, BIN_CLOSE tells the bin's state, and BIN_DISABLE sets the destination too. -/
theorem exec_closing_unopened {g : Byte} {n : Nat} {s : State} {c : Nat} (hr : s.lif.reply = none)
    (hl : s.ltr.lineState ≠ .halted) (hn : 1 ≤ n ∧ n ≤ 14)
    (hc : (binAt s n).state = .closePending ∧ c = 2 ∨ (binAt s n).state = .closing ∧ c = 3
      ∨ (binAt s n).state = .waitCart ∧ c = 4) :
    exec (.binClose g n) s = .next { s with lif := s.lif.answering 0x59#8 g .ok (be1 c) }
    ∧ exec (.binDisable g n) s = .next { s with
        bdb := { s.bdb with bins := tabMod s.bdb.bins n (fun x => { x with toDisabled := true }) }
        lif := s.lif.answering 0x5A#8 g .ok (be1 c) } := by
  have hcode : (binAt s n).state.code = c := by
    obtain ⟨h, rfl⟩ | ⟨h, rfl⟩ | ⟨h, rfl⟩ := hc <;> rw [h] <;> rfl
  have hd : (binAt s n).state ≠ .disabled := by
    obtain ⟨h, -⟩ | ⟨h, -⟩ | ⟨h, -⟩ := hc <;> simp [h]
  have ho : (binAt s n).state ≠ .opened := by
    obtain ⟨h, -⟩ | ⟨h, -⟩ | ⟨h, -⟩ := hc <;> simp [h]
  have ht : disableTaken n s = s.modBin n (fun x => { x with toDisabled := true }) := by
    obtain ⟨h, -⟩ | ⟨h, -⟩ | ⟨h, -⟩ := hc <;> simp [disableTaken, h]
  refine ⟨?_, ?_⟩
  · rw [exec_binClose hr hl hn hd fun h => ho h.1, closeRequest_unopened _ ho, State.tellsBin, hcode]
  · rw [exec_binDisable hr hl hn, ht, tellsBin_eq _ _ (tabGet_tabMod_some _ (tabGet_bins hn))]
    simp only [hcode]
    rfl

/-- A close request of an OPEN bin with a piece incoming. -/
theorem exec_closing_waits {g kind : Byte} {n : Nat} {s : State} {i : Instr} {r : CloseReason}
    (hi : Closing g n i kind r) (hr : s.lif.reply = none) (hl : s.ltr.lineState ≠ .halted)
    (ho : (binAt s n).state = .opened) (hf : (binAt s n).bundle.rowFills ≠ []) (hin : 0 < (binAt s n).incoming) :
    exec i s = .next { s with bdb := { s.bdb with bins := tabMod s.bdb.bins n (Bin.asked r) }
                              lif := s.lif.answering kind g .ok (be1 2) } := by
  have hn := bin_exists s n (by rw [ho]; simp)
  rw [exec_closing hi hr hl ho hf, closeRequest_waits r ho hin,
    tellsBin_eq _ _ (tabGet_tabMod_some _ (tabGet_bins hn))]
  rfl

/-- A close request of an OPEN bin with none, while the hold is clear. -/
theorem exec_closing_joins {g kind : Byte} {n : Nat} {s : State} {i : Instr} {r : CloseReason}
    (hi : Closing g n i kind r) (hr : s.lif.reply = none) (hl : s.ltr.lineState ≠ .halted)
    (ho : (binAt s n).state = .opened) (hf : (binAt s n).bundle.rowFills ≠ []) (hin : (binAt s n).incoming = 0)
    (hh : s.lcp.hold = false) : exec i s = .next { s with
      bdb := { s.bdb with bins := tabMod (tabMod s.bdb.bins n (Bin.asked r)) n Bin.atClosing
                          closingOrder := s.bdb.closingOrder ++ [n] }
      lif := s.lif.answering kind g .ok (be1 3) } := by
  have hn := bin_exists s n (by rw [ho]; simp)
  rw [exec_closing hi hr hl ho hf, closeRequest_joins r ho hin, attempt_unheld (s.joinsClosing n r) hh,
    tellsBin_eq _ _ (tabGet_tabMod_some _ (tabGet_tabMod_some _ (tabGet_bins hn)))]
  rfl

/-- Settles O44: BIN_SET check by check, then the two closing requests by bin state. -/
theorem binRequests : Obligations.BinRequests := by
  refine ⟨fun g n e b s loaded ok hr hloaded hok => ?_, fun g n s hr => ⟨fun h => ?_, fun h hn => ?_,
    fun h h1 h14 x hx => ?_⟩⟩
  · rw [hloaded.trans (tablesLoaded_iff s).symm, hok.trans (binSetOk_iff s e b).symm]
    refine ⟨_, request_answered hr 0x58#8 g (binSet n e b), ?_⟩
    rw [answered_binSet]
    refine ⟨fun h => if_pos h, fun h hn => (if_neg h).trans (if_pos hn), fun h h1 h14 => ?_⟩
    have hn : ¬ ¬ (1 ≤ n ∧ n ≤ 14) := not_not.mpr ⟨h1, h14⟩
    rw [if_neg h, if_neg hn]
    refine ⟨fun hl => if_pos hl, fun hl ho => ?_, fun hl ho hd => ?_, fun hl ho hd => ?_⟩
    · rw [if_neg (not_not.mpr hl), if_pos ho]
    · rw [if_neg (not_not.mpr hl), if_neg (not_not.mpr ho), if_pos hd]
    · rw [if_neg (not_not.mpr hl), if_neg (not_not.mpr ho), if_neg (not_not.mpr hd)]
      obtain ⟨hsame, hother⟩ := entryAt_binTaken (s := s) e b ⟨h1, h14⟩
      have hbins := fun j => binAt_modBin s j n (openBin b)
      exact ⟨rfl, hsame, (hbins n).trans (if_pos ⟨rfl, h1, h14⟩),
        fun j hj => ⟨hother j hj, (hbins j).trans (if_neg fun e => hj e.1)⟩⟩
  · refine ⟨(request_answered hr 0x59#8 g (binClose n)).trans (next_congr ?_),
      (request_answered hr 0x5A#8 g (binDisable n)).trans (next_congr ?_)⟩
    · rw [answered_binClose, if_pos h]
    · rw [answered_binDisable, if_pos h]
  · refine ⟨(request_answered hr 0x59#8 g (binClose n)).trans (next_congr ?_),
      (request_answered hr 0x5A#8 g (binDisable n)).trans (next_congr ?_)⟩
    · rw [answered_binClose, if_neg h, if_pos hn]
    · rw [answered_binDisable, if_neg h, if_pos hn]
  · subst hx
    have hn : 1 ≤ n ∧ n ≤ 14 := ⟨h1, h14⟩
    have hget := tabGet_bins (s := s) hn
    have hclose : Closing g n (.binClose g n) 0x59#8 .requested := .inl ⟨rfl, rfl, rfl⟩
    have hdisable : Closing g n (.binDisable g n) 0x5A#8 .disable := .inr ⟨rfl, rfl, rfl⟩
    refine ⟨fun hs => ⟨?_, ?_⟩, fun hs hf => ⟨?_, _, (exec_binDisable hr h hn).trans (next_congr ?_),
        tabGet_tabMod_some (fun x => { x with state := .disabled }) hget, fun j hj => tabGet_tabMod_other _ _ _ _ hj⟩,
      fun hs hf hi => ⟨_, _, exec_closing_waits hclose hr h hs hf hi, exec_closing_waits hdisable hr h hs hf hi, ?_, ?_,
        fun j hj => ⟨tabGet_tabMod_other _ _ _ _ hj, tabGet_tabMod_other _ _ _ _ hj⟩⟩,
      fun hs hf hi hh => ⟨_, _, exec_closing_joins hclose hr h hs hf hi hh,
        exec_closing_joins hdisable hr h hs hf hi hh, ?_, ?_, fun j hj => ?_⟩,
      fun c hc => ⟨(exec_closing_unopened hr h hn hc).1, _, (exec_closing_unopened hr h hn hc).2,
        tabGet_tabMod_some _ hget, fun j hj => tabGet_tabMod_other _ _ _ _ hj⟩⟩
    · refine (request_answered hr 0x59#8 g (binClose n)).trans (next_congr ?_)
      rw [answered_binClose, if_neg h, if_neg (not_not.mpr hn), if_pos hs]
    · rw [exec_binDisable hr h hn, show disableTaken n s = s by simp [disableTaken, hs], State.tellsBin, hs]
      rfl
    · refine (request_answered hr 0x59#8 g (binClose n)).trans (next_congr ?_)
      rw [answered_binClose, if_neg h, if_neg (not_not.mpr hn), if_neg (by simp [hs]), if_pos ⟨hs, hf⟩]
    · have ht : disableTaken n s = s.modBin n (fun x => { x with state := .disabled }) := by
        simp [disableTaken, hs, Bundle.allocated, hf]
      rw [ht, tellsBin_eq _ _ (tabGet_tabMod_some _ hget)]
      rfl
    · rw [tabGet_tabMod_some _ hget]
      simp [Bin.asked]
    · rw [tabGet_tabMod_some _ hget]
      simp [Bin.asked]
    · rw [tabGet_tabMod_some _ (tabGet_tabMod_some _ hget)]
      simp [Bin.asked, Bin.atClosing]
    · rw [tabGet_tabMod_some _ (tabGet_tabMod_some _ hget)]
      simp [Bin.asked, Bin.atClosing]
    · simp only [tabGet_tabMod_other _ _ _ _ hj, and_self]

end Sys2Proof.Machine
end

section
/-! PROOFS. A close completion reached by BIN_CLOSE, and every close request of an OPEN bin (O46). -/

namespace Sys2Proof.Machine

open Sys2Proof

theorem tabGet_joinsClosing {s : State} {n : Nat} (r : CloseReason) (hn : 1 ≤ n ∧ n ≤ 14) :
    tabGet (s.joinsClosing n r).bdb.bins n = some ((binAt s n).asked r).atClosing :=
  tabGet_tabMod_some _ (tabGet_tabMod_some _ (tabGet_bins hn))

theorem binAt_joinsClosing_other (s : State) {n j : Nat} (r : CloseReason) (hj : j ≠ n) :
    binAt (s.joinsClosing n r) j = binAt s j :=
  congrArg (·.getD Bin.initial) ((tabGet_tabMod_other _ _ _ _ hj).trans (tabGet_tabMod_other _ _ _ _ hj))

/-- With one bin in the closing order and the three resources available an attempt is one completion (R138). -/
theorem attempt_single {s : State} {n k : Nat} (ho : s.bdb.closingOrder = [n]) (hm : s.bdb.manifests.length < 32)
    (hh : s.lcp.hold = true) (hk : freeSlot s = some k) : attempt s = closeComplete n k s := by
  have hr : closeResources s = true := by simp [closeResources, Config.manifestCapacity, hm, hh]
  simp [attempt, attempts, ho, hk, hr]

/-- The close completion that a BIN_CLOSE comes to: the bin joins the empty closing order and completes. -/
theorem closeRequest_completes {s : State} {n k : Nat} (ho : (binAt s n).state = .opened)
    (hi : (binAt s n).incoming = 0) (hc : s.bdb.closingOrder = []) (hm : s.bdb.manifests.length < 32)
    (hh : s.lcp.hold = true) (hk : freeSlot s = some k) :
    (s.joinsClosing n .requested).completesClose n k (closeRequest n .requested s) := by
  have horder : (s.joinsClosing n .requested).bdb.closingOrder = [n] :=
    (congrArg (· ++ [n]) hc).trans rfl
  obtain ⟨h1, h4, -⟩ := (freeSlot_some s k).mp hk
  rw [closeRequest_joins _ ho hi, attempt_single horder hm hh hk]
  exact completesClose_closeComplete _ n k [] horder ⟨h1, h4⟩

/-- Settles O46: the one completion field by field, then the close requests of every state. -/
theorem closeCompletionWritesTheManifest : Obligations.CloseCompletionWritesTheManifest := by
  refine ⟨Manifest.checkLaid_checkFields, fun g n k s x hr hl h1 h14 hx ho hf hi hd hc hm hh hk1 hk4 hfree hlow => ?_,
    fun g n s hr hl ho hf i kind reason hi => ?_⟩
  · subst hx
    have hn : 1 ≤ n ∧ n ≤ 14 := ⟨h1, h14⟩
    have hexec := exec_closing (.inl ⟨rfl, rfl, rfl⟩ : Closing g n _ _ _) hr hl ho hf
    have hjoined : binAt (s.joinsClosing n .requested) n = ((binAt s n).asked .requested).atClosing :=
      binAt_eq (tabGet_joinsClosing .requested hn)
    obtain ⟨m, r, hw, ht, hother, hbin, hslots, hslot, hrslot, hrbundle, hrcount, hrgrade, hrset, hrnoset, hebusy,
      heidle⟩ := closeRequest_completes ho hi hc hm hh ((freeSlot_some s k).mpr ⟨hk1, hk4, hfree, hlow⟩)
    obtain ⟨d, hbin, hdis⟩ := hbin h1 h14
    rw [hjoined] at hbin hdis
    rw [State.manifestWritten, hjoined] at hw
    obtain ⟨wnumber, wbin, wworst, wcolour, wclass, wpieces, wlineal, wshorts, wrows, wtallies, wprofile, wgauge, wdate,
      wreason, wlabel, wdischarged, wclipped, wcheck⟩ := hw
    have horder : (s.joinsClosing n .requested).bdb.closingOrder.tail = s.bdb.closingOrder := by
      rw [hc, show (s.joinsClosing n .requested).bdb.closingOrder = s.bdb.closingOrder ++ [n] from rfl, hc]
      rfl
    rw [horder] at ht
    generalize closeRequest n .requested s = v at *
    have hrender : v.lcp.renderOrder = s.lcp.renderOrder ++ [r] := by rw [ht]; rfl
    have hcode : (binAt v n).state.code = 4 := by rw [hbin]; rfl
    rw [State.tellsBin, hcode] at hexec
    refine ⟨_, m, hexec, ?_, fun j hj => (hother j hj).trans (binAt_joinsClosing_other s _ hj), ?_, wnumber, wbin, wworst,
      wcolour, wclass, wpieces, wlineal, wshorts, wrows, wtallies, wprofile, wgauge, wdate, wreason _ rfl, wlabel,
      wdischarged, wclipped, wcheck, hslots, hslot, r, hrender, hrslot, hrbundle, hrcount, hrgrade, hrset, hrnoset,
      hebusy, fun he hr => ?_⟩
    · rw [hrender]
      exact congrArg (fun w : State => { w with lif := w.lif.answering 0x59#8 g .ok (be1 4) }) ht
    · refine hbin.trans ?_
      rw [hdis hd]
      simp [Bin.asked, Bin.atClosing, State.joinsClosing, hl]
    · refine (heidle he).trans ?_
      rw [show (s.joinsClosing n .requested).lcp.renderOrder = [] from hr, List.nil_append, List.head?_cons,
        Option.map_some, hrslot]
  · exact ⟨closeRequest n reason s, _, exec_closing hi hr hl ho hf, requestsClose_closeRequest s n reason,
      fun h => by rw [h]; rfl, fun h => by rw [h]; rfl, fun h => by rw [h]; rfl⟩

end Sys2Proof.Machine
end

section
/-! PROOFS. The tables of the label composer and its hold (O51). -/

namespace Sys2Proof.Machine

open Sys2Proof

/-- With the hold clear nothing is refused for it (R146). -/
theorem answered_refuseHeld {s : State} (k g : Byte) (a : Answer) (h : s.lcp.hold = false) :
    s.answered k g (refuseHeld s a) = s.answered k g a := by
  rw [refuseHeld, answered_refuseIf, if_neg (by simp [h])]

theorem rasterOf_eq : ∀ n, rasterOf n = [RasterOp.replace, .or, .and, .xor, .condEq, .condNe][n]?
  | 0 | 1 | 2 | 3 | 4 | 5 | _ + 6 => rfl

theorem rectOk_iff (r : Rect) : rectOk r = true ↔ r.x0 ≤ r.x1 ∧ r.x1 ≤ 447 ∧ r.y0 ≤ r.y1 ∧ r.y1 ≤ 255 := by
  simp [rectOk, and_assoc]

theorem flagOf_ite (used : Bool) : flagOf (if used then 1#8 else 0#8) = used := by cases used <;> rfl

theorem fieldOk_iff (f : Field) : fieldOk f = true ↔
    f.kind ≤ 12 ∧ f.x ≤ 447 ∧ f.y ≤ 255 ∧ f.align ≤ 1 ∧ f.ink ≤ 1
      ∧ (f.kind ≠ 12 → f.glyphSet ≤ 1 ∧ 1 ≤ f.scale ∧ f.scale ≤ 2 ∧ 1 ≤ f.maxChars ∧ f.maxChars ≤ 32)
      ∧ (f.kind = 12 → 1 ≤ f.moduleWidth ∧ f.moduleWidth ≤ 3 ∧ 8 ≤ f.height ∧ f.height ≤ 128) := by
  by_cases h : f.kind = 12 <;> simp [fieldOk, codeStripKind, within, h, and_assoc]

/-- A numbered entry checked when it is used (R155, R156). -/
theorem entryRefused_iff {lo hi n : Nat} {used ok : Bool} {p : Prop} (h : ok = true ↔ p) :
    (!within lo hi n || (used && !ok)) = true ↔ ¬ (lo ≤ n ∧ n ≤ hi ∧ (used = true → p)) := by
  rw [Bool.or_eq_true, Bool.and_eq_true, not_eq_true_iff (within_iff lo hi n), not_eq_true_iff h]
  tauto

theorem anyRendering_iff (s : State) : anyRendering s = true ↔ ∃ x ∈ s.prq.slots.toList, x.state = .rendering := by
  rw [← exists_entry_iff s.prq.slots Slot.initial (P := fun x => x.state = .rendering) (by simp [Slot.initial])]
  simp only [anyRendering, List.any_eq_true, beq_iff_eq]
  refine ⟨fun ⟨k, _, hk⟩ => ⟨k, hk⟩, fun ⟨k, hk⟩ => ⟨k, ?_, hk⟩⟩
  have hr : (tabGet s.prq.slots k).isSome = true := by
    rw [← Option.ne_none_iff_isSome]
    intro h
    simp [h, Slot.initial] at hk
  have := (tabGet_range _ _).mp hr
  simp only [slotNumbers, List.mem_cons, List.not_mem_nil, or_false]
  omega

/-! ## The bits of the numbers that bytes spell -/

theorem numberOf_append (bs : List Byte) (b : Byte) : numberOf (bs ++ [b]) = 2 ^ 8 * numberOf bs + b.toNat := by
  simp [numberOf, Nat.mul_comm]

/-- The bits of a number from the least significant: those of its bytes from the last. -/
theorem testBit_numberOf (bs : List Byte) (q : Nat) {r : Nat} (hr : r < 8) :
    (numberOf bs).testBit (8 * q + r) = (bs.reverse[q]?.getD 0#8).getLsbD r := by
  induction bs using List.reverseRecOn generalizing q with
  | nil => simp [numberOf]
  | append_singleton bs b ih =>
    rw [numberOf_append, Nat.testBit_two_pow_mul_add _ b.isLt, List.reverse_concat]
    cases q with
    | zero => simp [hr, BitVec.getLsbD]
    | succ q =>
      rw [if_neg (by omega), show 8 * (q + 1) + r - 8 = 8 * q + r by omega, ih]
      simp

/-- The bits of a number from the most significant, in a word of as many bits as its bytes have: those of its bytes
from the first. -/
theorem getMsbD_numberOf {bs : List Byte} {k c w : Nat} {b : Byte} (hw : w = 8 * bs.length) (hb : bs[k]? = some b)
    (hc : c < 8) : (BitVec.ofNat w (numberOf bs)).getMsbD (8 * k + c) = b.getMsbD c := by
  have hk : k < bs.length := (List.getElem?_eq_some_iff.mp hb).1
  have hplace : w - 1 - (8 * k + c) = 8 * (bs.length - 1 - k) + (7 - c) := by omega
  have hrev : bs.reverse[bs.length - 1 - k]? = some b := by
    rw [List.getElem?_reverse (by omega), ← hb]
    congr 1
    omega
  rw [BitVec.getMsbD_eq_getLsbD, BitVec.getMsbD_eq_getLsbD, hplace, BitVec.getLsbD_ofNat,
    testBit_numberOf _ _ (by omega), hrev]
  simp [hc, show 8 * k + c < w by omega, show 8 * (bs.length - 1 - k) + (7 - c) < w by omega]

/-! ## Glyphs (R153, R154) -/

/-- A table of glyphs of `size` bytes with `count` of them replaced from number `start` on (R154). -/
def glyphsWritten {w : Nat} (v : Vector (BitVec w) 96) (size start count : Nat) (data : List Byte) :
    Vector (BitVec w) 96 :=
  v.mapFinIdx fun j g _ => if decide (start ≤ j) && decide (j < start + count)
    then BitVec.ofNat w (glyphBits size data (j - start)) else g

theorem writeGlyphs_small (first count : Nat) (data : List Byte) (l : Lcp) : writeGlyphs 0 first count data l =
    { l with small := glyphsWritten l.small 12 (first - 0x20) count data } := rfl

theorem writeGlyphs_large (first count : Nat) (data : List Byte) (l : Lcp) : writeGlyphs 1 first count data l =
    { l with large := glyphsWritten l.large 48 (first - 0x20) count data } := rfl

theorem glyphsWritten_other {w size start count j : Nat} (v : Vector (BitVec w) 96) (data : List Byte)
    (h : j < start ∨ start + count ≤ j) : (glyphsWritten v size start count data)[j]? = v[j]? := by
  have hno : ¬ (start ≤ j ∧ j < start + count) := by omega
  by_cases hj : j < 96 <;> simp [glyphsWritten, hj, hno]

/-- Each byte of the data stands in its glyph (R154). -/
theorem glyphsWritten_bits {size start count i k c : Nat} {b : Byte} {data : List Byte} (v : Vector (BitVec (8 * size)) 96)
    (hlen : data.length = size * count) (hfit : start + count ≤ 96) (hi : i < count) (hk : k < size) (hc : c < 8)
    (hb : data[size * i + k]? = some b) :
    ∃ x, (glyphsWritten v size start count data)[start + i]? = some x ∧ x.getMsbD (8 * k + c) = b.getMsbD c := by
  refine ⟨BitVec.ofNat (8 * size) (glyphBits size data i), ?_, ?_⟩
  · simp [glyphsWritten, hi, show start + i < 96 by omega]
  · have hroom : size * i + size ≤ data.length := by
      rw [hlen, ← Nat.mul_succ]
      exact Nat.mul_le_mul_left _ hi
    refine getMsbD_numberOf ?_ ?_ hc
    · rw [List.length_take, List.length_drop]
      omega
    · rw [List.getElem?_take_of_lt hk, List.getElem?_drop, hb]

theorem glyphRangeOk_iff {set first count most : Nat} (hm : (if set = 0 then 80 else 20) = most) :
    glyphRangeOk set first count = true ↔ 1 ≤ count ∧ count ≤ most ∧ 0x20 ≤ first ∧ first + count - 1 ≤ 0x7F := by
  simp only [glyphRangeOk, hm, Bool.and_eq_true, within_iff]
  omega

theorem answered_glyphWrite {s : State} {set first count size most : Nat} {data : List Byte} (k g : Byte)
    (hh : s.lcp.hold = false) (hs : glyphSize set = some size) (hm : (if set = 0 then 80 else 20) = most) :
    s.answered k g (glyphWrite set first count data s) =
      if data.length ≠ size * count then s.refusedWith k g .badLength
      else if ¬ (1 ≤ count ∧ count ≤ most ∧ 0x20 ≤ first ∧ first + count - 1 ≤ 0x7F) then s.refusedWith k g .badValue
      else { s with lcp := writeGlyphs set first count data s.lcp, lif := s.lif.answering k g .ok [] } := by
  have hlen : glyphLengthOk set count data = true ↔ data.length = size * count := by simp [glyphLengthOk, hs]
  simp only [glyphWrite, answered_refuseIf, answered_refuseHeld k g _ hh, answered_taken, not_eq_true_iff hlen,
    not_eq_true_iff (glyphRangeOk_iff hm)]
  rfl

/-- What GLYPH_WRITE does to a glyph set, by the size of its glyphs and the most it takes at once (R154). -/
def State.writesGlyphs (s : State) (g : Byte) (set size most first count : Nat) (data : List Byte) : Prop :=
  (data.length ≠ size * count →
    exec (.glyphWrite g set first count data) s = .next (s.refusedWith 0x69#8 g .badLength))
  ∧ (data.length = size * count → ¬ (1 ≤ count ∧ count ≤ most ∧ 0x20 ≤ first ∧ first + count - 1 ≤ 0x7F) →
    exec (.glyphWrite g set first count data) s = .next (s.refusedWith 0x69#8 g .badValue))
  ∧ (data.length = size * count → 1 ≤ count ∧ count ≤ most ∧ 0x20 ≤ first ∧ first + count - 1 ≤ 0x7F →
    exec (.glyphWrite g set first count data) s = .next { s with
      lcp := writeGlyphs set first count data s.lcp, lif := s.lif.answering 0x69#8 g .ok [] })

theorem writesGlyphs_glyphWrite {s : State} {g : Byte} {set size most : Nat} (first count : Nat) (data : List Byte)
    (hr : s.lif.reply = none) (hh : s.lcp.hold = false) (hs : glyphSize set = some size)
    (hm : (if set = 0 then 80 else 20) = most) : s.writesGlyphs g set size most first count data := by
  have hexec := request_answered hr 0x69#8 g (glyphWrite set first count data)
  rw [answered_glyphWrite 0x69#8 g hh hs hm] at hexec
  refine ⟨fun h => ?_, fun h h' => ?_, fun h h' => ?_⟩
  · exact hexec.trans (next_congr (if_pos h))
  · exact hexec.trans (next_congr ((if_neg (not_not.mpr h)).trans (if_pos h')))
  · exact hexec.trans (next_congr ((if_neg (not_not.mpr h)).trans (if_neg (not_not.mpr h'))))

/-! ## Protect areas, fields and the hold -/

theorem answered_protectSet {s : State} (k g : Byte) (a : Nat) (used : Bool) (r : Rect) (hh : s.lcp.hold = false) :
    s.answered k g (protectSet a (if used then 1#8 else 0#8) r s) =
      if 1 ≤ a ∧ a ≤ 4 ∧ (used = true → r.x0 ≤ r.x1 ∧ r.x1 ≤ 447 ∧ r.y0 ≤ r.y1 ∧ r.y1 ≤ 255) then { s with
        lcp := { s.lcp with protect := tabMod s.lcp.protect a (fun _ => if used then some r else none) }
        lif := s.lif.answering k g .ok [] }
      else s.refusedWith k g .badValue := by
  simp only [protectSet, answered_refuseHeld k g _ hh, answered_refuseIf, answered_taken, flagOf_ite,
    entryRefused_iff (rectOk_iff r), ite_not]
  rfl

theorem answered_fieldSet {s : State} (k g : Byte) (n : Nat) (used : Bool) (f : Field) (hh : s.lcp.hold = false) :
    s.answered k g (fieldSet n (if used then 1#8 else 0#8) f s) =
      if 1 ≤ n ∧ n ≤ 16 ∧ (used = true → f.kind ≤ 12 ∧ f.x ≤ 447 ∧ f.y ≤ 255 ∧ f.align ≤ 1 ∧ f.ink ≤ 1
          ∧ (f.kind ≠ 12 → f.glyphSet ≤ 1 ∧ 1 ≤ f.scale ∧ f.scale ≤ 2 ∧ 1 ≤ f.maxChars ∧ f.maxChars ≤ 32)
          ∧ (f.kind = 12 → 1 ≤ f.moduleWidth ∧ f.moduleWidth ≤ 3 ∧ 8 ≤ f.height ∧ f.height ≤ 128)) then { s with
        lcp := { s.lcp with fields := tabMod s.lcp.fields n (fun _ => if used then some f else none) }
        lif := s.lif.answering k g .ok [] }
      else s.refusedWith k g .badValue := by
  simp only [fieldSet, answered_refuseHeld k g _ hh, answered_refuseIf, answered_taken, flagOf_ite,
    entryRefused_iff (fieldOk_iff f), ite_not]
  rfl

/-- An entry of a table replaced. -/
theorem tabGet_replaced {α : Type} {m n : Nat} (v : Vector α m) (x : α) (h : 1 ≤ n ∧ n ≤ m) :
    tabGet (tabMod v n fun _ => x) n = some x := by
  obtain ⟨y, hy⟩ := Option.isSome_iff_exists.mp ((tabGet_range v n).mpr h)
  exact tabGet_tabMod_some _ hy

/-- Settles O51: the tables with the hold clear, then the hold. -/
theorem composerTablesAndHold : Obligations.ComposerTablesAndHold := by
  refine ⟨fun g s hr hh => ⟨fun op mask pattern => ?_, fun set first count data size most hset => ?_, fun a r used => ?_,
    fun n f used => ?_⟩, fun g s hr => ⟨fun hh => ?_, fun hh => ?_, fun h => ?_, fun h => ?_⟩⟩
  · refine (request_answered hr 0x62#8 g (tplOp op mask pattern)).trans (next_congr ?_)
    rw [tplOp, answered_refuseHeld _ _ _ hh, rasterOf_eq]
    cases [RasterOp.replace, .or, .and, .xor, .condEq, .condNe][op]? <;> rfl
  · have hsize : glyphSize set = some size := by
      obtain ⟨rfl, rfl, -⟩ | ⟨rfl, rfl, -⟩ := hset <;> rfl
    have hmost : (if set = 0 then 80 else 20) = most := by
      obtain ⟨rfl, -, rfl⟩ | ⟨rfl, -, rfl⟩ := hset <;> rfl
    obtain ⟨hlength, hrange, htaken⟩ := writesGlyphs_glyphWrite (g := g) first count data hr hh hsize hmost
    refine ⟨hlength, hrange, fun hl h1 hc h20 h7f => ⟨_, htaken hl ⟨h1, hc, h20, h7f⟩, ?_⟩⟩
    have hfit : first - 0x20 + count ≤ 96 := by omega
    have hout : ∀ j, j + 0x20 < first ∨ first + count ≤ j + 0x20 → j < first - 0x20 ∨ first - 0x20 + count ≤ j :=
      fun j hj => by omega
    obtain ⟨rfl, rfl, -⟩ | ⟨rfl, rfl, -⟩ := hset
    · rw [writeGlyphs_small]
      exact ⟨rfl, fun h => absurd h (by decide), fun _ => rfl, fun j _ hj => ⟨glyphsWritten_other _ _ (hout j hj), rfl⟩,
        fun i k c b hi hk hc8 hb => ⟨fun _ => glyphsWritten_bits _ hl hfit hi hk hc8 hb, fun h => absurd h (by decide)⟩⟩
    · rw [writeGlyphs_large]
      exact ⟨rfl, fun _ => rfl, fun h => absurd h (by decide), fun j _ hj => ⟨rfl, glyphsWritten_other _ _ (hout j hj)⟩,
        fun i k c b hi hk hc8 hb => ⟨fun h => absurd h (by decide), fun _ => glyphsWritten_bits _ hl hfit hi hk hc8 hb⟩⟩
  · refine ⟨_, request_answered hr 0x6A#8 g (protectSet a (if used then 1#8 else 0#8) r), ?_⟩
    rw [answered_protectSet _ _ _ _ _ hh]
    split
    · next h => exact ⟨rfl, tabGet_replaced _ _ ⟨h.1, h.2.1⟩, fun j hj => tabGet_tabMod_other _ _ _ _ hj⟩
    · rfl
  · refine ⟨_, request_answered hr 0x6B#8 g (fieldSet n (if used then 1#8 else 0#8) f), ?_⟩
    rw [answered_fieldSet _ _ _ _ _ hh]
    split
    · next h => exact ⟨rfl, tabGet_replaced _ _ ⟨h.1, h.2.1⟩, fun j hj => tabGet_tabMod_other _ _ _ _ hj⟩
    · rfl
  · refine (request_answered hr 0x67#8 g tplHold).trans (next_congr ?_)
    rw [tplHold, if_pos hh, answered_taken]
  · refine ⟨attempt (s.setLcp { s.lcp with hold := true }),
      (request_answered hr 0x67#8 g tplHold).trans (next_congr ?_), closesWaiting_attempt _⟩
    rw [tplHold, if_neg (by simp [hh]), answered_taken]
  · refine (request_answered hr 0x68#8 g tplRelease).trans (next_congr ?_)
    rw [tplRelease, answered_refuseIf, if_pos ((anyRendering_iff s).mpr h)]
  · have hno : ¬ anyRendering s = true := by
      rw [anyRendering_iff]
      push Not
      exact h
    refine (request_answered hr 0x68#8 g tplRelease).trans (next_congr ?_)
    rw [tplRelease, answered_refuseIf, if_neg hno, answered_taken]
    rfl

end Sys2Proof.Machine
end

section
/-! PROOFS. The walk of the address counter through its window (O48), and the pixels it visits. -/

namespace Sys2Proof.Machine

open Sys2Proof

/-! ## Places in a window (R147) -/

/-- A place of the counter lies in a window. -/
def InWindow (w : Rect) (p : Nat × Nat) : Prop := w.x0 ≤ p.1 ∧ p.1 ≤ w.x1 ∧ w.y0 ≤ p.2 ∧ p.2 ≤ w.y1

theorem inRect_iff (w : Rect) (x y : Nat) :
    inRect w x y = true ↔ w.x0 ≤ x ∧ x ≤ w.x1 ∧ w.y0 ≤ y ∧ y ≤ w.y1 := by
  simp [inRect, within, and_assoc]

/-- The number of pixels of a window. -/
def pixelCount (w : Rect) : Nat := (w.x1 - w.x0 + 1) * (w.y1 - w.y0 + 1)

/-- The number of a place among those of its window, row after row. -/
def placeIn (w : Rect) (p : Nat × Nat) : Nat := (w.x1 - w.x0 + 1) * (p.2 - w.y0) + (p.1 - w.x0)

theorem placeIn_lt {w : Rect} {p : Nat × Nat} (h : InWindow w p) : placeIn w p < pixelCount w := by
  obtain ⟨-, hx, -, hy⟩ := h
  calc placeIn w p < (w.x1 - w.x0 + 1) * (p.2 - w.y0) + (w.x1 - w.x0 + 1) := by unfold placeIn; omega
    _ = (w.x1 - w.x0 + 1) * (p.2 - w.y0 + 1) := (Nat.mul_succ _ _).symm
    _ ≤ pixelCount w := Nat.mul_le_mul_left _ (by omega)

/-- A place's row and column are the quotient and the remainder of its number. -/
theorem placeIn_inj {w : Rect} {p q : Nat × Nat} (hp : InWindow w p) (hq : InWindow w q)
    (h : placeIn w p = placeIn w q) : p = q := by
  have hdivmod (r : Nat × Nat) (hr : InWindow w r) : placeIn w r / (w.x1 - w.x0 + 1) = r.2 - w.y0
      ∧ placeIn w r % (w.x1 - w.x0 + 1) = r.1 - w.x0 := by
    obtain ⟨-, hx, -, -⟩ := hr
    have hlt : r.1 - w.x0 < w.x1 - w.x0 + 1 := by omega
    exact ⟨by rw [placeIn, Nat.mul_add_div (Nat.succ_pos _), Nat.div_eq_of_lt hlt, Nat.add_zero],
      by rw [placeIn, Nat.mul_add_mod, Nat.mod_eq_of_lt hlt]⟩
  obtain ⟨hpr, hpc⟩ := hdivmod p hp
  obtain ⟨hqr, hqc⟩ := hdivmod q hq
  obtain ⟨hpx, -, hpy, -⟩ := hp
  obtain ⟨hqx, -, hqy, -⟩ := hq
  rw [h] at hpr hpc
  exact Prod.ext (by omega) (by omega)

/-! ## Advances (R147) -/

theorem advance_in_row {w : Rect} {x : Nat} (y : Nat) (h : x < w.x1) : advance w x y = (x + 1, y) := if_pos h

theorem advance_row_end {w : Rect} {x y : Nat} (hx : x = w.x1) (hy : y < w.y1) : advance w x y = (w.x0, y + 1) := by
  rw [advance, if_neg (by omega), if_pos hy]

theorem advance_window_end {w : Rect} {x y : Nat} (hx : x = w.x1) (hy : y = w.y1) :
    advance w x y = (w.x0, w.y0) := by
  rw [advance, if_neg (by omega), if_neg (by omega)]

theorem inWindow_advance {w : Rect} {x y : Nat} (h : InWindow w (x, y)) : InWindow w (advance w x y) := by
  obtain ⟨hx0, hx1, hy0, hy1⟩ := h
  obtain ⟨⟨h1, h2⟩, h3, h4⟩ := advance_inside w x y ⟨hx0, hx1⟩ ⟨hy0, hy1⟩
  exact ⟨h1, h2, h3, h4⟩

theorem inWindow_advances {w : Rect} {x y : Nat} (n : Nat) (h : InWindow w (x, y)) :
    InWindow w (advances w n x y) := by
  induction n generalizing x y with
  | zero => exact h
  | succ n ih => exact ih (inWindow_advance h)

theorem advances_add (w : Rect) (m n x y : Nat) :
    advances w (m + n) x y = advances w n (advances w m x y).1 (advances w m x y).2 := by
  induction m generalizing x y with
  | zero => rw [Nat.zero_add]; rfl
  | succ m ih => rw [Nat.succ_add]; exact ih _ _

/-- One advance goes to the next number, and from the last to the first. -/
theorem placeIn_advance {w : Rect} {x y : Nat} (h : InWindow w (x, y)) :
    placeIn w (advance w x y) = (placeIn w (x, y) + 1) % pixelCount w := by
  have hin := inWindow_advance h
  obtain ⟨hx0, hx1, hy0, hy1⟩ := h
  dsimp only at hx0 hx1 hy0 hy1
  rcases Nat.lt_or_eq_of_le hx1 with hx | hx
  · have hnext : placeIn w (advance w x y) = placeIn w (x, y) + 1 := by
      rw [advance_in_row y hx]; simp only [placeIn]; omega
    rw [← hnext, Nat.mod_eq_of_lt (placeIn_lt hin)]
  · rcases Nat.lt_or_eq_of_le hy1 with hy | hy
    · have hnext : placeIn w (advance w x y) = placeIn w (x, y) + 1 := by
        rw [advance_row_end hx hy]
        simp only [placeIn, hx, Nat.sub_self, Nat.succ_sub hy0, Nat.mul_succ]
        omega
      rw [← hnext, Nat.mod_eq_of_lt (placeIn_lt hin)]
    · have hlast : placeIn w (x, y) + 1 = pixelCount w := by
        simp only [placeIn, pixelCount, hx, hy, Nat.mul_succ]
        omega
      rw [hlast, Nat.mod_self, advance_window_end hx hy]
      simp [placeIn]

theorem placeIn_advances {w : Rect} {x y : Nat} (n : Nat) (h : InWindow w (x, y)) :
    placeIn w (advances w n x y) = (placeIn w (x, y) + n) % pixelCount w := by
  induction n generalizing x y with
  | zero => exact (Nat.mod_eq_of_lt (placeIn_lt h)).symm
  | succ n ih =>
    calc placeIn w (advances w (n + 1) x y)
      _ = (placeIn w (advance w x y) + n) % pixelCount w := ih (inWindow_advance h)
      _ = (placeIn w (x, y) + 1 + n) % pixelCount w := by rw [placeIn_advance h, Nat.mod_add_mod]
      _ = (placeIn w (x, y) + (n + 1)) % pixelCount w := by rw [Nat.add_right_comm, Nat.add_assoc]

/-- After as many advances as the window has pixels the counter is back. -/
theorem advances_pixelCount {w : Rect} {x y : Nat} (h : InWindow w (x, y)) :
    advances w (pixelCount w) x y = (x, y) :=
  placeIn_inj (inWindow_advances _ h) h (by
    rw [placeIn_advances _ h, Nat.add_mod_right, Nat.mod_eq_of_lt (placeIn_lt h)])

/-! ## The pixels visited -/

/-- The pixel visited k-th, counted from 0, is the one after k advances. -/
theorem visited_eq_map (w : Rect) (n x y : Nat) :
    visited w n x y = (List.range n).map fun k => advances w k x y := by
  induction n generalizing x y with
  | zero => rfl
  | succ n ih => rw [List.range_succ_eq_map, List.map_cons, List.map_map, visited, ih]; rfl

@[simp] theorem visited_length (w : Rect) (n x y : Nat) : (visited w n x y).length = n := by simp [visited_eq_map]

theorem visited_getElem? {w : Rect} {n i : Nat} {p : Nat × Nat} {x y : Nat} (h : (visited w n x y)[i]? = some p) :
    i < n ∧ p = advances w i x y := by
  obtain ⟨hi, rfl⟩ := List.getElem?_eq_some_iff.mp h
  rw [visited_length] at hi
  exact ⟨hi, by simp [visited_eq_map]⟩

theorem inWindow_visited {w : Rect} {n x y : Nat} {p : Nat × Nat} (h : InWindow w (x, y))
    (hp : p ∈ visited w n x y) : InWindow w p := by
  rw [visited_eq_map, List.mem_map] at hp
  obtain ⟨k, -, rfl⟩ := hp
  exact inWindow_advances k h

/-! ## TPL_WINDOW and TPL_ADDR -/

/-- Settles O48: the walk, by the numbers of the places of the window, and the two requests that set it. -/
theorem counterWalksTheWindow : Obligations.CounterWalksTheWindow := by
  refine ⟨fun w x y => ⟨advance_in_row y, advance_row_end, advance_window_end, fun hx0 hx1 hy0 hy1 => ?_⟩,
    fun g s hr hh => ⟨fun w => ?_, fun x y => ?_⟩⟩
  · have hin : InWindow w (x, y) := ⟨hx0, hx1, hy0, hy1⟩
    exact ⟨fun n p hp => hp ▸ inWindow_advances n hin, advances_pixelCount hin⟩
  · refine (request_answered hr 0x60#8 g (tplWindow w)).trans (next_congr ?_)
    rw [tplWindow, answered_refuseHeld _ _ _ hh, answered_refuseIf, answered_taken]
    simp only [not_eq_true_iff (rectOk_iff w), ite_not]
    rfl
  · refine (request_answered hr 0x61#8 g (tplAddr x y)).trans (next_congr ?_)
    rw [tplAddr, answered_refuseHeld _ _ _ hh, answered_refuseIf, answered_taken]
    simp only [not_eq_true_iff (inRect_iff s.lcp.window x y), ite_not]
    rfl

end Sys2Proof.Machine
end

section
/-! PROOFS. Bytes drawn through the window (O49). -/

namespace Sys2Proof.Machine

open Sys2Proof

/-! ## One pixel (R148) -/

/-- The image with the pixel at one position of a byte changed by it, unless masked (R148). -/
def plotPosition (op : RasterOp) (mask data : Byte) (k : Nat) (p : Nat × Nat) (i : Image) : Image :=
  if bitAt mask k then Image.plot i p.1 p.2 (rasterBit op (Image.pixel i p.1 p.2) (bitAt data k)) else i

theorem plotByte_cons (op : RasterOp) (mask data : Byte) (k : Nat) (p : Nat × Nat) (ps : List (Nat × Nat))
    (i : Image) : plotByte op mask data k (p :: ps) i
      = plotByte op mask data (k + 1) ps (plotPosition op mask data k p i) := rfl

theorem pixel_plotPosition_same {x y : Nat} (op : RasterOp) (mask data : Byte) (k : Nat) (i : Image) (hx : x ≤ 447)
    (hy : y ≤ 255) : Image.pixel (plotPosition op mask data k (x, y) i) x y
      = if mask.getMsbD k then rasterBit op (Image.pixel i x y) (data.getMsbD k) else Image.pixel i x y := by
  unfold plotPosition bitAt
  split
  · exact pixel_plot_same i x y _ hx hy
  · rfl

theorem pixel_plotPosition_other {p : Nat × Nat} {x y : Nat} (op : RasterOp) (mask data : Byte) (k : Nat) (i : Image)
    (hp : p.1 ≤ 447) (hx : x ≤ 447) (h : p ≠ (x, y)) :
    Image.pixel (plotPosition op mask data k p i) x y = Image.pixel i x y := by
  unfold plotPosition
  split
  · exact pixel_plot_other i p.1 p.2 x y _ hp hx h
  · rfl

/-! ## The pixels of one byte (R148) -/

theorem pixel_plotByte_other {px : List (Nat × Nat)} {x y : Nat} (op : RasterOp) (mask data : Byte) (k : Nat)
    (i : Image) (hpx : ∀ p ∈ px, p.1 ≤ 447) (hx : x ≤ 447) (h : (x, y) ∉ px) :
    Image.pixel (plotByte op mask data k px i) x y = Image.pixel i x y := by
  induction px generalizing k i with
  | nil => rfl
  | cons p ps ih =>
    obtain ⟨hp, hps⟩ := List.forall_mem_cons.mp hpx
    obtain ⟨hne, hnot⟩ := not_or.mp (mt List.mem_cons.mpr h)
    rw [plotByte_cons, ih _ _ hps hnot, pixel_plotPosition_other op mask data k i hp hx (Ne.symm hne)]

/-- A pixel at one position alone is changed by that position's bits, from its value before the byte. -/
theorem pixel_plotByte {px : List (Nat × Nat)} {j x y : Nat} (op : RasterOp) (mask data : Byte) (k : Nat) (i : Image)
    (hpx : ∀ p ∈ px, p.1 ≤ 447) (hd : px.Nodup) (hj : px[j]? = some (x, y)) (hy : y ≤ 255) :
    Image.pixel (plotByte op mask data k px i) x y
      = if mask.getMsbD (k + j) then rasterBit op (Image.pixel i x y) (data.getMsbD (k + j))
        else Image.pixel i x y := by
  have hx : x ≤ 447 := hpx (x, y) (List.mem_of_getElem? hj)
  induction px generalizing k i j with
  | nil => simp at hj
  | cons p ps ih =>
    obtain ⟨hp, hps⟩ := List.forall_mem_cons.mp hpx
    obtain ⟨hnot, hd⟩ := List.nodup_cons.mp hd
    rw [plotByte_cons]
    cases j with
    | zero =>
      obtain rfl : p = (x, y) := by simpa using hj
      rw [pixel_plotByte_other op mask data _ _ hps hx hnot, pixel_plotPosition_same op mask data k i hx hy,
        Nat.add_zero]
    | succ j =>
      have hj : ps[j]? = some (x, y) := by simpa using hj
      have hne : p ≠ (x, y) := fun h => hnot (h ▸ List.mem_of_getElem? hj)
      rw [ih _ _ hps hd hj, pixel_plotPosition_other op mask data k i hp hx hne, Nat.add_right_comm, Nat.add_assoc]

/-! ## The comparison (R149) -/

theorem agrees_iff {l : Lcp} {px : List (Nat × Nat)} (hlen : px.length = 8) : agrees l px = true ↔
    ∀ j p, px[j]? = some p → l.mask.getMsbD j = true → Image.pixel l.template p.1 p.2 = l.pattern.getMsbD j := by
  simp only [agrees, bitAt, List.all_eq_true, List.mem_range, Bool.or_eq_true, Bool.not_eq_true']
  refine ⟨fun h j p hj hm => ?_, fun h j _ => ?_⟩
  · have hlt : j < 8 := hlen ▸ (List.getElem?_eq_some_iff.mp hj).1
    simpa [hm, hj] using h j hlt
  · cases hj : px[j]? with
    | none => exact .inr rfl
    | some p =>
      cases hm : l.mask.getMsbD j with
      | false => exact .inl rfl
      | true => exact .inr (by simpa using h j p hj hm)

/-! ## One byte (R148 to R150) -/

theorem applyByte_template (l : Lcp) (d : Byte) (px : List (Nat × Nat)) (h : px = visited l.window 8 l.addrX l.addrY) :
    (l.applyByte d).template
      = if byteWritten l px then plotByte l.op l.mask d 0 px l.template else l.template := by subst h; rfl

/-- The pixels that a counter inside its window visits lie on the image (R146, R147). -/
theorem State.counterInside.visited {s : State} (h : s.counterInside) {n : Nat} {p : Nat × Nat}
    (hp : p ∈ visited s.lcp.window n s.lcp.addrX s.lcp.addrY) : p.1 ≤ 447 ∧ p.2 ≤ 255 := by
  obtain ⟨hx0, hx1, h447, hy0, hy1, h255⟩ := h
  obtain ⟨-, hx, -, hy⟩ := inWindow_visited ⟨hx0, hx1, hy0, hy1⟩ hp
  exact ⟨hx.trans h447, hy.trans h255⟩

/-- A pixel that a byte does not cover keeps its value. -/
theorem pixel_applyByte_other {s : State} {d : Byte} {x y : Nat} (hc : s.counterInside) (hx : x ≤ 447)
    (h : (x, y) ∉ visited s.lcp.window 8 s.lcp.addrX s.lcp.addrY) :
    Image.pixel (s.lcp.applyByte d).template x y = Image.pixel s.lcp.template x y := by
  rw [applyByte_template _ _ _ rfl]
  split
  · exact pixel_plotByte_other _ _ _ _ _ (fun p hp => (hc.visited hp).1) hx h
  · rfl

/-- A pixel that a byte covers takes the op's value when the byte is written and does not mask it. -/
theorem pixel_applyByte {s : State} {d : Byte} {px : List (Nat × Nat)} {k x y : Nat} (hc : s.counterInside)
    (hpx : px = visited s.lcp.window 8 s.lcp.addrX s.lcp.addrY) (hd : px.Nodup) (hk : px[k]? = some (x, y)) :
    Image.pixel (s.lcp.applyByte d).template x y
      = if byteWritten s.lcp px = true ∧ s.lcp.mask.getMsbD k = true
        then rasterBit s.lcp.op (Image.pixel s.lcp.template x y) (d.getMsbD k)
        else Image.pixel s.lcp.template x y := by
  have hin : ∀ p ∈ px, p.1 ≤ 447 ∧ p.2 ≤ 255 := fun p hp => hc.visited (hpx ▸ hp)
  rw [applyByte_template _ _ _ hpx]
  by_cases hw : byteWritten s.lcp px = true
  · have hy : y ≤ 255 := (hin (x, y) (List.mem_of_getElem? hk)).2
    rw [if_pos hw, pixel_plotByte _ _ _ 0 _ (fun p hp => (hin p hp).1) hd hk hy, Nat.zero_add]
    simp only [hw, true_and]
  · rw [if_neg hw, if_neg fun h => hw h.1]

/-! ## Several bytes (R150) -/

theorem applyBytes_append (l : Lcp) (a b : List Byte) : l.applyBytes (a ++ b) = (l.applyBytes a).applyBytes b :=
  List.foldl_append

/-- Bytes change the template and move the counter. -/
theorem applyBytes_frame (l : Lcp) (ds : List Byte) : l.applyBytes ds = { l with
    template := (l.applyBytes ds).template, addrX := (l.applyBytes ds).addrX, addrY := (l.applyBytes ds).addrY } := by
  induction ds generalizing l with
  | nil => rfl
  | cons d ds ih => exact ih (l.applyByte d)

@[simp] theorem applyBytes_hold (l : Lcp) (ds : List Byte) : (l.applyBytes ds).hold = l.hold := by
  rw [applyBytes_frame]

/-- A fill applies copies of its byte. -/
theorem fill_eq_applyBytes (l : Lcp) (d : Byte) (n : Nat) : l.fill d n = l.applyBytes (List.replicate n d) := by
  induction n generalizing l with
  | zero => rfl
  | succ n ih => exact ih (l.applyByte d)

theorem fill_succ (l : Lcp) (d : Byte) (n : Nat) : l.fill d (n + 1) = (l.fill d n).applyBytes [d] := by
  rw [fill_eq_applyBytes, List.replicate_succ', applyBytes_append, ← fill_eq_applyBytes]

/-! ## The requests -/

theorem exec_tplWrite {s : State} (g : Byte) (d : List Byte) (hr : s.lif.reply = none) (hh : s.lcp.hold = false) :
    exec (.tplWrite g d) s = .next (if 1 ≤ d.length ∧ d.length ≤ 1024 then { s with
        lcp := s.lcp.applyBytes d, lif := s.lif.answering 0x63#8 g .ok (addrBytes (s.lcp.applyBytes d)) }
      else s.refusedWith 0x63#8 g .badLength) := by
  refine (request_answered hr 0x63#8 g (tplWrite d)).trans (next_congr ?_)
  rw [tplWrite, answered_refuseIf, answered_refuseHeld _ _ _ hh, answered_taken]
  simp only [not_eq_true_iff (within_iff 1 1024 d.length), ite_not]
  rfl

theorem exec_tplFill {s : State} (g : Byte) (n : Nat) (d : Byte) (hr : s.lif.reply = none) (hh : s.lcp.hold = false) :
    exec (.tplFill g n d) s = .next (if 1 ≤ n ∧ n ≤ 65535 then { s with
        lcp := s.lcp.fill d n, lif := s.lif.answering 0x64#8 g .ok (addrBytes (s.lcp.fill d n)) }
      else s.refusedWith 0x64#8 g .badValue) := by
  refine (request_answered hr 0x64#8 g (tplFill n d)).trans (next_congr ?_)
  rw [tplFill, answered_refuseHeld _ _ _ hh, answered_refuseIf, answered_taken]
  simp only [not_eq_true_iff (within_iff 1 65535 n), ite_not]
  rfl

/-- Settles O49: the refusals, one byte pixel by pixel, then longer writes and fills as bytes one by one. -/
theorem bytesDrawThroughTheWindow : Obligations.BytesDrawThroughTheWindow := by
  intro g s hr hh
  have hwrite := exec_tplWrite g (hr := hr) (hh := hh)
  have hfill := exec_tplFill g (hr := hr) (hh := hh)
  refine ⟨fun d h => (hwrite d).trans (next_congr (if_neg h)), fun n d h => (hfill n d).trans (next_congr (if_neg h)),
    fun d px hc hpx hd => ?_, fun d rest h1 h2 => ?_, fun d n h1 h2 => ?_, fun d n h1 h2 => ?_⟩
  · refine ⟨_, (hwrite [d]).trans (next_congr (if_pos ⟨le_rfl, by simp⟩)), ?_, fun x y hx hy hn => ?_, ?_⟩
    · rintro c rfl
      rfl
    · exact pixel_applyByte_other hc (Nat.le_of_lt_succ hx) (hpx ▸ hn)
    · rintro k x y hk new old bit rfl rfl rfl
      have hnew := pixel_applyByte (d := d) hc hpx hd hk
      have hlen : px.length = 8 := by simp [hpx]
      refine ⟨fun hm => hnew.trans (if_neg (by simp [hm])), fun hm => ?_⟩
      simp only [hm, and_true] at hnew
      refine ⟨?_, ?_, ?_, ?_, fun agree ha => ?_⟩
      iterate 4 exact fun ho => hnew.trans (by simp [byteWritten, rasterBit, ho])
      rw [← agrees_iff hlen] at ha
      refine ⟨fun ho => ⟨fun h => hnew.trans ?_, fun h => hnew.trans ?_⟩,
        fun ho => ⟨fun h => hnew.trans ?_, fun h => hnew.trans ?_⟩⟩
      · simp [byteWritten, rasterBit, ho, ha.mp h]
      · simp [byteWritten, ho, mt ha.mpr h]
      · simp [byteWritten, rasterBit, ho, mt ha.mpr h]
      · simp [byteWritten, ho, ha.mp h]
  · refine ⟨_, _, (hwrite [d]).trans (next_congr (if_pos ⟨le_rfl, by simp⟩)),
      (hwrite (d :: rest)).trans (next_congr (if_pos ⟨by simp, h2⟩)), ?_⟩
    exact (exec_tplWrite (s := { s with lcp := s.lcp.applyBytes [d] }) g rest hr (by simp [hh])).trans
      (next_congr (if_pos ⟨h1, h2.le⟩))
  · refine ⟨_, _, (hwrite (List.replicate n d)).trans (next_congr (if_pos (by simp [h1, h2]))), rfl, ?_⟩
    rw [hfill n d, if_pos ⟨h1, by omega⟩, fill_eq_applyBytes]
  · refine ⟨_, (hfill n d).trans (next_congr (if_pos ⟨by omega, h2⟩)), rfl, _,
      (hfill (n - 1) d).trans (next_congr (if_pos (by omega))), ?_⟩
    have hheld : (s.lcp.fill d (n - 1)).hold = false := by rw [fill_eq_applyBytes, applyBytes_hold, hh]
    refine (exec_tplWrite (s := { s with lcp := s.lcp.fill d (n - 1) }) g [d] hr hheld).trans (next_congr ?_)
    have hlast : (s.lcp.fill d (n - 1)).applyBytes [d] = s.lcp.fill d n := by
      rw [← fill_succ, Nat.sub_add_cancel (by omega)]
    rw [if_pos ⟨le_rfl, by simp⟩]
    simp only [hlast]
    rfl

end Sys2Proof.Machine
end

section
/-! PROOFS. TPL_READ and TPL_CLEAR (O50). -/

namespace Sys2Proof.Machine

open Sys2Proof

/-- Byte k of a read holds the 8 pixels visited from 8 k advances on (R151). -/
theorem readBytes_eq_map (l : Lcp) (n x y : Nat) : l.readBytes n x y = (List.range n).map fun k =>
    byteOfPixels ((List.range 8).map fun j =>
      Image.pixel l.template (advances l.window (8 * k + j) x y).1 (advances l.window (8 * k + j) x y).2) := by
  induction n generalizing x y with
  | zero => rfl
  | succ n ih =>
    have hnext (k j : Nat) : advances l.window (8 * (k + 1) + j) x y
        = advances l.window (8 * k + j) (advances l.window 8 x y).1 (advances l.window 8 x y).2 := by
      rw [← advances_add]
      congr 1
      omega
    rw [Lcp.readBytes, ih, visited_eq_map, List.map_map, List.range_succ_eq_map (n := n), List.map_cons,
      List.map_map]
    simp only [Function.comp_def, hnext, Nat.mul_zero, Nat.zero_add]

/-- The bit of a read's byte is the pixel visited there. -/
theorem getMsbD_readBytes {l : Lcp} {n x y i : Nat} {p : Nat × Nat} {b : Byte}
    (hp : (visited l.window (8 * n) x y)[i]? = some p) (hb : (l.readBytes n x y)[i / 8]? = some b) :
    b.getMsbD (i % 8) = Image.pixel l.template p.1 p.2 := by
  obtain ⟨hi, rfl⟩ := visited_getElem? hp
  have hbyte : i / 8 < n := Nat.div_lt_of_lt_mul hi
  rw [readBytes_eq_map, List.getElem?_map, List.getElem?_range hbyte, Option.map_some, Option.some_inj] at hb
  rw [← hb, getMsbD_byteOfPixels _ (Nat.mod_lt i (by decide)), Nat.div_add_mod]

/-- Settles O50: the bytes read pixel by pixel, and the template cleared. -/
theorem templateReadAndClear : Obligations.TemplateReadAndClear := by
  refine ⟨fun g n s hr => ⟨fun h => ?_, ?_⟩, fun g s hr hh => ⟨0#114688, ?_, fun x y => by simp [Image.pixel]⟩⟩
  · refine (request_answered hr 0x65#8 g (tplRead n)).trans (next_congr ?_)
    rw [tplRead, answered_refuseIf, if_pos ((not_eq_true_iff (within_iff 1 1024 n)).mpr h)]
  · rintro h1 h2 c rfl
    refine ⟨s.lcp.readBytes n s.lcp.addrX s.lcp.addrY, ?_, by simp [readBytes_eq_map],
      fun i p b hp hb => getMsbD_readBytes hp hb⟩
    refine (request_answered hr 0x65#8 g (tplRead n)).trans (next_congr ?_)
    rw [tplRead, answered_refuseIf, if_neg (fun h => (not_eq_true_iff (within_iff 1 1024 n)).mp h ⟨h1, h2⟩)]
    rfl
  · refine (request_answered hr 0x66#8 g tplClear).trans (next_congr ?_)
    rw [tplClear, answered_refuseHeld _ _ _ hh]
    rfl

end Sys2Proof.Machine
end

section
/-! PROOFS. The operations that leave the label composer and the print queue alone (O8). -/

namespace Sys2Proof.Machine

open Sys2Proof

/-! ## The Plan Engine, the strips and the eyes -/

section
variable (s : State)

@[simp] theorem writePlan_labels (r : Strip) (n : Snapshot) :
    (writePlan r n s).lcp = s.lcp ∧ (writePlan r n s).prq = s.prq := by
  unfold writePlan
  dsimp only
  split
  · exact ⟨rfl, rfl⟩
  · obtain ⟨-, -, -, hf⟩ := reservePieces_spec (r.scan.getD { colour := 0, defects := [] }).colour (_ :: _) s
    rw [hf]
    exact ⟨rfl, rfl⟩

@[simp] theorem planCompletion_labels : (planCompletion s).lcp = s.lcp ∧ (planCompletion s).prq = s.prq := by
  unfold planCompletion
  split
  · exact ⟨rfl, rfl⟩
  · dsimp only
    split <;> simp

@[simp] theorem deadlineAction_labels (r : Strip) :
    (deadlineAction r s).lcp = s.lcp ∧ (deadlineAction r s).prq = s.prq := by
  unfold deadlineAction
  split
  · exact ⟨rfl, rfl⟩
  · exact ⟨rfl, rfl⟩
  · simp
  · split
    · simp
    · split <;> simp

@[simp] theorem deliverDeadline_labels (t : Nat) :
    (deliverDeadline t s).lcp = s.lcp ∧ (deliverDeadline t s).prq = s.prq := by
  unfold deliverDeadline
  split
  · exact ⟨rfl, rfl⟩
  · split
    · exact ⟨rfl, rfl⟩
    · split <;> simp

@[simp] theorem scanRecordReceived_labels (p : List Byte) :
    (scanRecordReceived p s).lcp = s.lcp ∧ (scanRecordReceived p s).prq = s.prq := by
  unfold scanRecordReceived takeScanRecord
  dsimp only
  split
  · split <;> exact ⟨rfl, rfl⟩
  · split
    · exact ⟨rfl, rfl⟩
    · simp [scanAccept]

@[simp] theorem releasePlan_labels (r : Strip) :
    (releasePlan r s).lcp = s.lcp ∧ (releasePlan r s).prq = s.prq := by
  rw [releasePlan_eq, releaseAll_frame]
  exact ⟨rfl, rfl⟩

@[simp] theorem countBin0_labels (r : Bin0Reason) :
    (countBin0 r s).lcp = s.lcp ∧ (countBin0 r s).prq = s.prq := by cases r <;> exact ⟨rfl, rfl⟩

@[simp] theorem createAt_labels (i : Option Nat) (c : CutList) (r : Strip) :
    (createAt i c r s).lcp = s.lcp ∧ (createAt i c r s).prq = s.prq := by
  unfold createAt
  split
  · exact ⟨rfl, rfl⟩
  · unfold createPlanned
    split
    · exact ⟨rfl, rfl⟩
    · split <;> simp

@[simp] theorem createUncut_labels (c : CutList) (r : Strip) :
    (createUncut c r s).lcp = s.lcp ∧ (createUncut c r s).prq = s.prq := by simp [createUncut]

@[simp] theorem cutMade_labels (c : CutList) (x : Nat) (r : Strip) :
    (cutMade c x r s).lcp = s.lcp ∧ (cutMade c x r s).prq = s.prq := by
  have hfires : (s.firesCut c.tag x).lcp = s.lcp ∧ (s.firesCut c.tag x).prq = s.prq := ⟨rfl, rfl⟩
  rw [cutMade_eq]
  split <;> simp [hfires]

@[simp] theorem cutMissed_labels (c : CutList) (x : Nat) (r : Strip) :
    (cutMissed c x r s).lcp = s.lcp ∧ (cutMissed c x r s).prq = s.prq := by
  have hmisses : (s.missesCut c.tag x).lcp = s.lcp ∧ (s.missesCut c.tag x).prq = s.prq := ⟨rfl, rfl⟩
  rw [cutMissed_eq]
  split <;> simp [hmisses]

@[simp] theorem trailCreation_labels (c : CutList) (r : Strip) :
    (trailCreation c r s).lcp = s.lcp ∧ (trailCreation c r s).prq = s.prq := by
  unfold trailCreation
  split <;> simp

@[simp] theorem slipCheck_labels (r : Strip) (l : Nat) :
    (slipCheck r l s).lcp = s.lcp ∧ (slipCheck r l s).prq = s.prq := by
  unfold slipCheck
  split
  · exact ⟨rfl, rfl⟩
  · split <;> exact ⟨rfl, rfl⟩

@[simp] theorem gaugeMark_labels : (gaugeMark s).lcp = s.lcp ∧ (gaugeMark s).prq = s.prq := by
  unfold gaugeMark
  dsimp only
  split
  · exact ⟨rfl, rfl⟩
  · split <;> exact ⟨rfl, rfl⟩

@[simp] theorem barEnd_labels : (barEnd s).lcp = s.lcp ∧ (barEnd s).prq = s.prq := by
  unfold barEnd
  split
  · split <;> exact ⟨rfl, rfl⟩
  · exact ⟨rfl, rfl⟩

@[simp] theorem measureLead_labels : (measureLead s).lcp = s.lcp ∧ (measureLead s).prq = s.prq := by
  unfold measureLead
  split
  · simp
  · split
    · exact ⟨rfl, rfl⟩
    · unfold measureStray
      dsimp only
      split
      · simp [countStray, setHolder]
      · exact ⟨rfl, rfl⟩

@[simp] theorem measureTrail_labels : (measureTrail s).lcp = s.lcp ∧ (measureTrail s).prq = s.prq := by
  unfold measureTrail
  split
  · unfold gaugeTrail
    split <;> exact ⟨rfl, rfl⟩
  · split
    · exact ⟨rfl, rfl⟩
    · dsimp only
      split
      · exact ⟨rfl, rfl⟩
      · unfold lengthWrite
        split
        · simp [setHolder]
        · exact ⟨rfl, rfl⟩

@[simp] theorem scanLead_labels : (scanLead s).lcp = s.lcp ∧ (scanLead s).prq = s.prq := by
  unfold scanLead
  split
  · unfold scanMatch announce
    dsimp only
    split
    · exact ⟨rfl, rfl⟩
    · split <;> exact ⟨rfl, rfl⟩
  · exact ⟨rfl, rfl⟩

@[simp] theorem sawLead_labels : (sawLead s).lcp = s.lcp ∧ (sawLead s).prq = s.prq := by
  unfold sawLead
  split <;> exact ⟨rfl, rfl⟩

@[simp] theorem encoderPulse_labels (e : Encoder) (d : Direction) :
    (encoderPulse e d s).lcp = s.lcp ∧ (encoderPulse e d s).prq = s.prq := by
  unfold encoderPulse
  split
  · exact ⟨rfl, rfl⟩
  · cases e <;> exact ⟨rfl, rfl⟩

/-! ## Pacing, the cutter group, the changeover, the line -/

@[simp] theorem feedReadyChange_labels (b : Bool) :
    (feedReadyChange b s).lcp = s.lcp ∧ (feedReadyChange b s).prq = s.prq := by
  unfold feedReadyChange
  dsimp only
  split <;> simp

@[simp] theorem feedReadyEdge_labels (b : Bool) :
    (feedReadyEdge b s).lcp = s.lcp ∧ (feedReadyEdge b s).prq = s.prq := by
  unfold feedReadyEdge
  split
  · exact ⟨rfl, rfl⟩
  · dsimp only
    split <;> simp

@[simp] theorem decideSlot_labels : (decideSlot s).lcp = s.lcp ∧ (decideSlot s).prq = s.prq := by
  unfold decideSlot
  split
  · exact ⟨rfl, rfl⟩
  · split
    · unfold heldSlot
      dsimp only
      split <;> simp
    · split <;> exact ⟨rfl, rfl⟩

@[simp] theorem slotEvent_labels : (slotEvent s).lcp = s.lcp ∧ (slotEvent s).prq = s.prq := by
  unfold slotEvent
  split
  · dsimp only
    split
    · unfold periodStart
      dsimp only
      split <;> simp [nextSlot]
    · simp [nextSlot]
  · exact ⟨rfl, rfl⟩

@[simp] theorem spinupExpiry_labels : (spinupExpiry s).lcp = s.lcp ∧ (spinupExpiry s).prq = s.prq := by
  unfold spinupExpiry
  split <;> simp

@[simp] theorem hysteresisExpiry_labels : (hysteresisExpiry s).lcp = s.lcp ∧ (hysteresisExpiry s).prq = s.prq := by
  unfold hysteresisExpiry
  split <;> simp

@[simp] theorem residencyExpiry_labels : (residencyExpiry s).lcp = s.lcp ∧ (residencyExpiry s).prq = s.prq := by
  unfold residencyExpiry
  split
  · dsimp only
    split <;> simp
  · exact ⟨rfl, rfl⟩

@[simp] theorem abortTaken_labels : (abortTaken s).lcp = s.lcp ∧ (abortTaken s).prq = s.prq := by
  unfold abortTaken
  split
  · exact ⟨rfl, rfl⟩
  · simp [backToRunning]

@[simp] theorem toolingReadyRise_labels : (toolingReadyRise s).lcp = s.lcp ∧ (toolingReadyRise s).prq = s.prq := by
  unfold toolingReadyRise
  split
  · exact ⟨rfl, rfl⟩
  · dsimp only
    split
    · simp [changeComplete]
    · exact ⟨rfl, rfl⟩

@[simp] theorem toolingTimerExpiry_labels :
    (toolingTimerExpiry s).lcp = s.lcp ∧ (toolingTimerExpiry s).prq = s.prq := by
  unfold toolingTimerExpiry
  split <;> simp

@[simp] theorem stopRunning_labels : (stopRunning s).lcp = s.lcp ∧ (stopRunning s).prq = s.prq := by
  unfold stopRunning
  split <;> simp

/-! ## Bins, manifests, the emergency stop -/

@[simp] theorem searchBins_labels (p : Piece) (bs : List Nat) :
    (searchBins p bs s).1.lcp = s.lcp ∧ (searchBins p bs s).1.prq = s.prq := by
  induction bs generalizing s with
  | nil => exact ⟨rfl, rfl⟩
  | cons b bs ih =>
    unfold searchBins
    split
    · dsimp only
      split
      · exact ⟨rfl, rfl⟩
      · exact ih _
    · exact ih s

@[simp] theorem dischargeAll_labels : (dischargeAll s).lcp = s.lcp ∧ (dischargeAll s).prq = s.prq := by
  have hfold (bs : List Nat) (u : State) :
      (bs.foldl (fun s b => dischargeStart b s) u).lcp = u.lcp
        ∧ (bs.foldl (fun s b => dischargeStart b s) u).prq = u.prq := by
    induction bs generalizing u with
    | nil => exact ⟨rfl, rfl⟩
    | cons b bs ih => simpa using ih (dischargeStart b u)
  exact hfold binNumbers s

@[simp] theorem cartChange_labels (n : Nat) (a : Bool) :
    (cartChange n a s).lcp = s.lcp ∧ (cartChange n a s).prq = s.prq := by
  have htold (u : State) : (if cartMasked (binAt s n) a then u else u.raise (.cart n a)).lcp = u.lcp
      ∧ (if cartMasked (binAt s n) a then u else u.raise (.cart n a)).prq = u.prq := by
    split <;> exact ⟨rfl, rfl⟩
  unfold cartChange
  split
  · exact ⟨rfl, rfl⟩
  · dsimp only
    split <;> simp [htold]

@[simp] theorem dischargeEnd_labels (n : Nat) : (dischargeEnd n s).lcp = s.lcp ∧ (dischargeEnd n s).prq = s.prq := by
  unfold dischargeEnd
  split <;> exact ⟨rfl, rfl⟩

@[simp] theorem labelState_labels (b : Option Nat) (l : LabelState) :
    (labelState b l s).lcp = s.lcp ∧ (labelState b l s).prq = s.prq := by
  unfold labelState
  split <;> exact ⟨rfl, rfl⟩

@[simp] theorem clearStrips_labels : (clearStrips s).lcp = s.lcp ∧ (clearStrips s).prq = s.prq := by
  rw [clearStrips_eq]
  exact ⟨rfl, rfl⟩

@[simp] theorem enterHalted_labels : (enterHalted s).lcp = s.lcp ∧ (enterHalted s).prq = s.prq := by
  rw [enterHalted_eq]
  exact ⟨rfl, rfl⟩

@[simp] theorem estopAssert_labels : (estopAssert s).lcp = s.lcp ∧ (estopAssert s).prq = s.prq := by
  unfold estopAssert
  dsimp only
  split <;> simp

end

end Sys2Proof.Machine
end

section
/-! PROOFS. Every step keeps the address counter in its window and the rendering under the hold (O8): the composer, the
closings, the print queue, and every other operation as one that leaves them or comes to closings. -/

namespace Sys2Proof.Machine

open Sys2Proof

/-! ## The relation -/

/-- t meets whatever of the two conditions on labels s meets. -/
structure KeepsLabels (s t : State) : Prop where
  counter : s.counterInside → t.counterInside
  held : s.renderHeld → t.renderHeld

theorem KeepsLabels.refl (s : State) : KeepsLabels s s := ⟨id, id⟩

theorem KeepsLabels.trans {s t u : State} (h : KeepsLabels s t) (h' : KeepsLabels t u) : KeepsLabels s u :=
  ⟨h'.counter ∘ h.counter, h'.held ∘ h.held⟩

/-- The same, the later change first. -/
theorem KeepsLabels.after {s t u : State} (h' : KeepsLabels t u) (h : KeepsLabels s t) : KeepsLabels s u := h.trans h'

@[simp] theorem KeepsLabels.of_same {s t : State} (h : t.lcp = s.lcp ∧ t.prq = s.prq) : KeepsLabels s t := by
  refine ⟨?_, ?_⟩
  · unfold State.counterInside
    rw [h.1]
    exact id
  · unfold State.renderHeld
    rw [h.1, h.2]
    exact id

/-- After a change of other blocks. -/
theorem KeepsLabels.after_same {s t u : State} (h : KeepsLabels t u) (ht : t.lcp = s.lcp ∧ t.prq = s.prq) :
    KeepsLabels s u := h.after (.of_same ht)

/-! ## Closings (R138, R139, R152) -/

/-- Closings leave the counter and the hold, and begin a rendering under the hold only. -/
theorem keepsLabels_attempt (s : State) : KeepsLabels s (attempt s) := by
  have hlcp := (closes_attempt s).composer
  refine ⟨fun h => ?_, fun h hr => ?_⟩
  · unfold State.counterInside
    rw [hlcp]
    exact h
  · cases hh : s.lcp.hold with
    | true =>
      rw [hlcp]
      exact hh
    | false =>
      rw [attempt_unheld s hh] at hr
      simpa [hh] using h hr

theorem keepsLabels_closingEntry (b : Nat) (s : State) : KeepsLabels s (closingEntry b s) :=
  (keepsLabels_attempt _).after_same ⟨rfl, rfl⟩

theorem keepsLabels_settlePending (b : Nat) (s : State) : KeepsLabels s (settlePending b s) := by
  unfold settlePending
  split
  · exact keepsLabels_closingEntry b s
  · exact .refl s

theorem keepsLabels_closeRequest (b : Nat) (r : CloseReason) (s : State) : KeepsLabels s (closeRequest b r s) := by
  unfold closeRequest
  split
  · exact (keepsLabels_settlePending b _).after_same ⟨rfl, rfl⟩
  · exact .refl s

theorem keepsLabels_foldl {α : Type} (f : State → α → State) (hf : ∀ s a, KeepsLabels s (f s a)) (l : List α)
    (s : State) : KeepsLabels s (l.foldl f s) := by
  induction l generalizing s with
  | nil => exact .refl s
  | cons a l ih => exact (hf s a).trans (ih _)

theorem keepsLabels_profileClose (s : State) (b : Nat) : KeepsLabels s (profileClose s b) := by
  unfold profileClose
  split
  · exact keepsLabels_closeRequest b .profile s
  · exact .refl s

theorem keepsLabels_drainTest (s : State) : KeepsLabels s (drainTest s) := by
  unfold drainTest
  split
  · exact .after (.of_same (by simp)) (keepsLabels_foldl _ keepsLabels_profileClose binNumbers s)
  · exact .refl s

/-! ## Removals and pieces -/

theorem keepsLabels_afterPiece (s : State) : KeepsLabels s (afterPiece s) :=
  (keepsLabels_drainTest _).after_same (by simp)

theorem keepsLabels_afterStrip (s : State) : KeepsLabels s (afterStrip s) :=
  (keepsLabels_drainTest _).after_same (by simp)

theorem keepsLabels_removeStrip (r : Strip) (s : State) : KeepsLabels s (removeStrip r s) :=
  (keepsLabels_afterStrip _).after_same (by simp)

theorem keepsLabels_windowExpiry (e : TrimEye) (t : Nat) (s : State) : KeepsLabels s (windowExpiry e t s) := by
  unfold windowExpiry
  split
  · exact .refl s
  · split
    · exact .refl s
    · split
      · exact (keepsLabels_removeStrip _ _).after_same (by simp)
      · exact .refl s

theorem keepsLabels_doneTest (t : Nat) (s : State) : KeepsLabels s (doneTest t s) := by
  unfold doneTest
  split
  · split
    · exact keepsLabels_removeStrip _ s
    · exact .refl s
  · exact .refl s

theorem keepsLabels_cutDue (t : Nat) (s : State) : KeepsLabels s (cutDue t s) := by
  unfold cutDue
  split
  · split
    · exact .refl s
    · split
      · refine (keepsLabels_doneTest _ _).after_same ?_
        split <;> simp
      · exact .refl s
  · exact .refl s

theorem keepsLabels_sawTrailEdge (s : State) : KeepsLabels s (sawTrailEdge s) := by
  unfold sawTrailEdge
  split
  · exact .refl s
  · dsimp only
    split
    · exact .of_same ⟨rfl, rfl⟩
    · unfold sawTrail
      split
      · exact .of_same ⟨rfl, rfl⟩
      · exact (keepsLabels_doneTest _ _).after_same (by simp [setHolder])

theorem keepsLabels_takeEdge (e : TrimEye) (b : Bool) (s : State) : KeepsLabels s (takeEdge e b s) := by
  cases e <;> cases b
  case saw.false => exact keepsLabels_sawTrailEdge s
  all_goals exact .of_same (by simp [takeEdge, setHolder])

theorem keepsLabels_trimEdge (e : TrimEye) (b : Bool) (s : State) : KeepsLabels s (trimEdge e b s) := by
  unfold trimEdge
  split
  · exact .refl s
  · dsimp only
    split
    · exact .of_same ⟨rfl, rfl⟩
    · exact .of_same ⟨rfl, rfl⟩
    · exact (keepsLabels_takeEdge _ _ _).after_same ⟨rfl, rfl⟩

theorem keepsLabels_toBin0 (r : Bin0Reason) (p : Piece) (s : State) : KeepsLabels s (toBin0 r p s) :=
  (keepsLabels_afterPiece _).after_same (by simp)

theorem keepsLabels_assign (b : Nat) (p : Piece) (s : State) : KeepsLabels s (assign b p s) := by
  unfold assign
  dsimp only
  split
  · exact (keepsLabels_closeRequest _ _ _).after_same ⟨rfl, rfl⟩
  · exact .of_same ⟨rfl, rfl⟩

theorem keepsLabels_binSearch (p : Piece) (s : State) : KeepsLabels s (binSearch p s) := by
  have hsearch := searchBins_labels s p binNumbers
  unfold binSearch
  split
  · exact keepsLabels_toBin0 _ _ s
  · split
    · exact keepsLabels_toBin0 _ _ s
    · split
      · next h =>
        rw [h] at hsearch
        exact (keepsLabels_assign _ _ _).after_same hsearch
      · next h =>
        rw [h] at hsearch
        exact (keepsLabels_toBin0 _ _ _).after_same hsearch

theorem keepsLabels_dropLead (s : State) : KeepsLabels s (dropLead s) := by
  unfold dropLead
  split
  · exact keepsLabels_binSearch _ s
  · exact .of_same ⟨rfl, rfl⟩

theorem keepsLabels_dropEdge (b : Bool) (s : State) : KeepsLabels s (dropEdge b s) := by
  unfold dropEdge
  split
  · exact .refl s
  · dsimp only
    split
    · exact .of_same ⟨rfl, rfl⟩
    · exact .of_same ⟨rfl, rfl⟩
    · split
      · exact (keepsLabels_dropLead _).after_same ⟨rfl, rfl⟩
      · exact .of_same ⟨rfl, rfl⟩

theorem keepsLabels_dropExpiry (t i : Nat) (s : State) : KeepsLabels s (dropExpiry t i s) := by
  unfold dropExpiry
  split
  · exact .refl s
  · split
    · exact .refl s
    · split
      · exact (keepsLabels_afterPiece _).after_same (by simp)
      · exact .refl s

theorem keepsLabels_land (b : Nat) (p : Piece) (s : State) : KeepsLabels s (land b p s) :=
  (keepsLabels_afterPiece _).after ((keepsLabels_settlePending b _).after_same (by simp))

theorem keepsLabels_diverterFire (t i : Nat) (s : State) : KeepsLabels s (diverterFire t i s) := by
  unfold diverterFire
  split
  · exact .refl s
  · split
    · exact .refl s
    · split
      · exact (keepsLabels_land _ _ _).after_same ⟨rfl, rfl⟩
      · exact .refl s

theorem keepsLabels_clearPiece (s : State) (p : Piece) : KeepsLabels s (clearPiece s p) := by
  unfold clearPiece
  dsimp only
  split
  · exact .of_same (by simp)
  · exact (keepsLabels_settlePending _ _).after_same (by simp)

/-! ## The line -/

/-- After reset the window is the whole image, the counter at its start, and no slot is in use (R146, R162). -/
theorem keepsLabels_freshState (s : State) : KeepsLabels s (freshState s) := by
  refine ⟨fun _ => ?_, fun _ ⟨x, hx, hr⟩ => ?_⟩
  · simp [State.counterInside, freshState, State.reset]
  · have hx : x = .initial := by simpa [freshState, State.reset] using hx
    simp [hx, Slot.initial] at hr

theorem keepsLabels_resetAll (s : State) : KeepsLabels s (resetAll s) := by
  unfold resetAll
  split
  · exact .after (.of_same (by simp)) (keepsLabels_freshState s)
  · exact keepsLabels_freshState s

theorem keepsLabels_resumeEdge (e : TrimEye) (s : State) : KeepsLabels s (resumeEdge e s) := by
  unfold resumeEdge
  dsimp only
  split
  · exact .refl s
  · exact (keepsLabels_takeEdge _ _ _).after_same ⟨rfl, rfl⟩

theorem keepsLabels_resumeDrop (s : State) : KeepsLabels s (resumeDrop s) := by
  unfold resumeDrop
  dsimp only
  split
  · exact .refl s
  · split
    · exact (keepsLabels_dropLead _).after_same ⟨rfl, rfl⟩
    · exact .of_same ⟨rfl, rfl⟩

theorem keepsLabels_resumeFeed (s : State) : KeepsLabels s (resumeFeed s) := by
  unfold resumeFeed
  split
  · exact .refl s
  · exact .of_same (by simp)

theorem keepsLabels_resume (s : State) : KeepsLabels s (resume s) := by
  have hcaughtUp (u : State) :
      KeepsLabels u (resumeFeed (resumeDrop (resumeEdge .saw (resumeEdge .scan (resumeEdge .measure u))))) :=
    (keepsLabels_resumeFeed _).after ((keepsLabels_resumeDrop _).after ((keepsLabels_resumeEdge _ _).after
      ((keepsLabels_resumeEdge _ _).after (keepsLabels_resumeEdge _ u))))
  have hstarted (u : State) (n : Notice) : KeepsLabels u (dischargeAll (enterSpinup .request (u.raise n))) :=
    .of_same (by simp)
  exact (hstarted _ _).after ((hcaughtUp _).after_same ⟨rfl, rfl⟩)

theorem keepsLabels_clearAll (s : State) : KeepsLabels s (clearAll s) := by
  have hcleared (u : State) : KeepsLabels u (dischargeAll (clearLine u)) := .of_same (by simp [clearLine_eq])
  exact (keepsLabels_drainTest _).after ((hcleared _).after
    ((keepsLabels_foldl _ keepsLabels_clearPiece _ _).after_same (by simp)))

theorem keepsLabels_changeTaken (n : Nat) (s : State) : KeepsLabels s (changeTaken n s) := by
  unfold changeTaken
  split
  · split
    · exact .refl s
    · exact (keepsLabels_drainTest _).after_same (by simp)
  · split
    · exact .refl s
    · split
      · exact .of_same (by simp [backToRunning])
      · exact .of_same ⟨rfl, rfl⟩
  · exact .refl s
  · exact .of_same (by simp)

theorem keepsLabels_disableTaken (n : Nat) (s : State) : KeepsLabels s (disableTaken n s) := by
  unfold disableTaken
  split
  · exact .refl s
  · split
    · exact keepsLabels_closeRequest _ _ _
    · exact .of_same ⟨rfl, rfl⟩
  · exact .of_same ⟨rfl, rfl⟩

/-! ## The print queue (R162 to R170) -/

/-- A change of the print queue that puts no slot to RENDERING. -/
theorem keepsLabels_setPrq (s : State) (v : Prq)
    (h : ∀ x ∈ v.slots.toList, x.state = .rendering → x ∈ s.prq.slots.toList) : KeepsLabels s (s.setPrq v) :=
  ⟨id, fun hs ⟨x, hx, hr⟩ => hs ⟨x, h x hx hr, hr⟩⟩

/-- A change of the print queue that leaves the slots. -/
theorem keepsLabels_slots {s : State} {v : Prq} (h : v.slots = s.prq.slots) : KeepsLabels s (s.setPrq v) :=
  keepsLabels_setPrq s v fun _ hx _ => h ▸ hx

theorem keepsLabels_modSlot (s : State) (k : Nat) (f : Slot → Slot) (hf : ∀ x, (f x).state ≠ .rendering) :
    KeepsLabels s (s.modSlot k f) := by
  refine keepsLabels_setPrq s _ fun x hx hr => ?_
  rcases mem_tabMod hx with hx | ⟨y, -, rfl⟩
  · exact hx
  · exact absurd hr (hf y)

theorem keepsLabels_startTest (s : State) : KeepsLabels s (startTest s) := by
  unfold startTest
  split
  · exact .refl s
  · split
    · exact (keepsLabels_slots (by rfl)).after (keepsLabels_modSlot s _ _ fun _ => by simp)
    · exact .refl s

theorem keepsLabels_rowRequest (s : State) : KeepsLabels s (rowRequest s) := by
  unfold rowRequest
  split
  · exact .refl s
  · dsimp only
    split <;> exact (keepsLabels_slots (by rfl)).after_same ⟨rfl, rfl⟩

theorem keepsLabels_labelEnd (s : State) : KeepsLabels s (labelEnd s) := by
  have hdone (u : State) (b : Option Nat) (n : Notice) (v : Prq) (hv : v.slots = u.prq.slots) :
      KeepsLabels u ((labelState b .printed (u.setPrq v)).raise n) :=
    .after (.of_same (by simp)) (keepsLabels_slots hv)
  exact (keepsLabels_attempt _).after ((keepsLabels_modSlot _ _ _ fun _ => by simp [slotFreed]).after
    ((keepsLabels_slots (by rfl)).after (hdone s _ _ _ rfl)))

theorem keepsLabels_rowTransferEnd (s : State) : KeepsLabels s (rowTransferEnd s) := by
  unfold rowTransferEnd
  split
  · dsimp only
    split
    · exact (keepsLabels_labelEnd _).after (keepsLabels_slots (by rfl))
    · exact keepsLabels_slots (by rfl)
  · exact .refl s

theorem keepsLabels_printFail (c : PrintCause) (s : State) : KeepsLabels s (printFail c s) := by
  have hcount (u : State) : KeepsLabels u (u.setPrq (countFault c u.prq)) := by
    cases c <;> exact keepsLabels_slots (by rfl)
  have htold (u : State) (n : Notice) : KeepsLabels u (u.raise n) := .of_same ⟨rfl, rfl⟩
  exact (hcount _).after ((htold _ _).after
    ((keepsLabels_modSlot _ _ _ fun _ => by simp).after (keepsLabels_slots (by rfl))))

theorem keepsLabels_printFaultAssert (s : State) : KeepsLabels s (printFaultAssert s) := by
  unfold printFaultAssert
  split
  · exact .refl s
  · dsimp only
    split
    · exact (keepsLabels_printFail _ _).after_same ⟨rfl, rfl⟩
    · exact (keepsLabels_slots (by rfl)).after_same ⟨rfl, rfl⟩

theorem keepsLabels_printFaultRelease (s : State) : KeepsLabels s (printFaultRelease s) := by
  unfold printFaultRelease
  split
  · exact (keepsLabels_startTest _).after_same ⟨rfl, rfl⟩
  · exact .refl s

theorem keepsLabels_printTimerExpiry (s : State) : KeepsLabels s (printTimerExpiry s) := by
  unfold printTimerExpiry
  split
  · exact keepsLabels_printFail _ s
  · exact .refl s

theorem keepsLabels_printReadyRise (s : State) : KeepsLabels s (printReadyRise s) := by
  unfold printReadyRise
  split
  · exact .refl s
  · exact (keepsLabels_startTest _).after_same ⟨rfl, rfl⟩

theorem keepsLabels_donePulseEnd (s : State) : KeepsLabels s (donePulseEnd s) := by
  unfold donePulseEnd
  split
  · exact (keepsLabels_startTest _).after (keepsLabels_slots (by rfl))
  · exact .refl s

theorem keepsLabels_retrySlot (k : Nat) (s : State) : KeepsLabels s (retrySlot k s) := by
  unfold retrySlot
  exact (keepsLabels_startTest _).after ((keepsLabels_slots (by rfl)).after
    (keepsLabels_modSlot s k _ fun _ => by simp))

theorem keepsLabels_dropSlot (k : Nat) (s : State) : KeepsLabels s (dropSlot k s) := by
  have hlost : KeepsLabels s (labelState (slotAt s k).bundle .lost s) := .of_same (by simp)
  exact (keepsLabels_startTest _).after ((keepsLabels_attempt _).after
    ((keepsLabels_modSlot _ _ _ fun _ => by simp [slotFreed]).after ((keepsLabels_slots (by rfl)).after hlost)))

/-- 1 ms lets the print times run (log 1). -/
theorem keepsLabels_tick (s : State) : KeepsLabels s (tick s) := by
  have halways (u : State) : KeepsLabels u (tickAlways u) := (keepsLabels_slots (by rfl)).after_same ⟨rfl, rfl⟩
  unfold tick
  split
  · exact halways s
  · exact (halways _).after_same ⟨rfl, rfl⟩

/-! ## The composer (R146 to R158) -/

/-- A change of the composer that keeps the counter inside and the hold as it is. -/
theorem keepsLabels_setLcp (s : State) (v : Lcp) (hc : s.counterInside → (s.setLcp v).counterInside)
    (hh : v.hold = s.lcp.hold) : KeepsLabels s (s.setLcp v) :=
  ⟨hc, fun hs hr => hh.trans (hs hr)⟩

/-- The start of the next rendering takes the engine alone (R158). -/
theorem lcp_takeUp_frame (l : Lcp) : l.takeUp = { l with engine := l.takeUp.engine } := by
  unfold Lcp.takeUp
  split <;> rfl

theorem keepsLabels_finishRender (k n : Nat) (l : Image × List Nat) (s : State) :
    KeepsLabels s (finishRender k n l s) := by
  have hfinish (u : State) : KeepsLabels u (u.setLcp (u.lcp.finish k l.2)) := by
    refine keepsLabels_setLcp u _ (fun h => ?_) ?_
    · unfold State.counterInside Lcp.finish
      rw [State.setLcp_lcp, lcp_takeUp_frame]
      exact h
    · rw [Lcp.finish, lcp_takeUp_frame]
  exact (keepsLabels_startTest _).after ((hfinish _).after ((keepsLabels_slots (by rfl)).after
    ((keepsLabels_modSlot _ _ _ fun _ => by simp).after_same ⟨rfl, rfl⟩)))

theorem keepsLabels_renderCompletion (s : State) : KeepsLabels s (renderCompletion s) := by
  unfold renderCompletion
  split
  · exact .refl s
  · split
    · exact .refl s
    · split
      · exact .refl s
      · exact keepsLabels_finishRender _ _ _ s

/-- Advances leave the counter in its window (R147). -/
theorem counterInside_moved {s : State} (n : Nat) (h : s.counterInside) : (s.setLcp (s.lcp.moved n)).counterInside := by
  obtain ⟨hx0, hx1, h447, hy0, hy1, h255⟩ := h
  have hin : InWindow s.lcp.window (s.lcp.addrX, s.lcp.addrY) := ⟨hx0, hx1, hy0, hy1⟩
  obtain ⟨hx0, hx1, hy0, hy1⟩ := inWindow_advances n hin
  exact ⟨hx0, hx1, h447, hy0, hy1, h255⟩

/-- Each byte drawn moves the counter by 8 (R150). -/
theorem counterInside_applyBytes {s : State} (ds : List Byte) (h : s.counterInside) :
    (s.setLcp (s.lcp.applyBytes ds)).counterInside := by
  induction ds generalizing s with
  | nil => exact h
  | cons d ds ih => exact ih (s := s.setLcp (s.lcp.applyByte d)) (counterInside_moved 8 h)

theorem keepsLabels_applyBytes (s : State) (ds : List Byte) : KeepsLabels s (s.setLcp (s.lcp.applyBytes ds)) :=
  keepsLabels_setLcp s _ (counterInside_applyBytes ds) (applyBytes_hold s.lcp ds)

theorem keepsLabels_moved (s : State) (n : Nat) : KeepsLabels s (s.setLcp (s.lcp.moved n)) :=
  keepsLabels_setLcp s _ (counterInside_moved n) rfl

/-! ## The owners of the requests -/

/-- A request taken keeps the conditions; a refusal changes nothing. -/
def OkKeepsLabels (s : State) (a : Answer) : Prop := ∀ t d, a = .ok (t, d) → KeepsLabels s t

@[simp] theorem okKeepsLabels_taken (s t : State) (d : List Byte) : OkKeepsLabels s (taken t d) ↔ KeepsLabels s t :=
  ⟨fun h => h t d rfl, fun h u e he => by cases he; exact h⟩

@[simp] theorem okKeepsLabels_error (s : State) (c : ResultCode) : OkKeepsLabels s (.error c) :=
  fun _ _ he => by cases he

@[simp] theorem okKeepsLabels_refuseIf (s : State) (b : Bool) (c : ResultCode) (a : Answer) :
    OkKeepsLabels s (refuseIf b c a) ↔ (b = false → OkKeepsLabels s a) := by
  cases b <;> simp

@[simp] theorem okKeepsLabels_refuseHalted (s : State) (a : Answer) :
    OkKeepsLabels s (refuseHalted s a) ↔ (s.ltr.lineState ≠ .halted → OkKeepsLabels s a) := by
  simp [refuseHalted]

@[simp] theorem okKeepsLabels_refuseHeld (s : State) (a : Answer) :
    OkKeepsLabels s (refuseHeld s a) ↔ (s.lcp.hold = false → OkKeepsLabels s a) := by
  simp [refuseHeld]

@[simp] theorem okKeepsLabels_refuseWatching (s : State) (a : Answer) :
    OkKeepsLabels s (refuseWatching s a) ↔ (watching s = false → OkKeepsLabels s a) := by
  simp [refuseWatching]

/-- The window is taken inside the image, with the counter at its start (R147). -/
theorem okKeepsLabels_tplWindow (w : Rect) (s : State) : OkKeepsLabels s (tplWindow w s) := by
  simp only [tplWindow, okKeepsLabels_refuseHeld, okKeepsLabels_refuseIf, okKeepsLabels_taken]
  intro _ hw
  obtain ⟨hx, h447, hy, h255⟩ := (rectOk_iff w).mp (by simpa using hw)
  exact keepsLabels_setLcp s _ (fun _ => ⟨le_rfl, hx, h447, le_rfl, hy, h255⟩) rfl

/-- The counter is set inside the window (R147). -/
theorem okKeepsLabels_tplAddr (x y : Nat) (s : State) : OkKeepsLabels s (tplAddr x y s) := by
  simp only [tplAddr, okKeepsLabels_refuseHeld, okKeepsLabels_refuseIf, okKeepsLabels_taken]
  intro _ hw
  obtain ⟨hx0, hx1, hy0, hy1⟩ := (inRect_iff _ x y).mp (by simpa using hw)
  exact keepsLabels_setLcp s _ (fun ⟨_, _, h447, _, _, h255⟩ => ⟨hx0, hx1, h447, hy0, hy1, h255⟩) rfl

theorem okKeepsLabels_tplOp (o : Nat) (m p : Byte) (s : State) : OkKeepsLabels s (tplOp o m p s) := by
  simp only [tplOp, okKeepsLabels_refuseHeld]
  intro _
  split
  · simp
  · exact (okKeepsLabels_taken _ _ _).mpr (keepsLabels_setLcp s _ id rfl)

theorem okKeepsLabels_tplHold (s : State) : OkKeepsLabels s (tplHold s) := by
  unfold tplHold
  split <;> rw [okKeepsLabels_taken]
  · exact .refl s
  · exact (keepsLabels_attempt _).after ⟨id, fun _ _ => rfl⟩

/-- The hold ends with no label slot RENDERING only (R152). -/
theorem okKeepsLabels_tplRelease (s : State) : OkKeepsLabels s (tplRelease s) := by
  simp only [tplRelease, okKeepsLabels_refuseIf, okKeepsLabels_taken]
  intro h
  exact ⟨id, fun _ hr => absurd ((anyRendering_iff s).mpr hr) (by simp [h])⟩

theorem okKeepsLabels_glyphWrite (set first count : Nat) (data : List Byte) (s : State) :
    OkKeepsLabels s (glyphWrite set first count data s) := by
  simp only [glyphWrite, okKeepsLabels_refuseHeld, okKeepsLabels_refuseIf, okKeepsLabels_taken]
  intro _ _ _
  unfold writeGlyphs
  dsimp only
  split <;> exact keepsLabels_setLcp s _ id rfl

theorem okKeepsLabels_manifestTake (n : Nat) (s : State) : OkKeepsLabels s (manifestTake n s) := by
  unfold manifestTake
  split
  · simp
  · simp only [okKeepsLabels_refuseIf, okKeepsLabels_taken]
    exact fun _ => (keepsLabels_attempt _).after_same ⟨rfl, rfl⟩

theorem okKeepsLabels_printRetry (s : State) : OkKeepsLabels s (printRetry s) := by
  unfold printRetry
  split
  · simp
  · exact (okKeepsLabels_taken _ _ _).mpr (keepsLabels_retrySlot _ s)

theorem okKeepsLabels_printDrop (s : State) : OkKeepsLabels s (printDrop s) := by
  unfold printDrop
  split
  · simp
  · exact (okKeepsLabels_taken _ _ _).mpr (keepsLabels_dropSlot _ s)

theorem okKeepsLabels_lineStart (s : State) : OkKeepsLabels s (lineStart s) := by
  simp only [lineStart, okKeepsLabels_refuseHalted, okKeepsLabels_refuseIf]
  intro _ _
  split <;> simp [levelsFollow]

theorem okKeepsLabels_lineStop (s : State) : OkKeepsLabels s (lineStop s) := by
  simp only [lineStop, okKeepsLabels_refuseHalted, okKeepsLabels_taken]
  intro _
  split <;> simp

theorem okKeepsLabels_stripRead (n : Nat) (s : State) : OkKeepsLabels s (stripRead n s) := by
  unfold stripRead
  split <;> simp

theorem okKeepsLabels_orderClose (k : Nat) (s : State) : OkKeepsLabels s (orderClose k s) := by
  simp only [orderClose, okKeepsLabels_refuseHalted, okKeepsLabels_refuseIf]
  intro _ _ _
  split <;> simp

theorem okKeepsLabels_manifestRead (n : Nat) (s : State) : OkKeepsLabels s (manifestRead n s) := by
  unfold manifestRead
  split
  · simp
  · split <;> simp

/-- Every owner's answer keeps the conditions. -/
theorem okKeepsLabels_ownerAnswer (i : Instr) (s : State) : OkKeepsLabels s (ownerAnswer i s) := by
  cases i with
  | tplWindow _ w => exact okKeepsLabels_tplWindow w s
  | tplAddr _ x y => exact okKeepsLabels_tplAddr x y s
  | tplOp _ o m p => exact okKeepsLabels_tplOp o m p s
  | tplWrite _ d => simp [ownerAnswer, tplWrite, keepsLabels_applyBytes]
  | tplFill _ n d => simp [ownerAnswer, tplFill, fill_eq_applyBytes, keepsLabels_applyBytes]
  | tplRead _ n => simp [ownerAnswer, tplRead, keepsLabels_moved]
  | tplHold _ => exact okKeepsLabels_tplHold s
  | tplRelease _ => exact okKeepsLabels_tplRelease s
  | glyphWrite _ st f n d => exact okKeepsLabels_glyphWrite st f n d s
  | tplClear _ =>
    simp only [ownerAnswer, tplClear, okKeepsLabels_refuseHeld, okKeepsLabels_taken]
    exact fun _ => keepsLabels_setLcp s _ id rfl
  | protectSet _ a u r =>
    simp only [ownerAnswer, protectSet, okKeepsLabels_refuseHeld, okKeepsLabels_refuseIf, okKeepsLabels_taken]
    exact fun _ _ => keepsLabels_setLcp s _ id rfl
  | fieldSet _ n u f =>
    simp only [ownerAnswer, fieldSet, okKeepsLabels_refuseHeld, okKeepsLabels_refuseIf, okKeepsLabels_taken]
    exact fun _ _ => keepsLabels_setLcp s _ id rfl
  | printSet _ p =>
    simp only [ownerAnswer, printSet, okKeepsLabels_refuseIf, okKeepsLabels_taken]
    exact fun _ => keepsLabels_slots (by rfl)
  | printRetry _ => exact okKeepsLabels_printRetry s
  | printDrop _ => exact okKeepsLabels_printDrop s
  | lineStart _ => exact okKeepsLabels_lineStart s
  | lineStop _ => exact okKeepsLabels_lineStop s
  | lineResume _ => simp [ownerAnswer, lineResume, keepsLabels_resume]
  | lineClear _ => simp [ownerAnswer, lineClear, keepsLabels_clearAll]
  | profileChange _ n => simp [ownerAnswer, profileChange, keepsLabels_changeTaken]
  | binClose _ n => simp [ownerAnswer, binClose, keepsLabels_closeRequest]
  | binDisable _ n => simp [ownerAnswer, binDisable, keepsLabels_disableTaken]
  | manifestTake _ n => exact okKeepsLabels_manifestTake n s
  | stripRead _ n => exact okKeepsLabels_stripRead n s
  | orderClose _ k => exact okKeepsLabels_orderClose k s
  | manifestRead _ n => exact okKeepsLabels_manifestRead n s
  | _ =>
    simp [ownerAnswer, lineGeometry, measureSet, gaugeTable, gaugeVerify, gaugeCancelRequest, gaugeRelease, gradeSet,
      weightSet, classSet, valueSet, planOptions, orderLoad, orderAmend, orderRead, paceSet, profileSet, profileAbort,
      trimSet, headsSet, sortSet, binSet, binRead, cartMask, setDate, noticePoll, noticeMask]

/-! ## Every step -/

/-- A byte, a frame or a reply keeps the conditions. -/
theorem Linked.keepsLabels {s t : State} (h : Linked s t) : KeepsLabels s t := by
  cases h with
  | links v => exact .of_same ⟨rfl, rfl⟩
  | owner v w i u d h =>
    have hlinks : KeepsLabels u (u.setLif w) := .of_same ⟨rfl, rfl⟩
    exact hlinks.after ((okKeepsLabels_ownerAnswer i _ _ _ h).after_same ⟨rfl, rfl⟩)
  | reset v => exact (keepsLabels_resetAll _).after_same ⟨rfl, rfl⟩
  | scan v p => exact .of_same (by simp)

/-- Every command that is no request. -/
theorem keepsLabels_event {i : Instr} {s t : State} (h : Wire.writeRequest i = none) (ht : exec i s = .next t) :
    KeepsLabels s t := by
  cases i with
  | powerOnReset stn rate => cases ht; exact (keepsLabels_resetAll _).after_same ⟨rfl, rfl⟩
  | framerByte k b => cases ht; exact (linked_framerByte k b s).keepsLabels
  | gapTimerExpiry k => cases ht; exact (linked_gapExpiry k s).keepsLabels
  | broadcastFrame k p => cases ht; exact (linked_broadcastFrame k p s).keepsLabels
  | replyBegins => cases ht; exact (linked_replyBegins s).keepsLabels
  | replySent => cases ht; exact (linked_replySent s).keepsLabels
  | announceSent => cases ht; exact (linked_announceSent s).keepsLabels
  | measureLeadingEdge => cases ht; exact keepsLabels_trimEdge .measure true s
  | measureTrailingEdge => cases ht; exact keepsLabels_trimEdge .measure false s
  | scanLeadingEdge => cases ht; exact keepsLabels_trimEdge .scan true s
  | scanTrailingEdge => cases ht; exact keepsLabels_trimEdge .scan false s
  | sawLeadingEdge => cases ht; exact keepsLabels_trimEdge .saw true s
  | sawTrailingEdge => cases ht; exact keepsLabels_trimEdge .saw false s
  | windowExpiry e t => cases ht; exact keepsLabels_windowExpiry e t s
  | cutDue t => cases ht; exact keepsLabels_cutDue t s
  | dropLeadingEdge => cases ht; exact keepsLabels_dropEdge true s
  | dropTrailingEdge => cases ht; exact keepsLabels_dropEdge false s
  | dropWindowExpiry t k => cases ht; exact keepsLabels_dropExpiry t k s
  | diverterFire t k => cases ht; exact keepsLabels_diverterFire t k s
  | renderCompletion => cases ht; exact keepsLabels_renderCompletion s
  | printReadyRise => cases ht; exact keepsLabels_printReadyRise s
  | printFaultAssert => cases ht; exact keepsLabels_printFaultAssert s
  | printFaultRelease => cases ht; exact keepsLabels_printFaultRelease s
  | printTimerExpiry => cases ht; exact keepsLabels_printTimerExpiry s
  | rowRequest => cases ht; exact keepsLabels_rowRequest s
  | rowTransferEnd => cases ht; exact keepsLabels_rowTransferEnd s
  | strobeEnd => cases ht; exact keepsLabels_slots (by rfl)
  | donePulseEnd => cases ht; exact keepsLabels_donePulseEnd s
  | scanRecord | estopAssert | estopRelease | encoderPulse | deadline | planCompletion | barEnd | slotEvent
  | feedReadyEdge | feedPulseEnd | toolingReadyRise | toolingReadyFall | toolingTimerExpiry | sawPulseEnd
  | spinupExpiry | hysteresisExpiry | residencyExpiry | diverterPulseEnd | cart | dischargePulseEnd | printReadyFall
  | rowRequestFall =>
    cases ht
    exact .of_same (by simp)
  | _ => cases h

/-- Every command keeps the conditions. -/
theorem keepsLabels_exec {i : Instr} {s t : State} (ht : exec i s = .next t) : KeepsLabels s t := by
  cases hw : Wire.writeRequest i with
  | none => exact keepsLabels_event hw ht
  | some w =>
    obtain ⟨u, hu, hl⟩ := linked_exec_request (s := s) hw
    cases hu.symm.trans ht
    exact hl.keepsLabels

/-- Every step keeps the conditions: 1 ms, and a command taken from the queue. -/
theorem keepsLabels_step {s t : State} (h : step s = .next t) : KeepsLabels s t := by
  cases hq : s.pending with
  | nil =>
    rw [step_tick s hq] at h
    cases h
    exact keepsLabels_tick s
  | cons c rest =>
    have he : step s = exec c (s.setPending rest) := by simp [step, hq]
    exact (keepsLabels_exec (s := s.setPending rest) (he ▸ h)).after_same ⟨rfl, rfl⟩

/-- Settles O8, as the two parts of what every step keeps. -/
theorem labelsStaySound : Obligations.LabelsStaySound :=
  ⟨fun _ _ hs h => (keepsLabels_step h).counter hs, fun _ _ hs h => (keepsLabels_step h).held hs⟩

end Sys2Proof.Machine
end

section
/-! PROOFS. What the fields of a label draw: code strips, targets, texts and decimal numbers (O53). -/

namespace Sys2Proof.Machine

open Sys2Proof

/-! ## Code strips (R159) -/

/-- The bars between the start and the stop bar are those of the 48 bits, from the most significant. -/
theorem stripBars_eq (number : Nat) (check : BitVec 16) : stripBars number check =
    [3] ++ ((List.range 48).map fun k => if (BitVec.ofNat 32 number ++ check).getMsbD k then 3 else 1) ++ [3] := by
  have hnumber : ∀ k ∈ List.range 32,
      (if (BitVec.ofNat 32 number ++ check).getMsbD k then 3 else 1)
        = if (BitVec.ofNat 32 number).getMsbD k then 3 else 1 := fun k hk => by
    rw [BitVec.getMsbD_append, if_neg (Nat.not_le.mpr (List.mem_range.mp hk))]
  have hcheck : ∀ k ∈ List.range 16,
      (if (BitVec.ofNat 32 number ++ check).getMsbD (32 + k) then 3 else 1)
        = if check.getMsbD k then 3 else 1 := fun k _ => by
    rw [BitVec.getMsbD_append, if_pos (Nat.le_add_right 32 k), Nat.add_sub_cancel_left]
  rw [stripBars, show (48 : Nat) = 32 + 16 from rfl, List.range_add, List.map_append, List.map_map,
    List.map_congr_left hnumber, ← List.append_assoc]
  exact congrArg (_ ++ · ++ [3]) (List.map_congr_left hcheck).symm

/-- The widths of the bars of some bits, each with its space of 2. -/
theorem sum_barWidths (p : Nat → Bool) (l : List Nat) :
    ((l.map fun k => if p k then 3 else 1).map (· + 2)).sum = 3 * l.length + 2 * l.countP p := by
  induction l with
  | nil => rfl
  | cons k l ih =>
    simp only [List.map_cons, List.sum_cons, List.length_cons, List.countP_cons, ih]
    cases p k <;> simp <;> omega

/-- As many bits are set counted from either end. -/
theorem countP_getMsbD {w : Nat} (b : BitVec w) :
    (List.range w).countP b.getMsbD = (List.range w).countP b.getLsbD := by
  rw [← List.countP_reverse, List.range_eq_range', List.reverse_range', List.countP_map, ← List.range_eq_range']
  refine List.countP_congr fun k hk => ?_
  have hk := List.mem_range.mp hk
  rw [Function.comp_apply, BitVec.getMsbD_eq_getLsbD, decide_eq_true (show 0 + w - 1 - k < w by omega), Bool.true_and,
    show w - 1 - (0 + w - 1 - k) = k by omega]

theorem stripWidth_eq (number : Nat) (check : BitVec 16) : stripWidth number check
    = 152 + 2 * (List.range 48).countP (BitVec.ofNat 32 number ++ check).getLsbD := by
  have hsum := sum_barWidths (BitVec.ofNat 32 number ++ check).getMsbD (List.range 48)
  rw [countP_getMsbD, List.length_range] at hsum
  rw [stripWidth, stripBars_eq, List.map_append, List.map_append, List.sum_append, List.sum_append, hsum]
  simp
  omega

/-! ## Targets (R153, R156, R159) -/

theorem mem_stripTargets (f : Field) (number : Nat) (check : BitVec 16) (ink : Bool) (x : Int) (y : Nat) :
    ⟨x, y, ink⟩ ∈ stripTargets f number check ↔ ink = true ∧ stripCovers f number check x y := by
  have hleft : (if f.align = 0 then (f.x : Int) else f.x - (stripWidth number check * f.moduleWidth : Nat) + 1)
      = leftColumn f (stripWidth number check * f.moduleWidth) := rfl
  simp only [stripTargets, hleft, List.mem_flatMap, List.mem_map, List.mem_range, Prod.exists, placeBars_mem,
    Target.mk.injEq]
  constructor
  · rintro ⟨a, b, ⟨k, hk, rfl⟩, dy, hdy, dx, hdx, rfl, rfl, rfl⟩
    refine ⟨rfl, k, b, dx, dy, hk, hdx, hdy, ?_, rfl⟩
    push_cast
    ring
  · rintro ⟨rfl, k, b, dx, dy, hk, hdx, hdy, rfl, rfl⟩
    refine ⟨_, b, ⟨k, hk, rfl⟩, dy, hdy, dx, hdx, ?_, rfl, rfl⟩
    push_cast
    ring

/-- A target belongs to an inked glyph pixel exactly when the glyph tables have ink there. -/
theorem inked_eq_iff (l : Lcp) (set : Nat) (c : Byte) (column row : Nat) (ink : Bool) :
    glyphPixel l set c column row = ink ↔ (ink = true ↔ l.inked set c column row) := by
  rw [inked_iff, ← Bool.eq_iff_iff, eq_comm]

theorem mem_cellTargets (l : Lcp) (set scale : Nat) (c : Byte) (x0 : Int) (y0 : Nat) (ink : Bool) (x : Int) (y : Nat) :
    ⟨x, y, ink⟩ ∈ cellTargets l set scale c x0 y0 ↔ ∃ row < glyphRows set, ∃ column < glyphColumns set,
      ∃ dy < scale, ∃ dx < scale, x0 + ((scale * column + dx : Nat) : Int) = x ∧ y0 + scale * row + dy = y
        ∧ (ink = true ↔ l.inked set c column row) := by
  simp only [cellTargets, List.mem_flatMap, List.mem_map, List.mem_range, Target.mk.injEq, inked_eq_iff]

theorem mem_textTargets (l : Lcp) (f : Field) (t : Text) (ink : Bool) (x : Int) (y : Nat) :
    ⟨x, y, ink⟩ ∈ textTargets l f t ↔ textCovers f l t ink x y := by
  have hleft (n : Nat) : (if f.align = 0 then (f.x : Int) else f.x - (n : Nat) + 1) = leftColumn f n := rfl
  have hsize : (f.glyphSet = 0 → glyphColumns f.glyphSet = 8 ∧ glyphRows f.glyphSet = 12)
      ∧ (f.glyphSet ≠ 0 → glyphColumns f.glyphSet = 16 ∧ glyphRows f.glyphSet = 24) :=
    ⟨fun h => ⟨if_pos h, if_pos h⟩, fun h => ⟨if_neg h, if_neg h⟩⟩
  simp only [textTargets, hleft, List.mem_flatMap, Prod.exists, List.mem_zipIdx_iff_getElem?, mem_cellTargets]
  constructor
  · rintro ⟨c, i, hc, row, hrow, column, hcolumn, dy, hdy, dx, hdx, rfl, rfl, hink⟩
    refine ⟨_, _, _, hsize.1, hsize.2, rfl, i, column, row, dx, dy, c, hc, hcolumn, hrow, hdx, hdy, hink, ?_, rfl⟩
    push_cast
    ring
  · rintro ⟨wide, high, cell, h0, h1, rfl, i, column, row, dx, dy, c, hc, hcolumn, hrow, hdx, hdy, hink, rfl, rfl⟩
    obtain ⟨rfl, rfl⟩ : wide = glyphColumns f.glyphSet ∧ high = glyphRows f.glyphSet := by
      by_cases hset : f.glyphSet = 0
      · rw [(hsize.1 hset).1, (hsize.1 hset).2]
        exact h0 hset
      · rw [(hsize.2 hset).1, (hsize.2 hset).2]
        exact h1 hset
    refine ⟨c, i, hc, row, hrow, column, hcolumn, dy, hdy, dx, hdx, ?_, rfl, hink⟩
    push_cast
    ring

theorem mem_fieldTargets (l : Lcp) (m : Manifest) (r : RenderRecord) (f : Field) (ink : Bool) (x : Int) (y : Nat) :
    ⟨x, y, ink⟩ ∈ fieldTargets l m r f ↔ fieldCovers f l m r ink x y := by
  unfold fieldTargets fieldCovers codeStripKind
  by_cases h : f.kind = 12
  · simp [h, mem_stripTargets]
  · simp [h, mem_textTargets]

/-! ## Decimal numbers (R157) -/

/-- A text is a number in decimal without leading zeros. -/
def ReadsDecimal (t : Text) (n : Nat) : Prop :=
  (∀ b ∈ t, 0x30 ≤ b.toNat ∧ b.toNat ≤ 0x39) ∧ t.foldl (fun v b => 10 * v + (b.toNat - 0x30)) 0 = n
    ∧ t ≠ [] ∧ (t.head? = some 0x30#8 → t = [0x30#8])

theorem toNat_digit (n : Nat) : (BitVec.ofNat 8 (0x30 + n % 10)).toNat = 0x30 + n % 10 := by
  rw [BitVec.toNat_ofNat]
  omega

theorem digitsInto_append (fuel n : Nat) (acc : Text) : digitsInto fuel n acc = digitsInto fuel n [] ++ acc := by
  induction fuel generalizing n acc with
  | zero => rfl
  | succ fuel ih =>
    unfold digitsInto
    dsimp only
    split
    · rfl
    · rw [ih, ih _ [_], List.append_assoc]
      rfl

theorem digitsInto_one {n : Nat} (fuel : Nat) (h : n < 10) :
    digitsInto (fuel + 1) n [] = [BitVec.ofNat 8 (0x30 + n % 10)] := by rw [digitsInto, if_pos h]

theorem digitsInto_more {n : Nat} (fuel : Nat) (h : 10 ≤ n) :
    digitsInto (fuel + 1) n [] = digitsInto fuel (n / 10) [] ++ [BitVec.ofNat 8 (0x30 + n % 10)] := by
  rw [digitsInto, if_neg (Nat.not_lt.mpr h), digitsInto_append]

theorem readsDecimal_digit {n : Nat} (h : n < 10) : ReadsDecimal [BitVec.ofNat 8 (0x30 + n % 10)] n := by
  have hd := toNat_digit n
  refine ⟨fun b hb => ?_, ?_, by simp, fun h0 => by simpa using h0⟩
  · obtain rfl := List.mem_singleton.mp hb
    omega
  · rw [List.foldl_cons, List.foldl_nil, hd]
    omega

/-- One more digit behind a number that is not 0. -/
theorem ReadsDecimal.append {t : Text} {n : Nat} (h : ReadsDecimal t (n / 10)) (hn : 10 ≤ n) :
    ReadsDecimal (t ++ [BitVec.ofNat 8 (0x30 + n % 10)]) n := by
  obtain ⟨hdigits, hvalue, hne, hlead⟩ := h
  have hd := toNat_digit n
  refine ⟨fun b hb => ?_, ?_, by simp, fun h0 => ?_⟩
  · rcases List.mem_append.mp hb with hb | hb
    · exact hdigits b hb
    · obtain rfl := List.mem_singleton.mp hb
      omega
  · rw [List.foldl_append, hvalue, List.foldl_cons, List.foldl_nil, hd]
    omega
  · rw [List.head?_append_of_ne_nil _ hne] at h0
    rw [hlead h0] at hvalue
    have hzero : n / 10 = 0 := hvalue.symm
    omega

theorem readsDecimal_digitsInto {n : Nat} (fuel : Nat) (h : n < 10 ^ (fuel + 1)) :
    ReadsDecimal (digitsInto (fuel + 1) n []) n := by
  induction fuel generalizing n with
  | zero =>
    rw [digitsInto_one 0 (by simpa using h)]
    exact readsDecimal_digit (by simpa using h)
  | succ fuel ih =>
    by_cases hn : n < 10
    · rw [digitsInto_one _ hn]
      exact readsDecimal_digit hn
    · rw [digitsInto_more _ (Nat.not_lt.mp hn)]
      exact (ih (Nat.div_lt_of_lt_mul (by rwa [← Nat.pow_succ']))).append (Nat.not_lt.mp hn)

theorem decimal_digit {n : Nat} (h : n < 10) : decimal n = [BitVec.ofNat 8 (0x30 + n)] := by
  rw [decimal, digitsInto_one _ h, Nat.mod_eq_of_lt h]

/-! ## Texts (R157) -/

theorem slashed_eq (ts : List Text) : slashed ts = (ts.intersperse (ascii ['/'])).flatten := by
  induction ts with
  | nil => rfl
  | cons t ts ih =>
    cases ts with
    | nil => exact (List.append_nil t).symm
    | cons u us =>
      change t ++ ascii ['/'] ++ slashed (u :: us) = _
      rw [ih, List.intersperse_cons_cons, List.flatten_cons, List.flatten_cons, List.append_assoc]

/-- A length in metres: the whole metres, then the three digits of the rest. -/
theorem metres_eq (mm : Nat) : metres mm = decimal (mm / 1000) ++ ascii ['.'] ++ decimal (mm % 1000 / 100)
    ++ decimal (mm % 1000 / 10 % 10) ++ decimal (mm % 1000 % 10) := by
  rw [decimal_digit (n := mm % 1000 / 100) (by omega), decimal_digit (n := mm % 1000 / 10 % 10) (by omega),
    decimal_digit (n := mm % 1000 % 10) (by omega)]
  simp [metres]

theorem hexDigit_eq {n : Nat} (h : n < 16) : some (hexDigit n)
    = (ascii ['0', '1', '2', '3', '4', '5', '6', '7', '8', '9', 'A', 'B', 'C', 'D', 'E', 'F'])[n]? := by
  interval_cases n <;> rfl

theorem hex4_eq (c : BitVec 16) : hex4 c = (List.range 4).map fun d => hexDigit (c.toNat / 16 ^ (3 - d) % 16) := by
  have hlt : c.toNat / 4096 < 16 := by have := c.isLt; omega
  simp [hex4, List.range_succ, Nat.mod_eq_of_lt hlt]

theorem hex4_getElem? (c : BitVec 16) {d : Nat} (hd : d < 4) : (hex4 c)[d]?
    = (ascii ['0', '1', '2', '3', '4', '5', '6', '7', '8', '9', 'A', 'B', 'C', 'D', 'E', 'F'])[
        c.toNat / 16 ^ (3 - d) % 16]? := by
  rw [hex4_eq, List.getElem?_map, List.getElem?_range hd, Option.map_some, hexDigit_eq (Nat.mod_lt _ (by decide))]

theorem orderRefText_eq {y : Tally} {ys : List Tally} {key : Text} (hr : ∀ ref, y.key = .order ref → key = ref)
    (hs : y.key = .stock → key = ascii ['S', 'T', 'O', 'C', 'K']) :
    orderRefText (y :: ys) = if ys = [] then key else key ++ ascii ['+'] ++ decimal ys.length := by
  have hkey : y.key.text = key := by
    cases hy : y.key with
    | order ref => exact (hr ref hy).symm
    | stock => exact (hs hy).symm
  cases ys with
  | nil => exact hkey
  | cons z zs =>
    rw [if_neg (List.cons_ne_nil z zs), ← hkey]
    rfl

/-! ## The obligation -/

/-- What the targets of one field draw (R155, R156). -/
theorem drawTargets_spec {areas : Vector (Option Rect) 4} {ink : Bool} {ts : List Target} {i j : Image} {clipped : Bool}
    (h : drawTargets areas ink ts i = (j, clipped)) : (clipped = true ↔ ∃ p ∈ ts, p.x < 0 ∨ 447 < p.x ∨ 255 < p.y)
      ∧ ∀ x y : Nat, x < 448 → y < 256 →
        (⟨x, y, true⟩ ∈ ts → ¬ isProtected areas x y = true → Image.pixel j x y = ink)
        ∧ ((⟨x, y, true⟩ ∉ ts ∨ isProtected areas x y = true) → Image.pixel j x y = Image.pixel i x y) := by
  have hfold : ts.foldl (drawTarget areas ink) (i, false) = (j, clipped) := h
  obtain ⟨hclip, hpixel⟩ := drawTarget_fold areas ink ts (i, false)
  rw [hfold] at hclip hpixel
  refine ⟨by simpa using hclip, fun x y hx hy => ?_⟩
  obtain ⟨hink, hother⟩ := hpixel x y hx hy
  exact ⟨fun hm hn => hink hm (by simpa using hn), hother⟩

/-- Settles O53: the drawing, the strip, the targets, the texts by kind, and the decimal numbers. -/
theorem fieldsAndCodeStrips : Obligations.FieldsAndCodeStrips := by
  refine ⟨fun areas ink ts i j clipped h => ?_, fun number check ones bits _ hbits hones => ?_, mem_fieldTargets,
    fun m r => ?_, fun n hn => readsDecimal_digitsInto 19 hn⟩
  · obtain ⟨hclip, hpixel⟩ := drawTargets_spec h
    refine ⟨hclip, fun x y hx hy guarded hg => ?_⟩
    rw [← isProtected_iff] at hg
    rw [hg]
    exact hpixel x y hx hy
  · have hwidth : stripWidth number check = 152 + 2 * ones := by rw [stripWidth_eq, hones, hbits]
    have hmost : ones ≤ 48 := by
      rw [hones]
      exact List.countP_le_length.trans_eq List.length_range
    rw [hwidth, stripBars_eq, ← hbits]
    refine ⟨by simp, by simp, by simp, fun k hk => by simp [List.getElem?_append, hk], by omega, by omega, by omega⟩
  · refine ⟨rfl, rfl, slashed_eq _, rfl, ⟨m.lineal % 1000 / 100, m.lineal % 1000 / 10 % 10, m.lineal % 1000 % 10,
      by omega, by omega, by omega, by omega, metres_eq m.lineal⟩, ?_, fun h => ?_, fun y ys key h hr hs => ?_, rfl,
      rfl, rfl, fun h => ?_, fun h => ?_, fun h => ?_, rfl, fun d hd => hex4_getElem? m.check hd⟩
    · by_cases hl : m.lineal = 0
      · rw [if_pos hl, fieldText, hl, Nat.div_zero]
        rfl
      · rw [if_neg hl, fieldText]
    · rw [fieldText, h, orderRefText]
    · rw [fieldText, h]
      exact orderRefText_eq hr hs
    all_goals
      rw [fieldText, h]
      rfl

end Sys2Proof.Machine
end

section
/-! PROOFS. The completion of a rendering and the image it leaves (O52). -/

namespace Sys2Proof.Machine

open Sys2Proof

/-! ## The label drawn (R155, R156, R158) -/

theorem tabGet_some_iff {α : Type} {n k : Nat} {v : Vector α n} {x : α} :
    tabGet v k = some x ↔ ∃ i, k = i + 1 ∧ v.toList[i]? = some x := by
  cases k with
  | zero => simp [tabGet]
  | succ i => simp [tabGet]

/-- With no used entry the label is the template (R158). -/
theorem renderLabel_unused {l : Lcp} (m : Manifest) (r : RenderRecord) (h : ∀ f ∈ l.fields.toList, f = none) :
    renderLabel l m r = (l.template, []) := by
  have hfold (es : List (Option Field × Nat)) (a : Image × List Nat) (he : ∀ e ∈ es, e.1 = none) :
      es.foldl (drawField l m r) a = a := by
    induction es with
    | nil => rfl
    | cons e es ih =>
      obtain ⟨h1, hes⟩ := List.forall_mem_cons.mp he
      have hskip : drawField l m r a e = a := by rw [drawField, h1]
      rw [List.foldl_cons, hskip, ih hes]
  exact hfold _ _ fun e he => h e.1 (List.fst_mem_of_mem_zipIdx he)

/-- The clipped-field list holds the used entries with a target past the label edge (R156). -/
theorem mem_clipped (l : Lcp) (m : Manifest) (r : RenderRecord) (n : Nat) : n ∈ (renderLabel l m r).2 ↔
    ∃ f ink x y, tabGet l.fields n = some (some f) ∧ fieldCovers f l m r ink x y ∧ pastEdge x y := by
  obtain ⟨hlist, -⟩ := drawField_fold l m r l.fields.toList 0 (l.template, [])
  rw [renderLabel, hlist, List.nil_append, List.mem_filterMap]
  constructor
  · rintro ⟨⟨o, i⟩, hmem, hn⟩
    obtain ⟨f, rfl, hf⟩ := Option.bind_eq_some_iff.mp hn
    split at hf
    · next hpast =>
      obtain ⟨⟨x, y, ink⟩, ht, hedge⟩ := hpast
      exact ⟨f, ink, x, y, tabGet_some_iff.mpr ⟨i, (Option.some_inj.mp hf).symm, List.mem_zipIdx_iff_getElem?.mp hmem⟩,
        (mem_fieldTargets l m r f ink x y).mp ht, hedge⟩
    · cases hf
  · rintro ⟨f, ink, x, y, hn, hcovers, hedge⟩
    obtain ⟨i, rfl, hi⟩ := tabGet_some_iff.mp hn
    refine ⟨(some f, i), List.mem_zipIdx_iff_getElem?.mpr hi, ?_⟩
    exact if_pos ⟨_, (mem_fieldTargets l m r f ink x y).mpr hcovers, hedge⟩

/-- The clipped-field list is in ascending order (R156). -/
theorem clipped_ascending (l : Lcp) (m : Manifest) (r : RenderRecord) : (renderLabel l m r).2.Pairwise (· < ·) := by
  obtain ⟨hlist, -⟩ := drawField_fold l m r l.fields.toList 0 (l.template, [])
  have hnumbers : l.fields.toList.zipIdx.Pairwise (fun e e' => e.2 < e'.2) := by
    rw [← List.pairwise_map (f := Prod.snd) (R := (· < ·)), List.zipIdx_map_snd]
    exact List.pairwise_lt_range'
  rw [renderLabel, hlist, List.nil_append, List.pairwise_filterMap]
  refine hnumbers.imp fun {e e'} hlt n hn n' hn' => ?_
  obtain ⟨f, -, hf⟩ := Option.bind_eq_some_iff.mp hn
  obtain ⟨f', -, hf'⟩ := Option.bind_eq_some_iff.mp hn'
  split at hf
  · split at hf'
    · obtain rfl := Option.some_inj.mp hf
      obtain rfl := Option.some_inj.mp hf'
      exact Nat.succ_lt_succ hlt
    · cases hf'
  · cases hf

/-- Below the label no pixel has a value. -/
theorem pixel_below (i : Image) {x y : Nat} (hy : 255 < y) : Image.pixel i x y = false :=
  BitVec.getLsbD_of_ge _ _ (by unfold pixelBit; omega)

/-- A protected pixel keeps the template's value (R155). -/
theorem pixel_renderLabel_protected {l : Lcp} (m : Manifest) (r : RenderRecord) {x y : Nat} (hx : x ≤ 447)
    (h : isProtected l.protect x y = true) : Image.pixel (renderLabel l m r).1 x y = Image.pixel l.template x y := by
  obtain ⟨-, hpixel⟩ := drawField_fold l m r l.fields.toList 0 (l.template, [])
  by_cases hy : 255 < y
  · rw [pixel_below _ hy, pixel_below _ hy]
  · exact (hpixel x y (Nat.lt_succ_of_le hx) (by omega)).2 h

/-- An unprotected pixel takes the ink of the highest entry that has it as an inked target (R156, R158). -/
theorem pixel_renderLabel_inked {l : Lcp} {m : Manifest} {r : RenderRecord} {x y n : Nat} {f : Field} (hx : x < 448)
    (hy : y < 256) (h : ¬ isProtected l.protect x y = true) (hn : tabGet l.fields n = some (some f))
    (hf : fieldCovers f l m r true x y)
    (hlast : ∀ n' f', n < n' → tabGet l.fields n' = some (some f') → ¬ fieldCovers f' l m r true x y) :
    Image.pixel (renderLabel l m r).1 x y = decide (f.ink = 0) := by
  obtain ⟨-, hpixel⟩ := drawField_fold l m r l.fields.toList 0 (l.template, [])
  obtain ⟨hinked, -⟩ := (hpixel x y hx hy).1 (by simpa using h)
  obtain ⟨k, rfl, hk⟩ := tabGet_some_iff.mp hn
  refine hinked k f hk ((mem_fieldTargets ..).mpr hf) fun k' f' hlt hk' ht => ?_
  exact hlast (k' + 1) f' (Nat.succ_lt_succ hlt) (tabGet_some_iff.mpr ⟨k', rfl, hk'⟩) ((mem_fieldTargets ..).mp ht)

/-- A pixel that no entry has as an inked target keeps the template's value (R158). -/
theorem pixel_renderLabel_bare {l : Lcp} {m : Manifest} {r : RenderRecord} {x y : Nat} (hx : x < 448) (hy : y < 256)
    (h : ¬ isProtected l.protect x y = true)
    (hnone : ∀ n f, tabGet l.fields n = some (some f) → ¬ fieldCovers f l m r true x y) :
    Image.pixel (renderLabel l m r).1 x y = Image.pixel l.template x y := by
  obtain ⟨-, hpixel⟩ := drawField_fold l m r l.fields.toList 0 (l.template, [])
  obtain ⟨-, hbare⟩ := (hpixel x y hx hy).1 (by simpa using h)
  exact hbare fun k f hk ht => hnone (k + 1) f (tabGet_some_iff.mpr ⟨k, rfl, hk⟩) ((mem_fieldTargets ..).mp ht)

/-! ## The completion (R158, R163) -/

theorem takeUp_idle {l : Lcp} (h : l.engine = none) :
    l.takeUp = { l with engine := l.renderOrder.head?.map (·.slot) } := by
  unfold Lcp.takeUp
  cases ho : l.renderOrder with
  | nil => cases l; cases h; cases ho; rfl
  | cons r rest => simp [h]

/-- The composer after the rendering of the slot at the front of the render order. -/
theorem finish_eq {l : Lcp} {k : Nat} {r : RenderRecord} {rest : List RenderRecord} (clipped : List Nat)
    (ho : l.renderOrder = r :: rest) (hr : r.slot = k) (hrest : ∀ q ∈ rest, q.slot ≠ k) :
    l.finish k clipped = { l with
      renderOrder := rest, engine := rest.head?.map (·.slot), rendered := min (l.rendered + 1) 65535
      clippedFields := min (l.clippedFields + clipped.length) 65535 } := by
  have hleft : (r :: rest).filter (fun q => q.slot != k) = rest := by
    rw [List.filter_cons_of_neg (by simp [hr])]
    exact List.filter_eq_self.mpr fun q hq => by simpa using hrest q hq
  rw [Lcp.finish, takeUp_idle rfl, ho, hleft]
  rfl

/-- The state that a completed rendering leaves to the start test. -/
def State.renderDone (s : State) (k number : Nat) (label : Image × List Nat) : State := { s with
  bdb := { s.bdb with manifests := s.bdb.manifests.map (fun m =>
    if m.number = number then { m with clipped := label.2 } else m) }
  lcp := s.lcp.finish k label.2
  prq := { s.prq with
    slots := tabMod s.prq.slots k (fun x => { x with state := .queued, image := label.1 })
    order := s.prq.order ++ [k] } }

theorem renderCompletion_eq {s : State} {k : Nat} {r : RenderRecord} {rest : List RenderRecord} {m : Manifest}
    (he : s.lcp.engine = some k) (ho : s.lcp.renderOrder = r :: rest) (hr : r.slot = k)
    (hm : s.bdb.manifests.find? (fun m => m.number == r.bundle) = some m) :
    renderCompletion s = startTest (s.renderDone k r.bundle (renderLabel s.lcp m r)) := by
  have hfind : s.lcp.renderOrder.find? (fun q => q.slot == k) = some r := by
    rw [ho, List.find?_cons_of_pos (by simp [hr])]
  have hcompletion : renderCompletion s = finishRender k r.bundle (renderLabel s.lcp m r) s := by
    simp only [renderCompletion, he, hfind, manifestOf, hm]
  rw [hcompletion, finishRender, modManifest_eq]
  rfl

/-- Settles O52: the state completed, then the label drawn. -/
theorem renderingQueuesTheLabel : Obligations.RenderingQueuesTheLabel := by
  refine fun s => ⟨fun h => ?_, fun k r rest m he ho hr hrest hm h1 h4 => ?_⟩
  · change (.next (renderCompletion s) : Outcome) = _
    rw [renderCompletion, h]
  · refine ⟨_, s.renderDone k r.bundle (renderLabel s.lcp m r), (renderLabel s.lcp m r).1, (renderLabel s.lcp m r).2, _,
      next_congr (renderCompletion_eq he ho hr hm), by rw [State.renderDone, finish_eq _ ho hr hrest],
      startsPrint_startTest _, fun j hj => tabGet_tabMod_other _ _ _ _ hj, tabGet_tabMod_some _ (tabGet_slots ⟨h1, h4⟩),
      fun a x y ha hx0 hx1 hy0 hy1 h447 => ?_, fun h => ?_, clipped_ascending _ _ _, mem_clipped _ _ _,
      fun x y hx hy hopen => ?_⟩
    · exact pixel_renderLabel_protected m r (hx1.trans h447) ((isProtected_iff _ _ _).mpr ⟨a, ha, hx0, hx1, hy0, hy1⟩)
    · rw [renderLabel_unused m r h]
      exact ⟨rfl, rfl⟩
    · have hfree : ¬ isProtected s.lcp.protect x y = true := fun h => by
        obtain ⟨a, ha, hin⟩ := (isProtected_iff _ _ _).mp h
        exact hopen a ha hin
      exact ⟨fun n f hn hf hlast => pixel_renderLabel_inked hx hy hfree hn hf hlast,
        fun hnone => pixel_renderLabel_bare hx hy hfree hnone⟩

end Sys2Proof.Machine
end

section
/-! PROOFS. What the blocks report: each operation of the blocks other than the Link Interface reaches it by notices and
announcements alone, which leaves the attention output as right as it was (O5), the notice masks and the pending reply
(O57, O60), and the queue of waiting commands (O1). -/

namespace Sys2Proof.Machine

open Sys2Proof

/-! ## The relation -/

/-- From s to t the Link Interface has heard of nothing but notices and announcements, and no command has joined or left
the queue: the attention output is right where it was (R181), masks and pending reply are as they were. -/
def Reports (s t : State) : Prop :=
  (s.attentionSound → t.attentionSound) ∧ t.lif.masks = s.lif.masks ∧ t.lif.reply = s.lif.reply
    ∧ t.pending = s.pending

theorem Reports.refl (s : State) : Reports s s := ⟨id, rfl, rfl, rfl⟩

theorem Reports.trans {s t u : State} (h : Reports s t) (h' : Reports t u) : Reports s u := by
  obtain ⟨ha, hm, hr, hp⟩ := h
  obtain ⟨ha', hm', hr', hp'⟩ := h'
  exact ⟨ha' ∘ ha, hm'.trans hm, hr'.trans hr, hp'.trans hp⟩

/-- What leaves the Link Interface and the queue alone reports nothing. -/
theorem reports_congr {s t u : State} (hl : u.lif = t.lif) (hp : u.pending = t.pending) :
    Reports s u ↔ Reports s t := by
  unfold Reports State.attentionSound
  rw [hl, hp]

@[simp] theorem reports_refl (s : State) : Reports s s := .refl s

section
variable {s t : State}

@[simp] theorem reports_setPins (v : Pins) : Reports s (t.setPins v) ↔ Reports s t := .rfl
@[simp] theorem reports_setLtr (v : Ltr) : Reports s (t.setLtr v) ↔ Reports s t := .rfl
@[simp] theorem reports_setMsu (v : Msu) : Reports s (t.setMsu v) ↔ Reports s t := .rfl
@[simp] theorem reports_setPle (v : Ple) : Reports s (t.setPle v) ↔ Reports s t := .rfl
@[simp] theorem reports_setOtu (v : Otu) : Reports s (t.setOtu v) ↔ Reports s t := .rfl
@[simp] theorem reports_setFdp (v : Fdp) : Reports s (t.setFdp v) ↔ Reports s t := .rfl
@[simp] theorem reports_setPfc (v : Pfc) : Reports s (t.setPfc v) ↔ Reports s t := .rfl
@[simp] theorem reports_setTsc (v : Tsc) : Reports s (t.setTsc v) ↔ Reports s t := .rfl
@[simp] theorem reports_setSrt (v : Srt) : Reports s (t.setSrt v) ↔ Reports s t := .rfl
@[simp] theorem reports_setBdb (v : Bdb) : Reports s (t.setBdb v) ↔ Reports s t := .rfl
@[simp] theorem reports_setLcp (v : Lcp) : Reports s (t.setLcp v) ↔ Reports s t := .rfl
@[simp] theorem reports_setPrq (v : Prq) : Reports s (t.setPrq v) ↔ Reports s t := .rfl

@[simp] theorem reports_modLine (k : Nat) (f : OrderLine → OrderLine) :
    Reports s (t.modLine k f) ↔ Reports s t := .rfl
@[simp] theorem reports_modBin (b : Nat) (f : Bin → Bin) : Reports s (t.modBin b f) ↔ Reports s t := .rfl
@[simp] theorem reports_modManifest (n : Nat) (f : Manifest → Manifest) :
    Reports s (t.modManifest n f) ↔ Reports s t := .rfl
@[simp] theorem reports_modStrip (k : Nat) (f : Strip → Strip) : Reports s (t.modStrip k f) ↔ Reports s t := .rfl
@[simp] theorem reports_modPiece (k i : Nat) (f : Piece → Piece) :
    Reports s (t.modPiece k i f) ↔ Reports s t := .rfl
@[simp] theorem reports_modCuts (k : Nat) (f : CutList → CutList) : Reports s (t.modCuts k f) ↔ Reports s t := .rfl
@[simp] theorem reports_modSlot (k : Nat) (f : Slot → Slot) : Reports s (t.modSlot k f) ↔ Reports s t := .rfl
@[simp] theorem reports_renderStart (k : Nat) (m : Manifest) : Reports s (renderStart k m t) ↔ Reports s t := .rfl
@[simp] theorem reports_forgetStrip (k : Nat) : Reports s (forgetStrip k t) ↔ Reports s t := .rfl
@[simp] theorem reports_allocateStrip (r : Strip) : Reports s (allocateStrip r t) ↔ Reports s t := .rfl
@[simp] theorem reports_dropPiece (k i : Nat) : Reports s (dropPiece k i t) ↔ Reports s t := .rfl
@[simp] theorem reports_addBin0 (n : Nat) : Reports s (addBin0 n t) ↔ Reports s t := .rfl
@[simp] theorem reports_countBin0 (r : Bin0Reason) : Reports s (countBin0 r t) ↔ Reports s t := by cases r <;> rfl
@[simp] theorem reports_markForced (k : Nat) : Reports s (markForced k t) ↔ Reports s t := .rfl
@[simp] theorem reports_countCreated : Reports s (countCreated t) ↔ Reports s t := .rfl
@[simp] theorem reports_setHolder (e : TrimEye) (o : Option Nat) : Reports s (setHolder e o t) ↔ Reports s t := .rfl
@[simp] theorem reports_setLevel (e : TrimEye) (b : Bool) : Reports s (setLevel e b t) ↔ Reports s t := .rfl
@[simp] theorem reports_countStray (e : TrimEye) : Reports s (countStray e t) ↔ Reports s t := .rfl
@[simp] theorem reports_levelsFollow : Reports s (levelsFollow t) ↔ Reports s t := .rfl
@[simp] theorem reports_dropOutputs : Reports s (dropOutputs t) ↔ Reports s t := .rfl
@[simp] theorem reports_nextSlot : Reports s (nextSlot t) ↔ Reports s t := .rfl
@[simp] theorem reports_measureMatch (r : Strip) : Reports s (measureMatch r t) ↔ Reports s t := .rfl
@[simp] theorem reports_sawMatch (r : Strip) : Reports s (sawMatch r t) ↔ Reports s t := .rfl
@[simp] theorem reports_trimPulse (d : Direction) : Reports s (trimPulse d t) ↔ Reports s t := .rfl
@[simp] theorem reports_free (n : Nat) : Reports s { t with free := n } ↔ Reports s t := .rfl
@[simp] theorem reports_fedSlot : Reports s (fedSlot t) ↔ Reports s t := .rfl

@[simp] theorem reports_dischargeStart (b : Nat) : Reports s (dischargeStart b t) ↔ Reports s t :=
  reports_congr (by simp) (by simp)
@[simp] theorem reports_takeUp : Reports s (takeUp t) ↔ Reports s t := reports_congr (by simp) (by simp)
@[simp] theorem reports_abandon (k : Nat) : Reports s (abandon k t) ↔ Reports s t := reports_congr (by simp) (by simp)
@[simp] theorem reports_startTest : Reports s (startTest t) ↔ Reports s t := reports_congr (by simp) (by simp)

end

/-! ## Notices and announcements -/

section
variable {s t : State} (h : Reports s t)
include h

/-- The raising of a notice (R180, R181). -/
@[simp] theorem reports_raise (n : Notice) : Reports s (t.raise n) := by
  obtain ⟨ha, hm, hr, hp⟩ := h
  obtain ⟨hr', -, -, hm'⟩ := raise_rest t.lif n
  exact ⟨fun hs => raise_attention t.lif n (ha hs), hm'.trans hm, hr'.trans hr, hp⟩

/-- An announcement queued, or counted where the queue is full (R185). -/
@[simp] theorem reports_announce (a : Announcement) : Reports s (announce a t) := by
  unfold announce
  split <;> exact h

/-! ## Orders, closes -/

@[simp] theorem reports_drainLine (k : Nat) : Reports s (drainLine k t) := by
  unfold drainLine
  dsimp only
  split <;> simp [h]

@[simp] theorem reports_release (l : Option Nat) (n : Nat) : Reports s (release l n t) := by
  unfold release
  split <;> simp [h]

@[simp] theorem reports_fillLine (k : Nat) (c : FillCause) : Reports s (fillLine k c t) := by
  unfold fillLine
  dsimp only
  split <;> simp [h]

@[simp] theorem reports_credit (l : Option Nat) (n : Nat) : Reports s (credit l n t) := by
  unfold credit
  split <;> simp [h]

/-- A close completion raises BUNDLE_CLOSED (R138 to R140). -/
@[simp] theorem reports_closeComplete (b k : Nat) : Reports s (closeComplete b k t) := by
  unfold closeComplete
  simp [h]

end

@[simp] theorem reports_attempts {s t : State} (h : Reports s t) (n : Nat) : Reports s (attempts n t) := by
  induction n generalizing t with
  | zero => exact h
  | succ n ih =>
    unfold attempts
    split
    · split
      · exact ih (reports_closeComplete h _ _)
      · exact h
    · exact h

/-- Operations one after another that each only report. -/
theorem reports_foldl {α : Type} {f : State → α → State} {s t : State} (h : Reports s t) (l : List α)
    (hf : ∀ {t} a, Reports s t → Reports s (f t a)) : Reports s (l.foldl f t) := by
  induction l generalizing t with
  | nil => exact h
  | cons a l ih => exact ih (hf a h)

section
variable {s t : State} (h : Reports s t)
include h

@[simp] theorem reports_attempt : Reports s (attempt t) := by simp [attempt, h]

@[simp] theorem reports_closingEntry (b : Nat) : Reports s (closingEntry b t) := by simp [closingEntry, h]

@[simp] theorem reports_settlePending (b : Nat) : Reports s (settlePending b t) := by
  unfold settlePending
  split <;> simp [h]

@[simp] theorem reports_closeRequest (b : Nat) (r : CloseReason) : Reports s (closeRequest b r t) := by
  unfold closeRequest
  split <;> simp [h]

@[simp] theorem reports_dischargeAll : Reports s (dischargeAll t) := reports_foldl h _ fun b hu => by simp [hu]

@[simp] theorem reports_profileClose (b : Nat) : Reports s (profileClose t b) := by
  unfold profileClose
  split <;> simp [h]

/-! ## The cutter group, the changeover, the gauge, the line -/

@[simp] theorem reports_cutterTo (new : Cutter) (c : CutterCause) : Reports s (cutterTo new c t) := by
  simp [cutterTo, h]

@[simp] theorem reports_enterSpinup (c : CutterCause) : Reports s (enterSpinup c t) := by simp [enterSpinup, h]

@[simp] theorem reports_cutterOff (c : CutterCause) : Reports s (cutterOff c t) := by
  unfold cutterOff
  dsimp only
  split <;> simp [h]

@[simp] theorem reports_idleTest : Reports s (idleTest t) := by
  unfold idleTest
  split <;> simp [h]

@[simp] theorem reports_activity : Reports s (activity t) := by
  unfold activity
  split <;> simp [h]

@[simp] theorem reports_wakeReport : Reports s (wakeReport t) := by
  unfold wakeReport
  split
  · split <;> simp [h]
  · exact h

@[simp] theorem reports_spinupExpiry : Reports s (spinupExpiry t) := by
  unfold spinupExpiry
  split <;> simp [h]

@[simp] theorem reports_hysteresisExpiry : Reports s (hysteresisExpiry t) := by
  unfold hysteresisExpiry
  split <;> simp [h]

@[simp] theorem reports_residencyExpiry : Reports s (residencyExpiry t) := by
  unfold residencyExpiry
  split
  · dsimp only
    split <;> simp [h]
  · exact h

@[simp] theorem reports_profileTo (c : Changeover) (u : ProfileCause) : Reports s (profileTo c u t) := by
  simp [profileTo, h]

@[simp] theorem reports_lineTo (l : LineState) (c : LineCause) : Reports s (lineTo l c t) := by simp [lineTo, h]

@[simp] theorem reports_gaugeCancel (c : GaugeCause) : Reports s (gaugeCancel c t) := by
  unfold gaugeCancel
  split <;> simp [h]

@[simp] theorem reports_endStopping : Reports s (endStopping t) := by
  unfold endStopping
  split <;> simp [h]

@[simp] theorem reports_drainTest : Reports s (drainTest t) := by
  have hcloses : Reports s (binNumbers.foldl profileClose t) := reports_foldl h _ fun b hu => by simp [hu]
  unfold drainTest
  split <;> simp [h, hcloses]

@[simp] theorem reports_afterPiece : Reports s (afterPiece t) := by simp [afterPiece, h]

@[simp] theorem reports_afterStrip : Reports s (afterStrip t) := reports_drainTest (by simp [h])

/-! ## The Plan Engine -/

/-- A plan written reserves on the order lines alone (R60, R72). -/
@[simp] theorem reports_writePlan (r : Strip) (n : Snapshot) : Reports s (writePlan r n t) := by
  unfold writePlan
  dsimp only
  split
  · exact h
  · obtain ⟨_, _, _, hf⟩ := reservePieces_spec (r.scan.getD { colour := 0, defects := [] }).colour (_ :: _) t
    rw [hf]
    exact h

@[simp] theorem reports_planCompletion : Reports s (planCompletion t) := by
  unfold planCompletion
  split
  · exact h
  · dsimp only
    split <;> simp [h]

@[simp] theorem reports_planLate (k : Nat) (r : UncutReason) (a : Bool) : Reports s (planLate k r a t) := by
  simp [planLate, h]

@[simp] theorem reports_deadlineAction (r : Strip) : Reports s (deadlineAction r t) := by
  unfold deadlineAction
  split
  · exact h
  · exact h
  · simp [h]
  · split
    · simp [h]
    · split <;> simp [h]

@[simp] theorem reports_deliverDeadline (k : Nat) : Reports s (deliverDeadline k t) := by
  unfold deliverDeadline
  split
  · exact h
  · split
    · exact h
    · split <;> simp [h]

@[simp] theorem reports_scanDiscard (r : DiscardReason) (k c : Nat) : Reports s (scanDiscard r k c t) := by
  simp [scanDiscard, h]

@[simp] theorem reports_takeScanRecord (p : List Byte) : Reports s (takeScanRecord p t) := by
  unfold takeScanRecord
  dsimp only
  split <;> split <;> simp [scanAccept, h]

@[simp] theorem reports_scanRecordReceived (p : List Byte) : Reports s (scanRecordReceived p t) := by
  refine reports_takeScanRecord ?_ p
  exact h

/-! ## Strips and pieces -/

@[simp] theorem reports_releasePlan (r : Strip) : Reports s (releasePlan r t) := by
  rw [releasePlan_eq]
  exact reports_foldl h _ fun _ hu => by simp [hu]

@[simp] theorem reports_removeStrip (r : Strip) : Reports s (removeStrip r t) := reports_afterStrip (by simp [h])

@[simp] theorem reports_windowExpiry (e : TrimEye) (k : Nat) : Reports s (windowExpiry e k t) := by
  unfold windowExpiry
  split
  · exact h
  · split
    · exact h
    · split <;> simp [h]

@[simp] theorem reports_enterPiece (p : Piece) : Reports s (enterPiece p t) := by
  unfold enterPiece
  split <;> simp [h]

@[simp] theorem reports_toBin0 (r : Bin0Reason) (p : Piece) : Reports s (toBin0 r p t) := by simp [toBin0, h]

end

@[simp] theorem reports_searchBins {s t : State} (h : Reports s t) (p : Piece) (bs : List Nat) :
    Reports s (searchBins p bs t).1 := by
  induction bs generalizing t with
  | nil => exact h
  | cons b bs ih =>
    unfold searchBins
    split
    · dsimp only
      split
      · exact h
      · exact ih h
    · exact ih h

section
variable {s t : State} (h : Reports s t)
include h

@[simp] theorem reports_assign (b : Nat) (p : Piece) : Reports s (assign b p t) := by
  unfold assign
  dsimp only
  split <;> simp [h]

@[simp] theorem reports_binSearch (p : Piece) : Reports s (binSearch p t) := by
  have hsearch := reports_searchBins h p binNumbers
  unfold binSearch
  split
  · simp [h]
  · split
    · simp [h]
    · split
      · next e => rw [e] at hsearch; simp [hsearch]
      · next e => rw [e] at hsearch; simp [hsearch]

@[simp] theorem reports_dropLead : Reports s (dropLead t) := by
  unfold dropLead
  split <;> simp [h]

@[simp] theorem reports_dropEdge (b : Bool) : Reports s (dropEdge b t) := by
  unfold dropEdge
  split
  · exact h
  · dsimp only
    split
    · exact h
    · exact h
    · split <;> simp [h]

@[simp] theorem reports_dropExpiry (k i : Nat) : Reports s (dropExpiry k i t) := by
  unfold dropExpiry
  split
  · exact h
  · split
    · exact h
    · split
      · exact reports_afterPiece (by simp [h])
      · exact h

@[simp] theorem reports_land (b : Nat) (p : Piece) : Reports s (land b p t) := reports_afterPiece (by simp [h])

@[simp] theorem reports_diverterFire (k i : Nat) : Reports s (diverterFire k i t) := by
  unfold diverterFire
  split
  · exact h
  · split
    · exact h
    · split <;> simp [h]

@[simp] theorem reports_clearPiece (p : Piece) : Reports s (clearPiece t p) := by
  unfold clearPiece
  dsimp only
  split <;> simp [h]

/-! ## The saw -/

@[simp] theorem reports_createAt (i : Option Nat) (c : CutList) (r : Strip) : Reports s (createAt i c r t) := by
  unfold createAt
  split
  · exact h
  · unfold createPlanned
    split
    · exact h
    · split <;> simp [h]

@[simp] theorem reports_createUncut (c : CutList) (r : Strip) : Reports s (createUncut c r t) := by
  simp [createUncut, h]

@[simp] theorem reports_doneTest (k : Nat) : Reports s (doneTest k t) := by
  unfold doneTest
  split
  · split <;> simp [h]
  · exact h

@[simp] theorem reports_cutMade (c : CutList) (x : Nat) (r : Strip) : Reports s (cutMade c x r t) := by
  unfold cutMade
  dsimp only
  split <;> simp [h]

@[simp] theorem reports_cutMissed (c : CutList) (x : Nat) (r : Strip) : Reports s (cutMissed c x r t) := by
  unfold cutMissed
  dsimp only
  split <;> simp [h]

@[simp] theorem reports_cutDue (k : Nat) : Reports s (cutDue k t) := by
  unfold cutDue
  split
  · split
    · exact h
    · split
      · refine reports_doneTest ?_ _
        split <;> simp [h]
      · exact h
  · exact h

@[simp] theorem reports_slipCheck (r : Strip) (l : Nat) : Reports s (slipCheck r l t) := by
  unfold slipCheck
  split
  · exact h
  · dsimp only
    split <;> simp [h]

@[simp] theorem reports_trailCreation (c : CutList) (r : Strip) : Reports s (trailCreation c r t) := by
  unfold trailCreation
  split <;> simp [h]

@[simp] theorem reports_sawTrail (r : Strip) : Reports s (sawTrail r t) := by
  unfold sawTrail
  split
  · exact h
  · exact reports_doneTest (by simp [h]) _

/-! ## The gauge and the trim eyes -/

@[simp] theorem reports_gaugeEnd (c : GaugeCause) : Reports s (gaugeEnd c t) := by simp [gaugeEnd, h]

@[simp] theorem reports_gaugeMark : Reports s (gaugeMark t) := by
  unfold gaugeMark
  dsimp only
  split
  · exact h
  · split <;> simp [h]

@[simp] theorem reports_gaugeTrail : Reports s (gaugeTrail t) := by
  unfold gaugeTrail
  split <;> simp [h]

@[simp] theorem reports_barEnd : Reports s (barEnd t) := by
  unfold barEnd
  split
  · split <;> simp [h]
  · exact h

@[simp] theorem reports_measureLead : Reports s (measureLead t) := by
  unfold measureLead
  split
  · simp [h]
  · split
    · exact h
    · unfold measureStray
      dsimp only
      split <;> simp [h]

@[simp] theorem reports_measureTrail : Reports s (measureTrail t) := by
  unfold measureTrail
  split
  · simp [h]
  · split
    · exact h
    · dsimp only
      split
      · exact h
      · unfold lengthWrite
        split <;> simp [h]

@[simp] theorem reports_scanLead : Reports s (scanLead t) := by
  unfold scanLead
  split
  · unfold scanMatch
    dsimp only
    split <;> simp [h]
  · simp [h]

@[simp] theorem reports_sawLead : Reports s (sawLead t) := by
  unfold sawLead
  split <;> simp [h]

@[simp] theorem reports_sawTrailEdge : Reports s (sawTrailEdge t) := by
  unfold sawTrailEdge
  split
  · exact h
  · dsimp only
    split <;> simp [h]

@[simp] theorem reports_takeEdge (e : TrimEye) (b : Bool) : Reports s (takeEdge e b t) :=
  match e, b with
  | .measure, true => reports_measureLead h
  | .measure, false => reports_measureTrail h
  | .scan, true => reports_scanLead h
  | .scan, false => h
  | .saw, true => reports_sawLead h
  | .saw, false => reports_sawTrailEdge h

@[simp] theorem reports_trimEdge (e : TrimEye) (b : Bool) : Reports s (trimEdge e b t) := by
  unfold trimEdge
  split
  · exact h
  · dsimp only
    split <;> simp [h]

@[simp] theorem reports_encoderPulse (e : Encoder) (d : Direction) : Reports s (encoderPulse e d t) := by
  unfold encoderPulse
  split
  · exact h
  · cases e <;> simp [h]

/-! ## The emergency stop and the line's requests -/

@[simp] theorem reports_enterHalted : Reports s (enterHalted t) := reports_gaugeCancel (by simp [h]) _

@[simp] theorem reports_estopAssert : Reports s (estopAssert t) := by
  unfold estopAssert
  dsimp only
  split <;> simp [h]

@[simp] theorem reports_stopRunning : Reports s (stopRunning t) := by
  unfold stopRunning
  split
  · exact reports_gaugeCancel (by simp [h]) _
  · simp [h]

@[simp] theorem reports_resumeEdge (e : TrimEye) : Reports s (resumeEdge e t) := by
  unfold resumeEdge
  dsimp only
  split <;> simp [h]

@[simp] theorem reports_resumeDrop : Reports s (resumeDrop t) := by
  unfold resumeDrop
  dsimp only
  split
  · exact h
  · split <;> simp [h]

@[simp] theorem reports_feedReadyChange (b : Bool) : Reports s (feedReadyChange b t) := by
  unfold feedReadyChange
  dsimp only
  split <;> simp [h]

@[simp] theorem reports_resumeFeed : Reports s (resumeFeed t) := by
  unfold resumeFeed
  split <;> simp [h]

@[simp] theorem reports_resume : Reports s (resume t) := by
  have hedges : Reports s (resumeEdge .saw (resumeEdge .scan (resumeEdge .measure
      (t.setLtr { t.ltr with lineState := .running })))) := reports_resumeEdge (by simp [h]) _
  exact reports_dischargeAll (reports_enterSpinup (reports_raise (by simp [hedges]) _) _)

@[simp] theorem reports_clearStrips : Reports s (clearStrips t) := by
  unfold clearStrips
  dsimp only
  simp only [reports_setTsc, reports_setLtr]
  exact reports_foldl (by simp [h]) _ fun _ hu => by simp [hu]

@[simp] theorem reports_clearPieces : Reports s (clearPieces t) := reports_foldl h _ fun _ hu => by simp [hu]

@[simp] theorem reports_clearLine : Reports s (clearLine t) := by simp [clearLine, h]

@[simp] theorem reports_clearAll : Reports s (clearAll t) :=
  reports_drainTest (reports_dischargeAll (reports_clearLine (by simp [h])))

/-! ## Pacing, profiles, bins -/

@[simp] theorem reports_periodStart : Reports s (periodStart t) := by
  unfold periodStart
  dsimp only
  split <;> simp [h]

@[simp] theorem reports_decideSlot : Reports s (decideSlot t) := by
  unfold decideSlot
  split
  · exact h
  · split
    · unfold heldSlot
      dsimp only
      split <;> simp [h]
    · split <;> simp [h]

@[simp] theorem reports_slotEvent : Reports s (slotEvent t) := by
  unfold slotEvent
  split
  · dsimp only
    refine reports_decideSlot ?_
    split <;> simp [h]
  · exact h

@[simp] theorem reports_feedReadyEdge (b : Bool) : Reports s (feedReadyEdge b t) := by
  unfold feedReadyEdge
  split
  · exact h
  · dsimp only
    split <;> simp [h]

@[simp] theorem reports_backToRunning : Reports s (backToRunning t) := by simp [backToRunning, h]

@[simp] theorem reports_changeTaken (n : Nat) : Reports s (changeTaken n t) := by
  unfold changeTaken
  split
  · split <;> simp [h]
  · split
    · exact h
    · split <;> simp [h]
  · exact h
  · simp [h]

@[simp] theorem reports_abortTaken : Reports s (abortTaken t) := by
  unfold abortTaken
  split <;> simp [h]

@[simp] theorem reports_changeComplete : Reports s (changeComplete t) := by simp [changeComplete, h]

@[simp] theorem reports_toolingReadyRise : Reports s (toolingReadyRise t) := by
  unfold toolingReadyRise
  split
  · exact h
  · dsimp only
    split <;> simp [h]

@[simp] theorem reports_toolingTimerExpiry : Reports s (toolingTimerExpiry t) := by
  unfold toolingTimerExpiry
  split <;> simp [h]

@[simp] theorem reports_disableTaken (n : Nat) : Reports s (disableTaken n t) := by
  unfold disableTaken
  split
  · exact h
  · split <;> simp [h]
  · exact h

@[simp] theorem reports_cartChange (n : Nat) (a : Bool) : Reports s (cartChange n a t) := by
  unfold cartChange
  split
  · exact h
  · dsimp only
    split <;> split
    · simp [h]
    · simp [h]
    · exact h
    · simp [h]

@[simp] theorem reports_dischargeEnd (n : Nat) : Reports s (dischargeEnd n t) := by
  unfold dischargeEnd
  split <;> simp [h]

/-! ## Prints and labels -/

@[simp] theorem reports_labelState (b : Option Nat) (l : LabelState) : Reports s (labelState b l t) := by
  unfold labelState
  split <;> simp [h]

@[simp] theorem reports_rowRequest : Reports s (rowRequest t) := by
  unfold rowRequest
  split
  · exact h
  · dsimp only
    split <;> simp [h]

@[simp] theorem reports_labelEnd : Reports s (labelEnd t) := by
  unfold labelEnd
  exact reports_attempt (by simp [h])

@[simp] theorem reports_rowTransferEnd : Reports s (rowTransferEnd t) := by
  unfold rowTransferEnd
  split
  · dsimp only
    split <;> simp [h]
  · exact h

@[simp] theorem reports_printFail (c : PrintCause) : Reports s (printFail c t) := by simp [printFail, h]

@[simp] theorem reports_printFaultAssert : Reports s (printFaultAssert t) := by
  unfold printFaultAssert
  split
  · exact h
  · dsimp only
    split <;> simp [h]

@[simp] theorem reports_printFaultRelease : Reports s (printFaultRelease t) := by
  unfold printFaultRelease
  split <;> simp [h]

@[simp] theorem reports_printTimerExpiry : Reports s (printTimerExpiry t) := by
  unfold printTimerExpiry
  split <;> simp [h]

@[simp] theorem reports_printReadyRise : Reports s (printReadyRise t) := by
  unfold printReadyRise
  split <;> simp [h]

@[simp] theorem reports_donePulseEnd : Reports s (donePulseEnd t) := by
  unfold donePulseEnd
  split <;> simp [h]

@[simp] theorem reports_retrySlot (k : Nat) : Reports s (retrySlot k t) := by simp [retrySlot, h]

@[simp] theorem reports_dropSlot (k : Nat) : Reports s (dropSlot k t) := by simp [dropSlot, h]

@[simp] theorem reports_finishRender (k n : Nat) (l : Image × List Nat) : Reports s (finishRender k n l t) := by
  simp [finishRender, h]

@[simp] theorem reports_renderCompletion : Reports s (renderCompletion t) := by
  unfold renderCompletion
  split
  · exact h
  · split
    · exact h
    · split <;> simp [h]

@[simp] theorem reports_tick : Reports s (tick t) := by
  unfold tick
  split <;> exact h

end

end Sys2Proof.Machine
end

section
/-! PROOFS. What requests, frames and replies do to the attention output and to the queue of waiting commands, and with it
what every step keeps of the former (O5) and every command of the latter (O1). -/

namespace Sys2Proof.Machine

open Sys2Proof

/-! ## The relation -/

/-- From s to t the attention output stays right (R181) and no command joins or leaves the queue. -/
structure Attends (s t : State) : Prop where
  attention : s.attentionSound → t.attentionSound
  pending : t.pending = s.pending

theorem Attends.refl (s : State) : Attends s s := ⟨id, rfl⟩

theorem Attends.trans {s t u : State} (h : Attends s t) (h' : Attends t u) : Attends s u :=
  ⟨h'.attention ∘ h.attention, h'.pending.trans h.pending⟩

/-- The same, the later change first. -/
theorem Attends.after {s t u : State} (h' : Attends t u) (h : Attends s t) : Attends s u := h.trans h'

theorem Reports.attends {s t : State} (h : Reports s t) : Attends s t := by
  obtain ⟨ha, -, -, hp⟩ := h
  exact ⟨ha, hp⟩

/-- A change of the Link Interface that leaves the notices and the attention output alone. -/
theorem attends_setLif (s : State) (v : Lif) (ha : v.attention = s.lif.attention := by rfl)
    (hn : v.notices = s.lif.notices := by rfl) : Attends s (s.setLif v) := by
  refine ⟨fun h => ?_, rfl⟩
  unfold State.attentionSound at *
  rwa [State.setLif_lif, ha, hn]

/-! ## The owners of the requests -/

/-- The state of a request taken has the property P; a refusal has no state of its own (R174). -/
def Meets (P : State → Prop) (a : Answer) : Prop := ∀ t d, a = .ok (t, d) → P t

section
variable {P : State → Prop}

@[simp] theorem meets_taken (t : State) (d : List Byte) : Meets P (taken t d) ↔ P t :=
  ⟨fun h => h t d rfl, fun h _ _ he => by cases he; exact h⟩

@[simp] theorem meets_error (c : ResultCode) : Meets P (.error c) := fun _ _ he => by cases he

@[simp] theorem meets_refuseIf (b : Bool) (c : ResultCode) (a : Answer) :
    Meets P (refuseIf b c a) ↔ (b = false → Meets P a) := by cases b <;> simp

@[simp] theorem meets_refuseHalted (s : State) (a : Answer) :
    Meets P (refuseHalted s a) ↔ (s.ltr.lineState ≠ .halted → Meets P a) := by simp [refuseHalted]

@[simp] theorem meets_refuseHeld (s : State) (a : Answer) :
    Meets P (refuseHeld s a) ↔ (s.lcp.hold = false → Meets P a) := by simp [refuseHeld]

@[simp] theorem meets_refuseWatching (s : State) (a : Answer) :
    Meets P (refuseWatching s a) ↔ (watching s = false → Meets P a) := by simp [refuseWatching]

theorem Meets.mono {Q : State → Prop} (hPQ : ∀ {t}, P t → Q t) {a : Answer} (h : Meets P a) : Meets Q a :=
  fun t d he => hPQ (h t d he)

end

section
variable (s : State)

theorem lineStart_reports : Meets (Reports s) (lineStart s) := by
  simp only [lineStart, meets_refuseHalted, meets_refuseIf]
  intro _ _
  split <;> simp

theorem lineStop_reports : Meets (Reports s) (lineStop s) := by
  simp only [lineStop, meets_refuseHalted, meets_taken]
  intro _
  split <;> simp

theorem stripRead_reports (n : Nat) : Meets (Reports s) (stripRead n s) := by
  unfold stripRead
  split <;> simp

theorem orderClose_reports (k : Nat) : Meets (Reports s) (orderClose k s) := by
  simp only [orderClose, meets_refuseHalted, meets_refuseIf]
  intro _ _ _
  split <;> simp

theorem manifestRead_reports (n : Nat) : Meets (Reports s) (manifestRead n s) := by
  unfold manifestRead
  split
  · simp
  · split <;> simp

theorem manifestTake_reports (n : Nat) : Meets (Reports s) (manifestTake n s) := by
  unfold manifestTake
  split <;> simp

theorem tplOp_reports (o : Nat) (m p : Byte) : Meets (Reports s) (tplOp o m p s) := by
  simp only [tplOp, meets_refuseHeld]
  intro _
  split <;> simp

theorem tplHold_reports : Meets (Reports s) (tplHold s) := by
  unfold tplHold
  split <;> simp

theorem printRetry_reports : Meets (Reports s) (printRetry s) := by
  unfold printRetry
  split <;> simp

theorem printDrop_reports : Meets (Reports s) (printDrop s) := by
  unfold printDrop
  split <;> simp

theorem setDate_reports (d : List Byte) : Meets (Reports s) (setDate d s) := by
  simp only [setDate, meets_refuseIf, meets_taken]
  exact fun _ _ => .refl s

/-- NOTICE_POLL drives the attention output by what it leaves queued (R181, R182). -/
theorem noticePoll_attends (n : Nat) : Meets (Attends s) (noticePoll n s) := by
  simp only [noticePoll, meets_refuseIf, meets_taken]
  exact fun _ => ⟨fun _ => rfl, rfl⟩

/-- Every owner keeps the attention output right, and the queue as it is. -/
theorem ownerAnswer_attends (i : Instr) : Meets (Attends s) (ownerAnswer i s) := by
  cases i with
  | noticePoll _ n => exact noticePoll_attends s n
  | noticeMask _ m =>
    simp only [ownerAnswer, noticeMask, meets_refuseIf, meets_taken]
    exact fun _ => attends_setLif s _
  | lineStart _ => exact (lineStart_reports s).mono Reports.attends
  | lineStop _ => exact (lineStop_reports s).mono Reports.attends
  | stripRead _ n => exact (stripRead_reports s n).mono Reports.attends
  | orderClose _ k => exact (orderClose_reports s k).mono Reports.attends
  | manifestRead _ n => exact (manifestRead_reports s n).mono Reports.attends
  | manifestTake _ n => exact (manifestTake_reports s n).mono Reports.attends
  | tplOp _ o m p => exact (tplOp_reports s o m p).mono Reports.attends
  | tplHold _ => exact (tplHold_reports s).mono Reports.attends
  | printRetry _ => exact (printRetry_reports s).mono Reports.attends
  | printDrop _ => exact (printDrop_reports s).mono Reports.attends
  | setDate _ d => exact (setDate_reports s d).mono Reports.attends
  | _ =>
    refine Meets.mono (P := Reports s) Reports.attends ?_
    simp [ownerAnswer, lineResume, lineClear, lineGeometry, measureSet, gaugeTable, gaugeVerify, gaugeCancelRequest,
      gaugeRelease, gradeSet, weightSet, classSet, valueSet, planOptions, orderLoad, orderAmend, orderRead, paceSet,
      profileSet, profileChange, profileAbort, trimSet, headsSet, sortSet, binSet, binClose, binDisable, binRead,
      cartMask, tplWindow, tplAddr, tplWrite, tplFill, tplRead, tplClear, tplRelease, glyphWrite, protectSet, fieldSet,
      printSet]

end

/-! ## Requests, frames, resets -/

section
variable (s : State)

theorem frameWhilePending_attends (r : Reply) : Attends s (s.frameWhilePending r) := by
  unfold State.frameWhilePending
  split
  · exact .refl s
  · exact attends_setLif s _

theorem request_attends (k g : Byte) {o : State → Answer} (h : Meets (Attends s) (o s)) :
    Attends s (request k g o s) := by
  unfold request
  split
  · exact frameWhilePending_attends s _
  · split
    · next he => exact (attends_setLif _ _).after (h _ _ he)
    · exact attends_setLif s _

theorem unanswered_attends {o : State → Answer} (h : Meets (Attends s) (o s)) : Attends s (unanswered o s) := by
  unfold unanswered
  split
  · next he => exact h _ _ he
  · exact .refl s

theorem resetRequest_attends (g : Byte) : Attends s (resetRequest g s) := by
  unfold resetRequest
  split
  · exact frameWhilePending_attends s _
  · exact attends_setLif s _

/-- A reset leaves the attention output released and no notice, but that of the entry to HALTED (R177, R17). -/
theorem resetAll_attends : Attends s (resetAll s) := by
  have hfresh : Attends s (freshState s) := ⟨fun _ => rfl, rfl⟩
  unfold resetAll
  split
  · exact (reports_enterHalted (.refl _)).attends.after hfresh
  · exact hfresh

theorem addressedFrame_attends (k g : Byte) (p : List Byte) : Attends s (addressedFrame k g p s) := by
  unfold addressedFrame
  split
  · exact resetRequest_attends s _
  · exact request_attends s _ _ (ownerAnswer_attends s _)
  · exact request_attends s _ _ (meets_error _)

theorem broadcastFrame_attends (k : Byte) (p : List Byte) : Attends s (broadcastFrame k p s) := by
  unfold broadcastFrame
  split
  · exact frameWhilePending_attends s _
  · split
    · exact resetAll_attends s
    · split
      · exact unanswered_attends s ((setDate_reports s p).mono Reports.attends)
      · split
        · exact unanswered_attends s ((lineStop_reports s).mono Reports.attends)
        · exact attends_setLif s _

theorem scanFrame_attends (k : Byte) (p : List Byte) : Attends s (scanFrame k p s) := by
  unfold scanFrame
  split
  · exact (reports_scanRecordReceived (.refl s) p).attends
  · exact attends_setLif s _

/-! ## The framers and the ends of replies and announcements -/

theorem modRx_attends (k : Link) (f : RxCounters → RxCounters) : Attends s (s.setLif (s.lif.modRx f k)) := by
  cases k <;> exact attends_setLif s _

theorem setFramer_attends (k : Link) (f : Framer) : Attends s (s.setLif (s.lif.setFramer f k)) := by
  cases k <;> exact attends_setLif s _

theorem discard_attends (k : Link) (f : RxCounters → RxCounters) : Attends s (discard k f s) :=
  (modRx_attends _ k f).after (setFramer_attends s k hunting)

theorem frameCheck_attends (k : Link) (bytes : List Byte) : Attends s (frameCheck k bytes s) := by
  unfold frameCheck
  dsimp only
  split
  · split
    · unfold controlFrame
      split
      · exact addressedFrame_attends s _ _ _
      · split
        · exact broadcastFrame_attends s _ _
        · exact modRx_attends s .control _
    · unfold scanLinkFrame
      split
      · exact scanFrame_attends s _ _
      · exact modRx_attends s .scan _
  · exact modRx_attends s k _

theorem framerByte_attends (k : Link) (b : Byte) : Attends s (framerByte k b s) := by
  unfold framerByte
  split
  · exact .refl s
  · dsimp only
    split
    · unfold huntByte
      split
      · exact setFramer_attends s k _
      · exact modRx_attends s k _
    · unfold headerByte
      split
      · exact setFramer_attends s k _
      · split
        · exact discard_attends s k _
        · split <;> exact setFramer_attends s k _
    · exact setFramer_attends s k _
    · unfold crcByteTaken
      split
      · exact setFramer_attends s k _
      · exact (frameCheck_attends _ k _).after (setFramer_attends s k _)

theorem gapExpiry_attends (k : Link) : Attends s (gapExpiry k s) := by
  unfold gapExpiry
  split
  · exact .refl s
  · exact discard_attends s k _

theorem replyBegins_attends : Attends s (replyBegins s) := by
  unfold replyBegins
  split
  · exact .refl s
  · split
    · exact .refl s
    · exact attends_setLif s _

theorem replySent_attends : Attends s (replySent s) := by
  unfold replySent
  split
  · exact .refl s
  · split
    · dsimp only
      split
      · exact (resetAll_attends _).after (attends_setLif s _)
      · exact attends_setLif s _
    · exact .refl s

theorem announceSent_attends : Attends s (announceSent s) := by
  unfold announceSent
  split
  · exact .refl s
  · exact attends_setLif s _

/-! ## Every command and every step -/

/-- Every command that is no request completes and attends. -/
theorem event_attends {i : Instr} (h : Wire.writeRequest i = none) : ∃ t, exec i s = .next t ∧ Attends s t := by
  have same : Reports s s := .refl s
  cases i with
  | powerOnReset stn rate =>
    exact ⟨_, rfl, (resetAll_attends _).after
      ((reports_setPins { s.pins with stn := stn, rate := rate }).mpr same).attends⟩
  | framerByte k b => exact ⟨_, rfl, framerByte_attends s k b⟩
  | gapTimerExpiry k => exact ⟨_, rfl, gapExpiry_attends s k⟩
  | broadcastFrame k p => exact ⟨_, rfl, broadcastFrame_attends s k p⟩
  | replySent => exact ⟨_, rfl, replySent_attends s⟩
  | announceSent => exact ⟨_, rfl, announceSent_attends s⟩
  | replyBegins => exact ⟨_, rfl, replyBegins_attends s⟩
  | scanRecord p => exact ⟨_, rfl, (reports_scanRecordReceived same p).attends⟩
  | estopAssert => exact ⟨_, rfl, (reports_estopAssert same).attends⟩
  | estopRelease => exact ⟨_, rfl, Reports.attends same⟩
  | encoderPulse e d => exact ⟨_, rfl, (reports_encoderPulse same e d).attends⟩
  | measureLeadingEdge => exact ⟨_, rfl, (reports_trimEdge same .measure true).attends⟩
  | measureTrailingEdge => exact ⟨_, rfl, (reports_trimEdge same .measure false).attends⟩
  | scanLeadingEdge => exact ⟨_, rfl, (reports_trimEdge same .scan true).attends⟩
  | scanTrailingEdge => exact ⟨_, rfl, (reports_trimEdge same .scan false).attends⟩
  | sawLeadingEdge => exact ⟨_, rfl, (reports_trimEdge same .saw true).attends⟩
  | sawTrailingEdge => exact ⟨_, rfl, (reports_trimEdge same .saw false).attends⟩
  | windowExpiry e t => exact ⟨_, rfl, (reports_windowExpiry same e t).attends⟩
  | deadline t => exact ⟨_, rfl, (reports_deliverDeadline same t).attends⟩
  | planCompletion => exact ⟨_, rfl, (reports_planCompletion same).attends⟩
  | barEnd => exact ⟨_, rfl, (reports_barEnd same).attends⟩
  | slotEvent => exact ⟨_, rfl, (reports_slotEvent same).attends⟩
  | feedReadyEdge b => exact ⟨_, rfl, (reports_feedReadyEdge same b).attends⟩
  | feedPulseEnd => exact ⟨_, rfl, Reports.attends same⟩
  | toolingReadyRise => exact ⟨_, rfl, (reports_toolingReadyRise same).attends⟩
  | toolingReadyFall => exact ⟨_, rfl, Reports.attends same⟩
  | toolingTimerExpiry => exact ⟨_, rfl, (reports_toolingTimerExpiry same).attends⟩
  | cutDue t => exact ⟨_, rfl, (reports_cutDue same t).attends⟩
  | sawPulseEnd => exact ⟨_, rfl, Reports.attends same⟩
  | spinupExpiry => exact ⟨_, rfl, (reports_spinupExpiry same).attends⟩
  | hysteresisExpiry => exact ⟨_, rfl, (reports_hysteresisExpiry same).attends⟩
  | residencyExpiry => exact ⟨_, rfl, (reports_residencyExpiry same).attends⟩
  | dropLeadingEdge => exact ⟨_, rfl, (reports_dropEdge same true).attends⟩
  | dropTrailingEdge => exact ⟨_, rfl, (reports_dropEdge same false).attends⟩
  | dropWindowExpiry t k => exact ⟨_, rfl, (reports_dropExpiry same t k).attends⟩
  | diverterFire t k => exact ⟨_, rfl, (reports_diverterFire same t k).attends⟩
  | diverterPulseEnd b => exact ⟨_, rfl, Reports.attends same⟩
  | cart n a => exact ⟨_, rfl, (reports_cartChange same n a).attends⟩
  | dischargePulseEnd n => exact ⟨_, rfl, (reports_dischargeEnd same n).attends⟩
  | renderCompletion => exact ⟨_, rfl, (reports_renderCompletion same).attends⟩
  | printReadyRise => exact ⟨_, rfl, (reports_printReadyRise same).attends⟩
  | printFaultAssert => exact ⟨_, rfl, (reports_printFaultAssert same).attends⟩
  | printFaultRelease => exact ⟨_, rfl, (reports_printFaultRelease same).attends⟩
  | printTimerExpiry => exact ⟨_, rfl, (reports_printTimerExpiry same).attends⟩
  | rowRequest => exact ⟨_, rfl, (reports_rowRequest same).attends⟩
  | rowTransferEnd => exact ⟨_, rfl, (reports_rowTransferEnd same).attends⟩
  | strobeEnd => exact ⟨_, rfl, Reports.attends same⟩
  | donePulseEnd => exact ⟨_, rfl, (reports_donePulseEnd same).attends⟩
  | printReadyFall => exact ⟨_, rfl, Reports.attends same⟩
  | rowRequestFall => exact ⟨_, rfl, Reports.attends same⟩
  | _ => cases h

theorem exec_attends (i : Instr) : ∃ t, exec i s = .next t ∧ Attends s t := by
  cases hw : Wire.writeRequest i with
  | none => exact event_attends s hw
  | some w =>
    obtain ⟨k, g, p⟩ := w
    rcases exec_request i s hw with ⟨t, -, he⟩ | he
    · exact ⟨_, he, resetRequest_attends s t⟩
    · exact ⟨_, he, request_attends s k g (ownerAnswer_attends s i)⟩

end

/-- Every step keeps the attention output right (R181). -/
theorem step_keeps_attention {s t : State} (hs : s.attentionSound) (h : step s = .next t) : t.attentionSound := by
  unfold step at h
  split at h
  · cases h
    exact (reports_tick (.refl s)).attends.attention hs
  · next c rest _ =>
    obtain ⟨u, hu, ha⟩ := exec_attends (s.setPending rest) c
    cases hu.symm.trans h
    exact ha.attention hs

/-- Settles O5, by what every command does to the Link Interface. -/
theorem attentionFollowsTheQueue : Obligations.AttentionFollowsTheQueue :=
  ⟨fun _ _ hs h => step_keeps_attention hs h, rfl, rfl⟩

/-- Settles O1: the second clause by the same walk over the commands. -/
theorem stepRunsTheFrontCommand : Obligations.StepRunsTheFrontCommand := by
  refine ⟨fun s c rest h => ?_, fun c s => ?_⟩
  · unfold step
    rw [h]
    rfl
  · obtain ⟨t, ht, ha⟩ := exec_attends s c
    exact ⟨t, ht, ha.pending⟩

end Sys2Proof.Machine
end

section
/-! PROOFS. The state after reset (O3), refused and discarded requests (O13), the notice masks (O57), and the begin and
end of replies and announcements (O58). -/

namespace Sys2Proof.Machine

open Sys2Proof

/-! ## The state after reset (R177) -/

/-- The state after reset meets every condition that a step keeps. -/
theorem reset_sound :
    State.reset.queuesBounded ∧ State.reset.attentionSound ∧ State.reset.cutterSound
      ∧ State.reset.changeoverSound ∧ State.reset.haltedQuiet ∧ State.reset.stoppedEmpty
      ∧ State.reset.gaugeSound ∧ State.reset.portSound ∧ State.reset.counterInside
      ∧ State.reset.renderHeld ∧ State.reset.bundlesSound := by
  refine ⟨?_, rfl, ?_, ⟨rfl, rfl, rfl⟩, ?_, fun _ => ⟨rfl, rfl⟩, ?_, ?_, ?_, ?_, ?_⟩
  · simp [State.queuesBounded, State.reset]
  · simp [State.cutterSound, State.reset]
  · simp [State.haltedQuiet, State.reset]
  · simp [State.gaugeSound, State.reset, verifying]
  · simp [State.portSound, State.reset]
  · simp [State.counterInside, State.reset]
  · simp [State.renderHeld, State.reset, Slot.initial]
  · simp [State.bundlesSound, Bin.bundleSound, State.reset, Bin.initial, Bundle.emptied]

/-- A reset finding the estop input asserted enters HALTED from the fresh state (R177, R17): all outputs are dropped
already, and the entry's notice is the first. -/
theorem resetAll_halted {s : State} (h : s.pins.estop = true) : resetAll s = { freshState s with
    ltr := { (freshState s).ltr with lineState := .halted }
    lif := { (freshState s).lif with
      nextSeq := 1, attention := true, notices := [{ seq := 0, notice := .lineState .halted .stopped .estop }] } } := by
  have hnotices : (freshState s).haltNotices = [.lineState .halted .stopped .estop] := rfl
  have hidle : verifying (freshState s) = false := rfl
  have hraised := raise_queued (freshState s).lif (.lineState .halted .stopped .estop)
    (BitVec.getLsbD_allOnes (v := 17) (i := 16)) (by decide : 0 < 64)
  rw [resetAll, if_pos h, enterHalted_eq, hnotices]
  refine State.eq_of_blocks ⟨rfl, rfl, by simp [hidle], rfl, rfl, rfl, rfl, rfl, ?_, ?_, rfl, rfl, hraised, rfl, rfl⟩
  · simp [freshState, State.reset]
  · simp [freshState, State.reset, Bin.initial]

/-- Settles O3: the conditions on the reset state, then the three commands. -/
theorem resetLeavesTheInitialState : Obligations.ResetLeavesTheInitialState := by
  refine ⟨reset_sound, fun s => ⟨fun g hr => ?_, fun stn rate he => ?_, fun stn rate he => ?_⟩⟩
  · refine next_congr ?_
    rw [resetRequest, hr]
    rfl
  · have hfresh : powerOn stn rate s = freshState (s.setPins { s.pins with stn := stn, rate := rate }) :=
      if_neg (by simp [he])
    exact next_congr hfresh
  · exact next_congr (resetAll_halted (s := s.setPins { s.pins with stn := stn, rate := rate }) he)

/-! ## Refused and discarded requests (R173 to R175) -/

/-- A frame that finds a reply pending, before the reply begins and while it is being sent (R173, R175). -/
theorem frameWhilePending_eq (s : State) (r : Reply) : s.frameWhilePending r =
    if r.begun = true then s
    else { s with lif := { s.lif with pendingDiscards := min (s.lif.pendingDiscards + 1) 65535 } } := rfl

/-- A request that finds a reply pending is a frame that does (R173). -/
theorem exec_request_pending {i : Instr} {s : State} {r : Reply} {k g : Byte} {p : List Byte}
    (hw : Wire.writeRequest i = some (k, g, p)) (hr : s.lif.reply = some r) :
    exec i s = .next (s.frameWhilePending r) := by
  rcases exec_request i s hw with ⟨t, -, he⟩ | he <;> rw [he]
  · rw [resetRequest, hr]
  · rw [request_pending k g _ s r hr]

/-- A request with no reply pending before: what its owner answers, RESET's owner the LIF itself (R174, R177). -/
theorem exec_request_free {i : Instr} {s : State} {k g : Byte} {p : List Byte}
    (hw : Wire.writeRequest i = some (k, g, p)) (hr : s.lif.reply = none) :
    (∃ t, exec i s = .next (s.setReply 0x78#8 t .ok [] true))
      ∨ exec i s = .next (s.answered k g (ownerAnswer i s)) := by
  rcases exec_request i s hw with ⟨t, -, he⟩ | he
  · refine .inl ⟨t, ?_⟩
    rw [he, resetRequest, hr]
  · exact .inr (he.trans (request_answered hr k g _))

/-- An answer whose code is not OK is a refusal. -/
theorem answered_refused {s : State} {k g : Byte} {a : Answer} {r : Reply} (h : (s.answered k g a).lif.reply = some r)
    (hc : r.code ≠ .ok) : s.answered k g a = s.refusedWith k g r.code := by
  cases a with
  | ok a =>
    simp only [State.answered, Lif.answering, Option.some.injEq] at h
    exact absurd (h ▸ rfl) hc
  | error c =>
    simp only [State.answered, State.refusedWith, Lif.answering, Option.some.injEq] at h
    rw [← h]
    rfl

/-- Settles O13, by what a request does with and without a reply pending. -/
theorem requestsChangeNothingWhenRefused : Obligations.RequestsChangeNothingWhenRefused := by
  refine ⟨fun i k g p s t r hw hr he ht hc => ?_, fun i k g p s r hw hr => ?_⟩
  · rcases exec_request_free hw hr with ⟨g', h⟩ | h
    · cases h.symm.trans he
      simp only [State.setReply_reply, Option.some.injEq] at ht
      exact absurd (ht ▸ rfl) hc
    · cases h.symm.trans he
      exact answered_refused ht hc
  · rw [exec_request_pending hw hr, frameWhilePending_eq]
    exact ⟨fun h => by simp [h], fun h => by simp [h]⟩

/-! ## The notice masks (R183) -/

/-- A mask names a kind above the 17 exactly when it is 2^17 or more. -/
theorem two_pow_le_iff_bit (m : BitVec 32) : 131072 ≤ m.toNat ↔ ∃ k, 17 ≤ k ∧ m.getLsbD k = true := by
  constructor
  · exact fun h => Nat.exists_ge_and_testBit_of_ge_two_pow (n := 17) h
  · rintro ⟨k, hk, hm⟩
    calc 131072 ≤ 2 ^ k := Nat.pow_le_pow_right (n := 2) (by decide) hk
      _ ≤ m.toNat := Nat.ge_two_pow_of_testBit hm

/-- LINE_CLEAR leaves the masks (R183). -/
theorem lineClear_masks (s : State) : Meets (fun t => t.lif.masks = s.lif.masks) (lineClear s) := by
  simp only [lineClear, meets_refuseIf, meets_taken]
  intro _ _
  obtain ⟨-, hm, -⟩ := reports_clearAll (.refl s)
  exact hm

/-- Settles O57, by the mask as a number. -/
theorem noticeMaskReplacesTheEnables : Obligations.NoticeMaskReplacesTheEnables := by
  refine ⟨fun k hk => BitVec.getLsbD_allOnes.trans (decide_eq_true hk), fun g m s hr => ⟨fun h => ?_, fun h => ?_, fun t ht => ?_⟩⟩
  · refine (request_answered hr 0x7C#8 g (noticeMask m)).trans (next_congr ?_)
    simp [noticeMask, (two_pow_le_iff_bit m).mpr h]
  · have hlow : ¬ 131072 ≤ m.toNat := fun hle => by
      obtain ⟨k, hk, hm⟩ := (two_pow_le_iff_bit m).mp hle
      simp [h k hk] at hm
    refine ⟨m.setWidth 17, (request_answered hr 0x7C#8 g (noticeMask m)).trans (next_congr ?_),
      fun k hk => by simp [hk]⟩
    rw [noticeMask, decide_eq_false hlow]
    rfl
  · have he : exec (.lineClear g) s = .next (s.answered 0x13#8 g (lineClear s)) := request_answered hr _ _ _
    cases he.symm.trans ht
    cases ha : lineClear s with
    | error c => rfl
    | ok a => exact lineClear_masks s a.1 a.2 ha

/-! ## Replies and announcements (R175, R177, R185) -/

/-- A reset depends on the pins, the queue and the count of free values alone. -/
theorem resetAll_setLif (s : State) (v : Lif) : resetAll (s.setLif v) = resetAll s := rfl

/-- Settles O58, by the stage of the pending reply and by the announce queue. -/
theorem repliesAndAnnouncements : Obligations.RepliesAndAnnouncements := by
  refine ⟨fun s => ⟨fun hn => ⟨next_congr ?_, next_congr ?_⟩, fun r hr hb => ⟨next_congr ?_, next_congr ?_⟩,
    fun r hr hb => ⟨next_congr ?_, fun ha => next_congr ?_, fun ha => next_congr ?_⟩⟩,
    fun s => ⟨fun hn => next_congr ?_, fun a rest ha => next_congr ?_⟩⟩
  · rw [replyBegins, hn]
  · rw [replySent, hn]
  · simp [replySent, hr, hb]
  · simp [replyBegins, hr, hb, State.setLif, hunting, bump]
  · simp [replyBegins, hr, hb]
  · simp [replySent, hr, hb, ha, State.setLif, hunting, bump]
  · simp only [replySent, hr, hb, ha, if_true, resetAll_setLif]
    rfl
  · rw [announceSent, hn]
  · rw [announceSent, ha]
    rfl

end Sys2Proof.Machine
end

section
/-! PROOFS. The framers of the two links (O59), and a whole frame taken byte by byte. -/

namespace Sys2Proof.Machine

open Sys2Proof

/-! ## The CRC (R160) -/

theorem crcShifts_succ (k : Nat) (r : BitVec 16) : crcShifts (k + 1) r = crcShift (crcShifts k r) := by
  induction k generalizing r with
  | zero => rfl
  | succ k ih => exact ih (crcShift r)

theorem crc16_concat (bs : List Byte) (b : Byte) : crc16 (bs ++ [b]) = crcByte (crc16 bs) b := by
  simp [crc16, List.foldl_append]

/-- The worked example of R160, byte by byte. -/
theorem crc16_digits :
    crc16 [0x31#8, 0x32#8, 0x33#8, 0x34#8, 0x35#8, 0x36#8, 0x37#8, 0x38#8, 0x39#8] = 0x29B1#16 := by
  have h1 : crcByte 0xFFFF#16 0x31#8 = 0xC782#16 := by decide
  have h2 : crcByte 0xC782#16 0x32#8 = 0x3DBA#16 := by decide
  have h3 : crcByte 0x3DBA#16 0x33#8 = 0x5BCE#16 := by decide
  have h4 : crcByte 0x5BCE#16 0x34#8 = 0x5349#16 := by decide
  have h5 : crcByte 0x5349#16 0x35#8 = 0x4560#16 := by decide
  have h6 : crcByte 0x4560#16 0x36#8 = 0x2EF4#16 := by decide
  have h7 : crcByte 0x2EF4#16 0x37#8 = 0x7718#16 := by decide
  have h8 : crcByte 0x7718#16 0x38#8 = 0xA12B#16 := by decide
  have h9 : crcByte 0xA12B#16 0x39#8 = 0x29B1#16 := by decide
  simp only [crc16, List.foldl_cons, List.foldl_nil, h1, h2, h3, h4, h5, h6, h7, h8, h9]

/-! ## One byte (R172) -/

@[simp] theorem Lif.setFramer_setFramer (l : Lif) (f f' : Framer) (k : Link) :
    (l.setFramer f k).setFramer f' k = l.setFramer f' k := by cases k <;> rfl

@[simp] theorem Lif.framer_setFramer (l : Lif) (f : Framer) (k : Link) : (l.setFramer f k).framer k = f := by
  cases k <;> rfl

@[simp] theorem Lif.setFramer_reply (l : Lif) (f : Framer) (k : Link) : (l.setFramer f k).reply = l.reply := by
  cases k <;> rfl

/-- The framer that a link has already. -/
theorem Lif.setFramer_eq {l : Lif} {f : Framer} {k : Link} (h : l.framer k = f) : l.setFramer f k = l := by
  subst h
  cases k <;> rfl

theorem receiverOff_setFramer (s : State) (f : Framer) (k : Link) :
    receiverOff (s.setLif (s.lif.setFramer f k)) k = receiverOff s k := by
  cases k <;> rfl

/-- The receiver is on but for the control link's while a reply is being sent (R175). -/
theorem receiverOff_false {s : State} {k : Link} (h : k = .control → ∀ r, s.lif.reply = some r → r.begun = false) :
    receiverOff s k = false := by
  cases k with
  | scan => rfl
  | control =>
    cases hr : s.lif.reply with
    | none => simp [receiverOff, hr]
    | some r => simp [receiverOff, hr, h rfl r hr]

section
variable {k : Link} {b : Byte} {bytes : List Byte} {s : State} (hon : receiverOff s k = false)
include hon

theorem framerByte_hunt (hf : s.lif.framer k = { state := .hunt, bytes := bytes }) :
    framerByte k b s = huntByte k b s := by simp [framerByte, hon, hf]

theorem framerByte_header (hf : s.lif.framer k = { state := .header, bytes := bytes }) :
    framerByte k b s = headerByte k (bytes ++ [b]) s := by simp [framerByte, hon, hf]

theorem framerByte_payload (hf : s.lif.framer k = { state := .payload, bytes := bytes }) :
    framerByte k b s = payloadByte k (bytes ++ [b]) s := by simp [framerByte, hon, hf]

theorem framerByte_crc (hf : s.lif.framer k = { state := .crc, bytes := bytes }) :
    framerByte k b s = crcByteTaken k (bytes ++ [b]) s := by simp [framerByte, hon, hf]

end

/-- The length in a header just completed (R172). -/
theorem headerLength_concat {bytes : List Byte} (h : bytes.length = 4) (b : Byte) :
    headerLength (bytes ++ [b]) = (bytes.getD 3 0#8).toNat * 256 + b.toNat := by
  match bytes, h with
  | [_, _, _, _], _ => rfl

/-- The two CRC bytes that end a frame of n payload bytes. -/
theorem u2_last {bytes : List Byte} {n : Nat} (h : bytes.length + 1 = 7 + n) (b : Byte) :
    Wire.u2 (bytes ++ [b]) (5 + n) = (bytes.getD (5 + n) 0#8).toNat * 256 + b.toNat := by
  have hlast : 5 + n + 1 = bytes.length := by omega
  simp [Wire.u2, Wire.u1, Wire.byteAt, List.getElem?_append, hlast, show 5 + n < bytes.length by omega]

/-- A wrong CRC at the second CRC byte (R172, R173). -/
theorem crcByteTaken_wrong {k : Link} {bytes : List Byte} {b : Byte} {n : Nat} (s : State)
    (hn : headerLength (bytes ++ [b]) = n) (h : bytes.length + 1 = 7 + n)
    (hc : (crc16 (bytes.take (5 + n))).toNat ≠ (bytes.getD (5 + n) 0#8).toNat * 256 + b.toNat) :
    crcByteTaken k (bytes ++ [b]) s = discard k (fun c => { c with crcErrors := bump c.crcErrors }) s := by
  have htake : (bytes ++ [b]).take (5 + n) = bytes.take (5 + n) := List.take_append_of_le_length (by omega)
  have hcheck : ¬ (crc16 ((bytes ++ [b]).take (5 + n))).toNat = Wire.u2 (bytes ++ [b]) (5 + n) := by
    rwa [htake, u2_last h]
  unfold crcByteTaken
  rw [hn, if_neg (by simp; omega)]
  unfold frameCheck
  dsimp only
  rw [hn, if_neg hcheck]
  rfl

/-- Settles O59, state by state of the framer. -/
theorem framerTakesBytes : Obligations.FramerTakesBytes := by
  refine ⟨⟨rfl, fun bs b => ⟨fun k => crcShifts k (crc16 bs ^^^ (b.setWidth 16 <<< 8)), rfl,
    fun k _ => crcShifts_succ k _, crc16_concat bs b⟩, crc16_digits⟩, fun l f c => ⟨rfl, rfl, rfl, rfl, rfl, rfl⟩,
    fun bytes => rfl, fun b s r hr hb => next_congr ?_, fun k b st bytes s hf hon => ?_⟩
  · simp [framerByte, receiverOff, hr, hb]
  have hon := receiverOff_false hon
  refine ⟨?_, ?_, ?_, ?_, ?_, ?_, ?_, ?_, ?_, ?_, ?_, ?_⟩
  · rintro rfl rfl
    exact next_congr (framerByte_hunt hon hf)
  · rintro rfl hb
    exact next_congr ((framerByte_hunt hon hf).trans (if_neg hb))
  · rintro rfl hl
    exact next_congr ((framerByte_header hon hf).trans (if_pos (by simp; omega)))
  · rintro rfl hl hz
    refine next_congr ((framerByte_header hon hf).trans ?_)
    unfold headerByte
    rw [headerLength_concat hl, hz, if_neg (by simp [hl]), if_neg (by decide), if_pos rfl]
    rfl
  · rintro rfl hl h1 h2
    refine next_congr ((framerByte_header hon hf).trans ?_)
    unfold headerByte
    rw [headerLength_concat hl, if_neg (by simp [hl]), if_neg (by simpa [Config.maxPayload] using h2),
      if_neg (by omega)]
    rfl
  · rintro rfl hl h
    refine next_congr ((framerByte_header hon hf).trans ?_)
    unfold headerByte
    rw [headerLength_concat hl, if_neg (by simp [hl]), if_pos (by simpa [Config.maxPayload] using h)]
    rfl
  · rintro rfl hl
    refine next_congr ((framerByte_payload hon hf).trans ?_)
    rw [payloadByte, if_pos (by simpa using hl)]
    rfl
  · rintro rfl hl
    refine next_congr ((framerByte_payload hon hf).trans ?_)
    rw [payloadByte, if_neg (by simp; omega)]
    rfl
  · rintro rfl hl
    exact next_congr ((framerByte_crc hon hf).trans (if_pos (by simp; omega)))
  · rintro rfl hl hc
    exact next_congr ((framerByte_crc hon hf).trans (crcByteTaken_wrong s rfl hl hc))
  · rintro rfl
    exact next_congr (if_pos (by simp [hf]))
  · intro hst
    exact next_congr (if_neg (by simpa [hf] using hst))

end Sys2Proof.Machine
end

section
/-! PROOFS. Requests read back from their kind, tag and payload (O10): what each reader of a field finds in what the
writer of the field has written, then the requests one by one. -/

namespace Sys2Proof.Machine

open Sys2Proof Wire

/-! ## Bytes and integers (section 12.6) -/

@[simp] theorem byteAt_append {xs : List Byte} {i : Nat} (p : List Byte) (h : xs.length ≤ i) :
    byteAt (xs ++ p) i = byteAt p (i - xs.length) := by
  simp [byteAt, List.getElem?_append_right h]

@[simp] theorem byteAt_cons (b : Byte) (p : List Byte) : byteAt (b :: p) 0 = b := rfl
@[simp] theorem byteAt_cons_succ (b : Byte) (p : List Byte) (i : Nat) : byteAt (b :: p) (i + 1) = byteAt p i := rfl
@[simp] theorem u1_cons_succ (b : Byte) (p : List Byte) (i : Nat) : u1 (b :: p) (i + 1) = u1 p i := rfl
@[simp] theorem u2_cons_succ (b : Byte) (p : List Byte) (i : Nat) : u2 (b :: p) (i + 1) = u2 p i := rfl

section
variable {xs : List Byte} {i : Nat} (p : List Byte) (h : xs.length ≤ i)
include h

@[simp] theorem u1_append : u1 (xs ++ p) i = u1 p (i - xs.length) := by rw [u1, byteAt_append p h, u1]

@[simp] theorem u2_append : u2 (xs ++ p) i = u2 p (i - xs.length) := by
  rw [u2, u1_append p h, u1_append p (i := i + 1) (by omega), u2, Nat.sub_add_comm h]

@[simp] theorem u4_append : u4 (xs ++ p) i = u4 p (i - xs.length) := by
  rw [u4, u2_append p h, u2_append p (by omega), u4, Nat.sub_add_comm h]

@[simp] theorem i2_append : i2 (xs ++ p) i = i2 p (i - xs.length) := by rw [i2, u2_append p h, i2]

@[simp] theorem wantedAt_append : wantedAt (xs ++ p) i = wantedAt p (i - xs.length) := by rw [wantedAt, u1_append p h, wantedAt]

@[simp] theorem bytesAt_append (n : Nat) : bytesAt (xs ++ p) i n = bytesAt p (i - xs.length) n := by
  simp [bytesAt, List.drop_append, List.drop_eq_nil_of_le h]

end

@[simp] theorem u1_be1 {n : Nat} (h : n < 256) (p : List Byte) : u1 (be1 n ++ p) 0 = n := by
  simp [u1, be1, Nat.mod_eq_of_lt h]

@[simp] theorem u2_be2 {n : Nat} (h : n < 65536) (p : List Byte) : u2 (be2 n ++ p) 0 = n := by
  simp [u2, u1, byteAt, be2]
  omega

@[simp] theorem u4_be4 {n : Nat} (h : n < 4294967296) (p : List Byte) : u4 (be4 n ++ p) 0 = n := by
  simp [u4, u2, u1, byteAt, be4]
  omega

@[simp] theorem i2_sbe2 {n : Int} (hl : -32768 ≤ n) (hu : n ≤ 32767) (p : List Byte) : i2 (sbe2 n ++ p) 0 = n := by
  rw [i2, sbe2, u2_be2 (by simpa using (BitVec.ofInt 16 n).isLt), BitVec.ofNat_toNat, BitVec.setWidth_eq, BitVec.toInt_ofInt]
  exact Int.bmod_eq_of_le (by omega) (by omega)

/-! A field that ends the payload. -/

@[simp] theorem u1_be1_last {n : Nat} (h : n < 256) : u1 (be1 n) 0 = n := u1_be1 h []
@[simp] theorem u2_be2_last {n : Nat} (h : n < 65536) : u2 (be2 n) 0 = n := u2_be2 h []
@[simp] theorem u4_be4_last {n : Nat} (h : n < 4294967296) : u4 (be4 n) 0 = n := u4_be4 h []
@[simp] theorem i2_sbe2_last {n : Int} (hl : -32768 ≤ n) (hu : n ≤ 32767) : i2 (sbe2 n) 0 = n := i2_sbe2 hl hu []

/-- A match field, whose number is never that of ANY. -/
@[simp] theorem wantedAt_beWanted {w : Wanted} (h : fitsWanted w = true) (p : List Byte) : wantedAt (beWanted w ++ p) 0 = w := by
  cases w with
  | any => rfl
  | only n =>
    have hn : n < 255 := by simpa [fitsWanted] using h
    rw [wantedAt, beWanted, u1_be1 (by omega), if_neg (by omega)]

@[simp] theorem length_beWanted (w : Wanted) : (beWanted w).length = 1 := by cases w <;> rfl
@[simp] theorem length_sbe2 (n : Int) : (sbe2 n).length = 2 := length_be2 _

/-- A text that fills its field is the field. -/
@[simp] theorem beText_full {n : Nat} {t : Text} (h : t.length = n) : beText n t = t := by
  rw [beText_eq h.le, h, Nat.sub_self, List.replicate_zero, List.append_nil]

@[simp] theorem bytesAt_full {n : Nat} {t : Text} (h : t.length = n) (p : List Byte) : bytesAt (t ++ p) 0 n = t := by
  rw [bytesAt, List.drop_zero, List.take_left' h]

/-! ## Lists -/

/-- Entries of w bytes each, written one after another, are read back by a reader that finds one at any offset. -/
theorem read_flatMap {α : Type} {f : α → List Byte} {read : List Byte → Nat → α} {w : Nat}
    (hskip : ∀ {xs : List Byte} {i : Nat} (p : List Byte), xs.length ≤ i → read (xs ++ p) i = read p (i - xs.length))
    {xs : List α} (hlen : ∀ x ∈ xs, (f x).length = w) (hread : ∀ x ∈ xs, ∀ p, read (f x ++ p) 0 = x) (p : List Byte) :
    (List.range xs.length).map (fun k => read (xs.flatMap f ++ p) (w * k)) = xs := by
  induction xs with
  | nil => rfl
  | cons x xs ih =>
    have hx : (f x).length = w := hlen x List.mem_cons_self
    have hrest := ih (fun y hy => hlen y (List.mem_cons_of_mem _ hy)) fun y hy => hread y (List.mem_cons_of_mem _ hy)
    rw [List.length_cons, List.range_succ_eq_map, List.map_cons, List.map_map, List.flatMap_cons, List.append_assoc,
      Nat.mul_zero, hread x List.mem_cons_self]
    congr 1
    refine Eq.trans (List.map_congr_left fun k _ => ?_) hrest
    have hle : (f x).length ≤ w * (k + 1) := by rw [hx]; exact Nat.le_mul_of_pos_right _ k.succ_pos
    rw [Function.comp, hskip _ hle, hx, Nat.mul_succ, Nat.add_sub_cancel]

theorem list1_flatMap {ns : List Nat} {n : Nat} (hn : ns.length = n) (h : ns.all fits1 = true) (p : List Byte) :
    list1 (ns.flatMap be1 ++ p) 0 n = ns := by
  subst hn
  simpa [list1] using read_flatMap (w := 1) u1_append (fun _ _ => length_be1 _)
    (fun x hx => u1_be1 (by simpa [fits1] using List.all_eq_true.mp h x hx)) p

theorem list2_flatMap {ns : List Nat} {n : Nat} (hn : ns.length = n) (h : ns.all fits2 = true) (p : List Byte) :
    list2 (ns.flatMap be2 ++ p) 0 n = ns := by
  subst hn
  simpa [list2] using read_flatMap (w := 2) u2_append (fun _ _ => length_be2 _)
    (fun x hx => u2_be2 (by simpa [fits2] using List.all_eq_true.mp h x hx)) p

theorem list4_flatMap {ns : List Nat} {n : Nat} (hn : ns.length = n) (h : ns.all fits4 = true) (p : List Byte) :
    list4 (ns.flatMap be4 ++ p) 0 n = ns := by
  subst hn
  simpa [list4] using read_flatMap (w := 4) u4_append (fun _ _ => length_be4 _)
    (fun x hx => u4_be4 (by simpa [fits4] using List.all_eq_true.mp h x hx)) p

@[simp] theorem length_flatMap_be1 (ns : List Nat) : (ns.flatMap be1).length = ns.length := by
  simp [List.length_flatMap]
@[simp] theorem length_flatMap_be2 (ns : List Nat) : (ns.flatMap be2).length = ns.length * 2 := by
  simp [List.length_flatMap]
@[simp] theorem length_flatMap_be4 (ns : List Nat) : (ns.flatMap be4).length = ns.length * 4 := by
  simp [List.length_flatMap]

@[simp] theorem list2_append {xs : List Byte} {i : Nat} (p : List Byte) (h : xs.length ≤ i) (n : Nat) :
    list2 (xs ++ p) i n = list2 p (i - xs.length) n :=
  List.map_congr_left fun k _ => by rw [u2_append p (by omega), Nat.sub_add_comm h]

/-- A Grade Table row written where it is read (R39). -/
theorem gradeRowAt_bytes {r : GradeRow} (h : fitsGradeRow r = true) (p : List Byte) :
    gradeRowAt (gradeRowBytes r ++ p) 0 = r := by
  simp only [fitsGradeRow, fits2, Bool.and_eq_true, beq_iff_eq, decide_eq_true_eq] at h
  obtain ⟨⟨⟨hname, hlen⟩, hsev⟩, hdlim⟩ := h
  have hs : list1 (r.name ++ (r.maxsev.flatMap be1 ++ (be2 r.dlim ++ p))) 8 8 = r.maxsev := by
    refine Eq.trans (List.map_congr_left fun k _ => ?_) (list1_flatMap hlen hsev (be2 r.dlim ++ p))
    rw [u1_append _ (by omega), hname, Nat.zero_add, Nat.add_sub_cancel_left]
  simp [gradeRowAt, gradeRowBytes, hname, hlen, hdlim, hs]

theorem gradeRowAt_append {xs : List Byte} {i : Nat} (p : List Byte) (h : xs.length ≤ i) :
    gradeRowAt (xs ++ p) i = gradeRowAt p (i - xs.length) := by
  have h8 : xs.length ≤ i + 8 := by omega
  have h16 : xs.length ≤ i + 16 := by omega
  have hs : list1 (xs ++ p) (i + 8) 8 = list1 p (i - xs.length + 8) 8 :=
    List.map_congr_left fun k _ => by rw [u1_append p (by omega)]; congr 1; omega
  rw [gradeRowAt, bytesAt_append p h, hs, u2_append p h16, Nat.sub_add_comm h, gradeRowAt]

theorem length_gradeRowBytes {r : GradeRow} (h : fitsGradeRow r = true) : (gradeRowBytes r).length = 18 := by
  simp only [fitsGradeRow, Bool.and_eq_true, beq_iff_eq] at h
  obtain ⟨⟨⟨-, hlen⟩, -⟩, -⟩ := h
  simp [gradeRowBytes, hlen]

theorem length_gradeRows {rows : List GradeRow} {n : Nat} (hn : rows.length = n)
    (h : rows.all fitsGradeRow = true) : (rows.flatMap gradeRowBytes).length = 18 * n := by
  rw [List.length_flatMap, List.map_congr_left fun x hx => length_gradeRowBytes (List.all_eq_true.mp h x hx)]
  simp [hn, Nat.mul_comm]

/-- The rows of GRADE_SET (R39). -/
theorem gradeRows_flatMap {rows : List GradeRow} {n : Nat} (hn : rows.length = n) (h : rows.all fitsGradeRow = true) :
    (List.range n).map (fun k => gradeRowAt (be1 n ++ rows.flatMap gradeRowBytes) (1 + 18 * k)) = rows := by
  subst hn
  have hrow := List.all_eq_true.mp h
  refine Eq.trans (List.map_congr_left fun k _ => ?_) (read_flatMap (w := 18) gradeRowAt_append
    (fun x hx => length_gradeRowBytes (hrow x hx)) (fun x hx => gradeRowAt_bytes (hrow x hx)) [])
  rw [gradeRowAt_append _ (by simp), length_be1, Nat.add_sub_cancel_left, List.append_nil]

end Sys2Proof.Machine
end

section
/-! PROOFS. Every well-formed request reads back (O10), and the frame that carries it is taken byte by byte with the effect
of the request (O11). -/

namespace Sys2Proof.Machine

open Sys2Proof Wire

/-! ## Requests read back (section 12.6) -/

/-- A kind that has a length and a reader, of which the one is that of the payload and the other finds the request. -/
theorem parseRequest_ok {k g : Byte} {p : List Byte} {i j : Instr} {b : Bool} (hl : lengthFits k.toNat p = some b)
    (hr : readRequest k.toNat g p = some j) (hb : b = true) (hj : j = i) : parseRequest k g p = .ok i := by
  subst hb hj
  simp [parseRequest, hl, hr]

/-- The length of GLYPH_WRITE's payload fits its set and its count (section 12.6). -/
theorem glyphLengthFits_bytes {st f n : Nat} {d : List Byte} (h : fitsGlyphs st f n d = true) :
    glyphLengthFits (be1 st ++ be1 f ++ be1 n ++ d) = true := by
  simp only [fitsGlyphs, fits1, Bool.and_eq_true, decide_eq_true_eq, beq_iff_eq] at h
  obtain ⟨⟨⟨⟨hst, hf⟩, hn⟩, hd⟩, -⟩ := h
  have hst' : st < 256 := by omega
  obtain rfl | rfl : st = 0 ∨ st = 1 := by omega
  · simp [glyphLengthFits, hn, hd]; omega
  · simp [glyphLengthFits, hn, hd]; omega

/-- A request is read back from its kind, tag and payload. -/
def ReadsBack (i : Instr) : Prop :=
  ∀ (k g : Byte) (p : List Byte), i.wellFormed = true → writeRequest i = some (k, g, p) → parseRequest k g p = .ok i

section
variable (t : Byte)

theorem readsBack_lineGeometry (g : Geometry) : ReadsBack (.lineGeometry t g) := by
  rintro _ _ _ hwf ⟨⟩
  simp only [Instr.wellFormed, fitsGeometry, fits1, fits2, Bool.and_eq_true, decide_eq_true_eq] at hwf
  exact parseRequest_ok rfl rfl (by simp [geometryBytes]) (by simp [geometryBytes, hwf])

theorem readsBack_orderLoad (k : Nat) (o : OrderFields) : ReadsBack (.orderLoad t k o) := by
  rintro _ _ _ hwf ⟨⟩
  simp only [Instr.wellFormed, fitsOrder, fits1, fits4, Bool.and_eq_true, beq_iff_eq, decide_eq_true_eq] at hwf
  exact parseRequest_ok rfl rfl (by simp) (by simp [hwf])

theorem readsBack_paceSet (p : PaceSettings) : ReadsBack (.paceSet t p) := by
  rintro _ _ _ hwf ⟨⟩
  simp only [Instr.wellFormed, fitsPace, fits1, fits2, Bool.and_eq_true, decide_eq_true_eq] at hwf
  exact parseRequest_ok rfl rfl (by simp [paceBytes]) (by simp [paceBytes, hwf])

theorem readsBack_profileSet (n : Nat) (p : ProfileSet) : ReadsBack (.profileSet t n p) := by
  rintro _ _ _ hwf ⟨⟩
  simp only [Instr.wellFormed, fitsProfile, fits1, fits2, Bool.and_eq_true, beq_iff_eq, decide_eq_true_eq] at hwf
  exact parseRequest_ok rfl rfl (by simp [profileBytes]) (by simp [profileBytes, hwf])

theorem readsBack_trimSet (x : TrimSettings) : ReadsBack (.trimSet t x) := by
  rintro _ _ _ hwf ⟨⟩
  simp only [Instr.wellFormed, fitsTrim, fitsI2, fits1, fits2, Bool.and_eq_true, decide_eq_true_eq] at hwf
  exact parseRequest_ok rfl rfl (by simp [trimBytes]) (by simp [trimBytes, hwf])

theorem readsBack_headsSet (x : HeadsSettings) : ReadsBack (.headsSet t x) := by
  rintro _ _ _ hwf ⟨⟩
  simp only [Instr.wellFormed, fitsHeads, fits2, fits4, Bool.and_eq_true, decide_eq_true_eq] at hwf
  exact parseRequest_ok rfl rfl (by simp [headsBytes]) (by simp [headsBytes, hwf])

theorem readsBack_binSet (n : Nat) (e : SortEntry) (b : BundleSettings) : ReadsBack (.binSet t n e b) := by
  rintro _ _ _ hwf ⟨⟩
  simp only [Instr.wellFormed, fitsSortEntry, fitsBundle, fits1, fits2, Bool.and_eq_true, decide_eq_true_eq] at hwf
  exact parseRequest_ok rfl rfl (by simp [sortEntryBytes, bundleSettingBytes]) (by simp [sortEntryBytes, bundleSettingBytes, hwf])

theorem readsBack_fieldSet (n : Nat) (u : Byte) (f : Field) : ReadsBack (.fieldSet t n u f) := by
  rintro _ _ _ hwf ⟨⟩
  simp only [Instr.wellFormed, fitsField, fits1, fits2, Bool.and_eq_true, decide_eq_true_eq] at hwf
  exact parseRequest_ok rfl rfl (by simp [fieldBytes]) (by simp [fieldAt, fieldBytes, hwf])

theorem readsBack_gradeSet (n : Nat) (rows : List GradeRow) : ReadsBack (.gradeSet t n rows) := by
  rintro _ _ _ hwf ⟨⟩
  simp only [Instr.wellFormed, Bool.and_eq_true, beq_iff_eq, decide_eq_true_eq] at hwf
  obtain ⟨⟨hn, hmax⟩, hrows⟩ := hwf
  have hcount : n < 256 := by unfold Config.maxPayload at hmax; omega
  refine parseRequest_ok rfl rfl ?_ ?_
  · simp [hcount, length_gradeRows hn hrows]
  · simp [hcount, gradeRows_flatMap hn hrows]

theorem readsBack_classSet (n : Nat) (bs : List Nat) : ReadsBack (.classSet t n bs) := by
  rintro _ _ _ hwf ⟨⟩
  simp only [Instr.wellFormed, Bool.and_eq_true, beq_iff_eq, fits1, decide_eq_true_eq] at hwf
  obtain ⟨⟨hcount, hn⟩, hbs⟩ := hwf
  have hread := list2_flatMap hn hbs []
  rw [List.append_nil] at hread
  refine parseRequest_ok rfl rfl ?_ ?_
  · simp [hcount, hn]
    omega
  · simp [hcount, hread]

theorem readsBack_gaugeTable (ms : List Nat) (tol : Nat) : ReadsBack (.gaugeTable t ms tol) := by
  rintro _ _ _ hwf ⟨⟩
  simp only [Instr.wellFormed, Bool.and_eq_true, beq_iff_eq, fits2, decide_eq_true_eq] at hwf
  obtain ⟨⟨hn, hms⟩, htol⟩ := hwf
  exact parseRequest_ok rfl rfl (by simp [hn]) (by simp [hn, htol, list4_flatMap hn hms])

theorem readsBack_weightSet (ws : List Nat) : ReadsBack (.weightSet t ws) := by
  rintro _ _ _ hwf ⟨⟩
  simp only [Instr.wellFormed, Bool.and_eq_true, beq_iff_eq] at hwf
  obtain ⟨hn, hws⟩ := hwf
  have hread := list1_flatMap hn hws []
  rw [List.append_nil] at hread
  exact parseRequest_ok rfl rfl (by simp [hn]) (by simp [hread])

theorem readsBack_valueSet (vs : List Nat) : ReadsBack (.valueSet t vs) := by
  rintro _ _ _ hwf ⟨⟩
  simp only [Instr.wellFormed, Bool.and_eq_true, beq_iff_eq] at hwf
  obtain ⟨hn, hvs⟩ := hwf
  have hread := list2_flatMap hn hvs []
  rw [List.append_nil] at hread
  exact parseRequest_ok rfl rfl (by simp [hn]) (by simp [hread])

theorem readsBack_glyphWrite (st f n : Nat) (d : List Byte) : ReadsBack (.glyphWrite t st f n d) := by
  rintro _ _ _ hwf ⟨⟩
  have hlen := glyphLengthFits_bytes hwf
  simp only [Instr.wellFormed, fitsGlyphs, fits1, Bool.and_eq_true, decide_eq_true_eq] at hwf
  obtain ⟨⟨⟨⟨hst, hf⟩, hn⟩, -⟩, -⟩ := hwf
  have hset : st < 256 := by omega
  have hrest : (be1 st ++ (be1 f ++ (be1 n ++ d))).drop 3 = d := rfl
  exact parseRequest_ok rfl rfl hlen (by simp [hset, hf, hn, hrest])

theorem readsBack_cartMask (a d : BitVec 16) : ReadsBack (.cartMask t a d) := by
  rintro _ _ _ - ⟨⟩
  exact parseRequest_ok rfl rfl rfl (by simp [a.isLt, d.isLt])

theorem readsBack_noticeMask (m : BitVec 32) : ReadsBack (.noticeMask t m) := by
  rintro _ _ _ - ⟨⟩
  exact parseRequest_ok rfl rfl rfl (by simp [m.isLt])

theorem readsBack_setDate (d : List Byte) : ReadsBack (.setDate t d) := by
  rintro _ _ _ hwf ⟨⟩
  simp only [Instr.wellFormed, beq_iff_eq] at hwf
  exact parseRequest_ok rfl rfl (by simp) (by simp [hwf])

end

/-- Settles O10: the length fits, and each reader finds its field. -/
theorem requestReadsBack : Obligations.RequestReadsBack := by
  intro i
  change ReadsBack i
  cases i with
  | lineGeometry t g => exact readsBack_lineGeometry t g
  | gaugeTable t ms tol => exact readsBack_gaugeTable t ms tol
  | gradeSet t n rows => exact readsBack_gradeSet t n rows
  | weightSet t ws => exact readsBack_weightSet t ws
  | classSet t n bs => exact readsBack_classSet t n bs
  | valueSet t vs => exact readsBack_valueSet t vs
  | orderLoad t k o => exact readsBack_orderLoad t k o
  | paceSet t p => exact readsBack_paceSet t p
  | profileSet t n p => exact readsBack_profileSet t n p
  | trimSet t x => exact readsBack_trimSet t x
  | headsSet t x => exact readsBack_headsSet t x
  | binSet t n e b => exact readsBack_binSet t n e b
  | cartMask t a d => exact readsBack_cartMask t a d
  | glyphWrite t st f n d => exact readsBack_glyphWrite t st f n d
  | fieldSet t n u f => exact readsBack_fieldSet t n u f
  | setDate t d => exact readsBack_setDate t d
  | noticeMask t m => exact readsBack_noticeMask t m
  | tplWrite t d =>
    rintro _ _ _ hwf ⟨⟩
    exact parseRequest_ok rfl rfl hwf rfl
  | stripRead | measureSet | planOptions | orderAmend | orderClose | orderRead | profileChange | sortSet | binClose
  | binDisable | binRead | manifestRead | manifestTake | tplWindow | tplAddr | tplOp | tplFill | tplRead | protectSet
  | printSet | noticePoll =>
    rintro _ _ _ hwf ⟨⟩
    simp only [Instr.wellFormed, fitsOptions, fitsRect, fitsPrint, fits1, fits2, fits4, fitsI2, Bool.and_eq_true,
      decide_eq_true_eq] at hwf
    exact parseRequest_ok rfl rfl (by simp [planOptionBytes, sortBytes, rectBytes, printBytes])
      (by simp [rectAt, planOptionBytes, sortBytes, rectBytes, printBytes, hwf])
  | _ => rintro _ _ _ - ⟨⟩ <;> rfl

end Sys2Proof.Machine
end

section
/-! PROOFS. A whole frame taken byte by byte (R172, R173): the request's frame as the request (O11), and the frames that
are no requests (O60). -/

namespace Sys2Proof.Machine

open Sys2Proof Wire

/-! ## A frame's bytes (section 12.6) -/

/-- The five header bytes of a frame with n payload bytes. -/
def header (st k g : Byte) (n : Nat) : List Byte := [st, k, g] ++ be2 n

theorem frameBytes_eq (st k g : Byte) (p : List Byte) :
    frameBytes st k g p
      = 0xA7#8 :: (header st k g p.length ++ p) ++ be2 (crc16 (header st k g p.length ++ p)).toNat := rfl

@[simp] theorem length_header (st k g : Byte) (n : Nat) : (header st k g n).length = 5 := rfl

/-- The length stands in the header, whatever follows it. -/
theorem headerLength_header {n : Nat} (h : n ≤ 1040) (st k g : Byte) (p : List Byte) :
    headerLength (header st k g n ++ p) = n := u2_be2 (by omega) p

/-! ## The framer in a frame -/

/-- The state with a link's framer in a frame of which it holds the bytes so far. -/
def State.framing (s : State) (k : Link) (st : FramerState) (bytes : List Byte) : State :=
  s.setLif (s.lif.setFramer { state := st, bytes := bytes } k)

@[simp] theorem framing_framing (s : State) (k : Link) (st st' : FramerState) (bs bs' : List Byte) :
    (s.framing k st bs).framing k st' bs' = s.framing k st' bs' := by
  simp [State.framing]

/-- A framer that hunts already. -/
theorem framing_hunt {s : State} {k : Link} (h : s.lif.framer k = hunting) : s.framing k .hunt [] = s := by
  have he : s.lif.setFramer { state := .hunt, bytes := [] } k = s.lif := Lif.setFramer_eq h
  rw [State.framing, he, State.setLif_self]

theorem framing_framer (s : State) (k : Link) (st : FramerState) (bytes : List Byte) :
    (s.framing k st bytes).lif.framer k = { state := st, bytes := bytes } := by simp [State.framing]

/-- The bytes of a frame taken one by one on a link. -/
def takeBytes (k : Link) (bs : List Byte) (s : State) : State := bs.foldl (fun u b => framerByte k b u) s

theorem takeBytes_append (k : Link) (bs bs' : List Byte) (s : State) :
    takeBytes k (bs ++ bs') s = takeBytes k bs' (takeBytes k bs s) := List.foldl_append

section
variable {k : Link} {s : State} (hon : receiverOff s k = false)
include hon

theorem receiverOn_framing (st : FramerState) (bytes : List Byte) : receiverOff (s.framing k st bytes) k = false :=
  (receiverOff_setFramer s _ k).trans hon

theorem framerByte_start (hf : s.lif.framer k = hunting) : framerByte k 0xA7#8 s = s.framing k .header [] :=
  (framerByte_hunt hon hf).trans (if_pos rfl)

theorem framerByte_framing_header {bytes : List Byte} (b : Byte) (h : bytes.length < 4) :
    framerByte k b (s.framing k .header bytes) = s.framing k .header (bytes ++ [b]) := by
  rw [framerByte_header (receiverOn_framing hon _ _) (framing_framer s k _ _), headerByte, if_pos (by simp; omega)]
  exact framing_framing s k _ _ _ _

/-- The byte that completes the header (R172). -/
theorem framerByte_framing_length {bytes : List Byte} (b : Byte) (h : bytes.length = 4)
    (hn : headerLength (bytes ++ [b]) ≤ 1040) :
    framerByte k b (s.framing k .header bytes)
      = s.framing k (if headerLength (bytes ++ [b]) = 0 then .crc else .payload) (bytes ++ [b]) := by
  rw [framerByte_header (receiverOn_framing hon _ _) (framing_framer s k _ _), headerByte, if_neg (by simp [h]),
    if_neg (by simpa [Config.maxPayload] using hn)]
  split <;> exact framing_framing s k _ _ _ _

theorem framerByte_framing_payload {bytes : List Byte} (b : Byte) :
    framerByte k b (s.framing k .payload bytes)
      = s.framing k (if bytes.length + 1 < 5 + headerLength (bytes ++ [b]) then .payload else .crc)
          (bytes ++ [b]) := by
  rw [framerByte_payload (receiverOn_framing hon _ _) (framing_framer s k _ _), payloadByte, List.length_append,
    List.length_singleton]
  exact framing_framing s k _ _ _ _

theorem takeBytes_header (st kd g : Byte) {n : Nat} (h : n ≤ 1040) :
    takeBytes k (header st kd g n) (s.framing k .header [])
      = s.framing k (if n = 0 then .crc else .payload) (header st kd g n) := by
  have hlen := headerLength_header h st kd g []
  rw [List.append_nil] at hlen
  have hlast := framerByte_framing_length hon (bytes := [st, kd, g, BitVec.ofNat 8 (n / 256)]) (BitVec.ofNat 8 n) rfl
    (hlen.trans_le h)
  simp only [takeBytes, header, be2, List.cons_append, List.nil_append, List.foldl_cons, List.foldl_nil]
  rw [framerByte_framing_header hon _ (by simp), framerByte_framing_header hon _ (by simp),
    framerByte_framing_header hon _ (by simp), framerByte_framing_header hon _ (by simp)]
  rw [show [st, kd, g, BitVec.ofNat 8 (n / 256)] ++ [BitVec.ofNat 8 n] = header st kd g n from rfl, hlen] at hlast
  exact hlast

/-- The payload, of which some bytes are taken already (R172). -/
theorem takeBytes_payload {hd : List Byte} {n : Nat} (hd5 : hd.length = 5)
    (hlen : ∀ q, headerLength (hd ++ q) = n) (q p : List Byte) (h : q.length + p.length = n) :
    takeBytes k p (s.framing k (if p = [] then .crc else .payload) (hd ++ q)) = s.framing k .crc (hd ++ (q ++ p)) := by
  induction p generalizing q with
  | nil => simp [takeBytes]
  | cons b p ih =>
    have hnext : (if (hd ++ q).length + 1 < 5 + headerLength (hd ++ q ++ [b]) then FramerState.payload else .crc)
        = if p = [] then .crc else .payload := by
      rw [List.append_assoc, hlen, List.length_append, hd5]
      cases p with
      | nil => exact if_neg (by simp at h; omega)
      | cons c p => exact if_pos (by simp at h; omega)
    have htaken := ih (q ++ [b]) (by simp at h ⊢; omega)
    rw [if_neg (List.cons_ne_nil b p)]
    refine Eq.trans (congrArg (takeBytes k p) ?_) (htaken.trans (by simp))
    exact (framerByte_framing_payload hon b).trans (by rw [hnext, List.append_assoc])

/-- The two CRC bytes: at the second the framer hunts again and the frame is checked (R172, R173). -/
theorem takeBytes_crc {body : List Byte} {n : Nat} (hbody : body.length = 5 + n)
    (hlen : ∀ q, headerLength (body ++ q) = n) (c : Nat) :
    takeBytes k (be2 c) (s.framing k .crc body) = frameCheck k (body ++ be2 c) (s.framing k .hunt []) := by
  have first : framerByte k (BitVec.ofNat 8 (c / 256)) (s.framing k .crc body)
      = s.framing k .crc (body ++ [BitVec.ofNat 8 (c / 256)]) := by
    rw [framerByte_crc (receiverOn_framing hon _ _) (framing_framer s k _ _), crcByteTaken, hlen,
      if_pos (by simp; omega)]
    exact framing_framing s k _ _ _ _
  have hall : body ++ [BitVec.ofNat 8 (c / 256)] ++ [BitVec.ofNat 8 c] = body ++ be2 c := by simp [be2]
  simp only [takeBytes, be2, List.foldl_cons, List.foldl_nil]
  rw [first, framerByte_crc (receiverOn_framing hon _ _) (framing_framer s k _ _), hall, crcByteTaken, hlen,
    if_neg (by simp; omega)]
  exact congrArg _ (framing_framing s k _ _ _ _)

end

/-- What a link does with a frame whose CRC is right (R173). -/
def linkFrame : Link → List Byte → List Byte → State → State
  | .control => controlFrame
  | .scan => scanLinkFrame

/-- The checks of a frame whose CRC is right (R173). -/
theorem frameCheck_sound (k : Link) (st kd g : Byte) {p : List Byte} (h : p.length ≤ 1040) (s : State) :
    frameCheck k (header st kd g p.length ++ p ++ be2 (crc16 (header st kd g p.length ++ p)).toNat) s
      = linkFrame k (header st kd g p.length ++ p) p s := by
  have hlen : ∀ q, headerLength (header st kd g p.length ++ p ++ q) = p.length := fun q => by
    rw [List.append_assoc]; exact headerLength_header h st kd g _
  have htake : ∀ q, (header st kd g p.length ++ p ++ q).take (5 + p.length) = header st kd g p.length ++ p :=
    fun q => List.take_left' (by simp)
  have hdrop : (header st kd g p.length ++ p).drop 5 = p := List.drop_left' rfl
  have hcrc : ∀ c : BitVec 16, u2 (header st kd g p.length ++ p ++ be2 c.toNat) (5 + p.length) = c.toNat := fun c => by
    rw [u2_append _ (by simp)]
    simp [c.isLt]
  unfold frameCheck
  simp only [hlen, htake, hdrop, hcrc, if_true]
  cases k <;> rfl

/-- A sound frame taken byte by byte by a hunting framer whose receiver is on: what its checks do with it, the framer
hunting again (R172, R173). -/
theorem takeBytes_frame {k : Link} {s : State} (hon : receiverOff s k = false) (hf : s.lif.framer k = hunting)
    (st kd g : Byte) {p : List Byte} (h : p.length ≤ 1040) :
    takeBytes k (frameBytes st kd g p) s = linkFrame k (header st kd g p.length ++ p) p s := by
  have hlen := headerLength_header h st kd g
  have hpayload := takeBytes_payload hon (length_header st kd g p.length) hlen [] p (by simp)
  simp only [List.append_nil, List.nil_append] at hpayload
  have hempty : (if p.length = 0 then FramerState.crc else .payload) = if p = [] then .crc else .payload := by
    simp only [List.length_eq_zero_iff]
  rw [frameBytes_eq, takeBytes_append, ← frameCheck_sound k st kd g h]
  change takeBytes k _ (takeBytes k (header st kd g p.length ++ p) (framerByte k 0xA7#8 s)) = _
  rw [framerByte_start hon hf, takeBytes_append, takeBytes_header hon st kd g h, hempty, hpayload,
    takeBytes_crc hon (n := p.length) (by simp) (fun q => by rw [List.append_assoc]; exact hlen _), framing_hunt hf]

end Sys2Proof.Machine
end

section
/-! PROOFS. The frames of the control link: requests (O11), broadcasts and the others (O60). -/

namespace Sys2Proof.Machine

open Sys2Proof Wire

/-! ## The station and the addressed frame (R173, R174) -/

theorem station_toNat (s : State) : (station s).toNat = 0x40 + s.lif.stn.toNat := by
  have hstn := s.lif.stn.isLt
  simp [station]
  omega

/-- A number of 16 bits in its two bytes. -/
theorem be2_toNat (c : BitVec 16) : ∃ hi lo : Byte, be2 c.toNat = [hi, lo] ∧ hi.toNat * 256 + lo.toNat = c.toNat := by
  have hc := c.isLt
  refine ⟨_, _, rfl, ?_⟩
  simp
  omega

/-- An addressed frame that reads as a request other than RESET is that request to its owner (R174). -/
theorem addressedFrame_request {k g : Byte} {p : List Byte} {i : Instr} (h : parseRequest k g p = .ok i)
    (hne : ∀ t, i ≠ .reset t) (s : State) : addressedFrame k g p s = request k g (ownerAnswer i) s := by
  unfold addressedFrame
  rw [h]
  split
  · next t he => cases he; exact absurd rfl (hne t)
  · next he => cases he; rfl
  · next he => cases he

/-- A request's frame received is the request (logs 4 and 5). -/
theorem exec_eq_addressedFrame {i : Instr} {k g : Byte} {p : List Byte} (hwf : i.wellFormed = true)
    (hw : writeRequest i = some (k, g, p)) (s : State) : exec i s = .next (addressedFrame k g p s) := by
  have hparse := requestReadsBack i k g p hwf hw
  by_cases hreset : ∃ t, i = .reset t
  · obtain ⟨t, rfl⟩ := hreset
    refine next_congr ?_
    unfold addressedFrame
    rw [hparse]
  · rw [addressedFrame_request hparse (fun t e => hreset ⟨t, e⟩)]
    rcases exec_request i s hw with ⟨t, e, -⟩ | he
    · exact absurd ⟨t, e⟩ hreset
    · exact he

/-- The payload of a well-formed request fits a frame (R172). -/
theorem length_payload_le {i : Instr} {k g : Byte} {p : List Byte} (hwf : i.wellFormed = true)
    (hw : writeRequest i = some (k, g, p)) : p.length ≤ 1040 := by
  cases i with
  | gradeSet t n rows =>
    cases hw
    simp only [Instr.wellFormed, Bool.and_eq_true, beq_iff_eq, decide_eq_true_eq] at hwf
    obtain ⟨⟨hn, hmax⟩, hrows⟩ := hwf
    rw [List.length_append, length_gradeRows hn hrows, length_be1]
    exact hmax
  | classSet t n bs =>
    cases hw
    simp only [Instr.wellFormed, fits1, Bool.and_eq_true, beq_iff_eq, decide_eq_true_eq] at hwf
    obtain ⟨⟨hn, hlen⟩, -⟩ := hwf
    simp [hlen]
    omega
  | gaugeTable t ms tol =>
    cases hw
    simp only [Instr.wellFormed, Bool.and_eq_true, beq_iff_eq] at hwf
    obtain ⟨⟨hlen, -⟩, -⟩ := hwf
    simp [hlen]
  | weightSet t ns | valueSet t ns =>
    cases hw
    simp only [Instr.wellFormed, Bool.and_eq_true, beq_iff_eq] at hwf
    obtain ⟨hlen, -⟩ := hwf
    simp [hlen]
  | tplWrite t d =>
    cases hw
    simp only [Instr.wellFormed, Bool.and_eq_true, decide_eq_true_eq] at hwf
    omega
  | glyphWrite t st f n d =>
    cases hw
    simp only [Instr.wellFormed, fitsGlyphs, Bool.and_eq_true, decide_eq_true_eq] at hwf
    obtain ⟨-, hlen⟩ := hwf
    unfold Config.maxPayload at hlen
    simp
    omega
  | orderLoad t k o =>
    cases hw
    simp
  | profileSet t n p =>
    cases hw
    simp [profileBytes]
  | _ =>
    cases hw <;> simp [geometryBytes, planOptionBytes, paceBytes, trimBytes, headsBytes, sortBytes, sortEntryBytes,
      bundleSettingBytes, rectBytes, fieldBytes, printBytes]

/-- The control receiver with no reply pending. -/
theorem receiverOn_control {s : State} (hr : s.lif.reply = none) : receiverOff s .control = false :=
  receiverOff_false fun _ r h => by rw [hr] at h; cases h

/-- Settles O11: the frame's layout, then the frame taken byte by byte as the addressed frame of the request. -/
theorem frameBytesAreTheRequest : Obligations.FrameBytesAreTheRequest := by
  refine ⟨station_toNat, fun st k g p _ => ?_, fun i k g p s hwf hw hf hr => ?_⟩
  · obtain ⟨hi, lo, he, hn⟩ := be2_toNat (crc16 (header st k g p.length ++ p))
    refine ⟨hi, lo, ?_, hn⟩
    rw [frameBytes_eq, he]
    rfl
  · rw [exec_eq_addressedFrame hwf hw]
    have htaken := takeBytes_frame (receiverOn_control hr) hf (station s) k g (length_payload_le hwf hw)
    exact next_congr (Eq.trans (if_pos rfl).symm htaken.symm)

/-! ## Frames that are no requests (R173, R184) -/

/-- A frame of all stations (R173, R176). -/
theorem controlFrame_broadcast (k g : Byte) (p : List Byte) (s : State) :
    controlFrame (header 0xFF#8 k g p.length ++ p) p s = broadcastFrame k p s := by
  have hne : ¬ (0xFF#8 : Byte) = station s := fun e => by
    have hn := station_toNat s
    have hstn := s.lif.stn.isLt
    rw [← e] at hn
    simp at hn
    omega
  exact (if_neg hne).trans (if_pos rfl)

/-- A frame of another station (R173). -/
theorem controlFrame_other {st : Byte} {s : State} (hall : st ≠ 0xFF#8) (hst : st ≠ station s) (k g : Byte)
    (p : List Byte) : controlFrame (header st k g p.length ++ p) p s = { s with lif := { s.lif with
      controlRx.wrongStation := min (s.lif.controlRx.wrongStation + 1) 65535 } } :=
  (if_neg hst).trans (if_neg hall)

/-! ## Broadcasts (R176) -/

/-- The cutter group switched off, with its notice where it was not OFF (R109). -/
theorem cutterOff_eq (c : CutterCause) (s : State) : cutterOff c s = { s with
    tsc := s.tsc.switchedOff
    lif := if s.tsc.cutter = .off then s.lif else s.lif.raise (.cutterState .off s.tsc.cutter c) } := by
  by_cases h : s.tsc.cutter = .off <;>
    exact State.eq_of_blocks (by simp [cutterOff, cutterTo, h, Tsc.switchedOff])

/-- A verification cancelled where one is in flight (R30). -/
theorem gaugeCancel_eq (c : GaugeCause) (s : State) : gaugeCancel c s = { s with
    msu := if verifying s = true then s.msu.cancelled else s.msu
    lif := if verifying s = true then s.lif.raise (.gaugeResult .cancelled c s.msu.measured.length 0) else s.lif } := by
  by_cases h : verifying s = true <;> exact State.eq_of_blocks (by simp [gaugeCancel, h, Msu.cancelled])

/-- What a broadcast leaves is what the addressed request leaves, but for the reply (R176). -/
theorem unanswered_eq {o : State → Answer} {s u : State} {k g : Byte} (hr : s.lif.reply = none)
    (h : Meets (Reports s) (o s)) (hu : (.next (s.answered k g (o s)) : Outcome) = .next u) :
    unanswered o s = { u with lif := { u.lif with reply := none } } := by
  cases hu
  unfold unanswered
  cases ho : o s with
  | error c =>
    change s = { s with lif := { s.lif with reply := none } }
    rw [← hr]
  | ok a =>
    obtain ⟨t, d⟩ := a
    obtain ⟨-, -, hreply, -⟩ := h t d ho
    change t = { t with lif := { t.lif with reply := none } }
    rw [← hr, ← hreply]

/-! ## The date (R179) -/

/-- A field of bytes is its text and the 00h that fill it (section 12.6). -/
theorem textOf_append_fill (bytes : List Byte) : ∃ n, bytes = textOf bytes ++ List.replicate n 0#8 := by
  have hfill : ∀ b ∈ bytes.rtakeWhile (fun b => b == 0#8), b = 0#8 := fun b hb => by
    simpa using List.mem_rtakeWhile_imp hb
  refine ⟨(bytes.rtakeWhile fun b => b == 0#8).length, ?_⟩
  rw [← List.eq_replicate_of_mem hfill]
  exact List.rdropWhile_append_rtakeWhile.symm

/-- Characters and then 00h to the end (R179). -/
theorem setDate_sound {d : List Byte} (hd : d.length = 8) {t : Text} {n : Nat} (h : d = t ++ List.replicate n 0#8)
    (ht : ∀ b ∈ t, 0x20 ≤ b.toNat ∧ b.toNat ≤ 0x7E) (s : State) :
    setDate d s = taken (s.setLif { s.lif with date := t }) [] := by
  have htext : textOf d = t := by
    rw [h]
    refine textOf_append_replicate (fun hlast => ?_) n
    obtain ⟨hlow, -⟩ := ht _ (List.mem_of_getLast? hlast)
    simp at hlow
  have hok : dateOk d = true := (textOk_iff d).mpr (by rwa [isText, htext])
  simp [setDate, hd, hok, htext]

/-- Anything else (R179). -/
theorem setDate_unsound {d : List Byte} (hd : d.length = 8)
    (h : ∀ (t : Text) (n : Nat), d = t ++ List.replicate n 0#8 → ∃ b ∈ t, ¬ (0x20 ≤ b.toNat ∧ b.toNat ≤ 0x7E))
    (s : State) : setDate d s = .error .badValue := by
  have hbad : dateOk d = false := Bool.eq_false_iff.mpr fun hok => by
    obtain ⟨n, hn⟩ := textOf_append_fill d
    obtain ⟨b, hb, hnot⟩ := h _ n hn
    exact hnot ((textOk_iff d).mp hok b hb)
  simp [setDate, hd, hbad]

/-! ## Each broadcast -/

section
variable {s : State} (hr : s.lif.reply = none)
include hr

theorem broadcastFrame_reset : broadcastFrame 0x78#8 [] s = resetAll s := by simp [broadcastFrame, hr]

theorem broadcastFrame_date {p : List Byte} (hp : p.length = 8) :
    broadcastFrame 0x7A#8 p s = unanswered (setDate p) s := by simp [broadcastFrame, hr, hp]

theorem broadcastFrame_stop : broadcastFrame 0x11#8 [] s = unanswered lineStop s := by simp [broadcastFrame, hr]

theorem broadcastFrame_ignored {k : Byte} {p : List Byte} (h1 : ¬ (k = 0x78#8 ∧ p = []))
    (h2 : ¬ (k = 0x7A#8 ∧ p.length = 8)) (h3 : ¬ (k = 0x11#8 ∧ p = [])) :
    broadcastFrame k p s = s.setLif { s.lif with broadcastIgnored := bump s.lif.broadcastIgnored } := by
  unfold broadcastFrame
  rw [hr]
  dsimp only
  rw [if_neg (by simpa using h1), if_neg (by simpa using h2), if_neg (by simpa using h3)]

end

/-- LINE_STOP outside RUNNING leaves no trace (R18, R20). -/
theorem lineStop_elsewhere {s : State} (h : s.ltr.lineState ≠ .running) : unanswered lineStop s = s := by
  by_cases hh : s.ltr.lineState = .halted
  · simp [unanswered, lineStop, refuseHalted_halted s _ hh]
  · simp [unanswered, lineStop, refuseHalted_other s _ hh, taken, h]

theorem lineStop_running {s : State} (h : s.ltr.lineState = .running) : unanswered lineStop s = stopRunning s := by
  simp [unanswered, lineStop, refuseHalted_other s _ (by simp [h]), taken, h]

/-- The line stopped with both queues empty: STOPPED, the cutter group OFF, a verification cancelled (R18, R30). -/
theorem stopRunning_stopped {s : State} (h : s.ltr.lineState = .running) (hq : s.queuesEmpty) {m : Msu} {l : Lif}
    (hm : m = if verifying s = true then s.msu.cancelled else s.msu)
    (hl : l = if s.tsc.cutter = .off then s.lif.raise (.lineState .stopped .running .request)
              else (s.lif.raise (.lineState .stopped .running .request)).raise
                (.cutterState .off s.tsc.cutter .line)) :
    stopRunning s = { s with
      ltr := { s.ltr with lineState := .stopped }, tsc := s.tsc.switchedOff, msu := m
      lif := if verifying s = true then l.raise (.gaugeResult .cancelled .line s.msu.measured.length 0) else l } := by
  obtain ⟨hs, hp⟩ := hq
  have hv : verifying (cutterOff .line (lineTo .stopped .request s)) = verifying s := by simp [verifying]
  rw [stopRunning_empty s hs hp, gaugeCancel_eq, hv, cutterOff_eq, hm, hl]
  exact State.eq_of_blocks (by simp [lineTo, h])

/-- The line stopping with strips or pieces on it: STOPPING, a verification cancelled (R18, R30). -/
theorem stopRunning_stopping {s : State} (h : s.ltr.lineState = .running) (hq : ¬ s.queuesEmpty) {m : Msu} {l : Lif}
    (hm : m = if verifying s = true then s.msu.cancelled else s.msu)
    (hl : l = s.lif.raise (.lineState .stopping .running .request)) :
    stopRunning s = { s with
      ltr := { s.ltr with lineState := .stopping }, msu := m
      lif := if verifying s = true then l.raise (.gaugeResult .cancelled .line s.msu.measured.length 0) else l } := by
  have hbusy : s.ltr.strips ≠ [] ∨ s.srt.pieces ≠ [] := not_and_or.mp hq
  have hv : verifying (lineTo .stopping .request s) = verifying s := by simp [verifying]
  rw [stopRunning_busy s hbusy, gaugeCancel_eq, hv, hm, hl]
  exact State.eq_of_blocks (by simp [lineTo, h])

/-- Settles O60: the frames by their stations and kinds, then the broadcasts by kind and length. -/
theorem otherFramesAndBroadcasts : Obligations.OtherFramesAndBroadcasts := by
  refine ⟨fun st k g p s hp => ⟨fun hf hr => ⟨?_, fun hall hst => ?_⟩, fun hf => ⟨?_, fun hk => ?_, fun hst => ?_⟩⟩,
    fun k p s => ⟨fun hr => ⟨?_, ?_, ?_, fun h1 h2 h3 => ?_, ?_, ?_, ?_⟩, fun r hr hb => ?_⟩⟩
  · exact (takeBytes_frame (receiverOn_control hr) hf 0xFF#8 k g hp).trans (controlFrame_broadcast k g p s)
  · exact (takeBytes_frame (receiverOn_control hr) hf st k g hp).trans (controlFrame_other hall hst k g p)
  · exact next_congr (takeBytes_frame (k := .scan) rfl hf 0x01#8 0x02#8 g hp).symm
  · exact (takeBytes_frame (k := .scan) rfl hf 0x01#8 k g hp).trans (if_neg hk)
  · exact (takeBytes_frame (k := .scan) rfl hf st k g hp).trans (if_neg hst)
  · rintro rfl rfl
    exact next_congr (broadcastFrame_reset hr)
  · rintro rfl hlen g u hu
    have he : exec (.setDate g p) s = .next (s.answered 0x7A#8 g (setDate p s)) := request_answered hr _ _ _
    exact next_congr ((broadcastFrame_date hr hlen).trans (unanswered_eq hr (setDate_reports s p) (he.symm.trans hu)))
  · rintro rfl rfl g u hu
    have he : exec (.lineStop g) s = .next (s.answered 0x11#8 g (lineStop s)) := request_answered hr _ _ _
    exact next_congr ((broadcastFrame_stop hr).trans (unanswered_eq hr (lineStop_reports s) (he.symm.trans hu)))
  · exact next_congr (broadcastFrame_ignored hr h1 h2 h3)
  · rintro rfl rfl
    exact ⟨_, next_congr (broadcastFrame_reset hr), rfl⟩
  · rintro rfl hlen
    refine ⟨fun t n h ht => next_congr ?_, fun h => next_congr ?_⟩
    · rw [broadcastFrame_date hr hlen, unanswered, setDate_sound hlen h ht]
      rfl
    · rw [broadcastFrame_date hr hlen, unanswered, setDate_unsound hlen h]
  · rintro rfl rfl
    refine ⟨fun hl => next_congr ?_, fun hl m l hm => ⟨fun hq hraised => next_congr ?_, fun hq hraised => next_congr ?_⟩⟩
    · rw [broadcastFrame_stop hr, lineStop_elsewhere hl]
    · rw [broadcastFrame_stop hr, lineStop_running hl, stopRunning_stopped hl hq hm hraised]
    · rw [broadcastFrame_stop hr, lineStop_running hl, stopRunning_stopping hl hq hm hraised]
  · refine next_congr ?_
    simp only [broadcastFrame, hr, frameWhilePending_eq, hb]
    rfl

end Sys2Proof.Machine
end

section
/-! PROOFS. The notice record, NOTICE_POLL and SET_DATE (O56). -/

namespace Sys2Proof.Machine

open Sys2Proof

/-! ## Named values: each is sent as its place in its list (section 12.6, log 9) -/

theorem Eye.code_eq_idxOf (e : Eye) : e.code = [Eye.measure, .scan, .saw, .drop].idxOf e := by cases e <;> rfl

theorem DiscardReason.code_eq_idxOf (r : DiscardReason) :
    r.code = [DiscardReason.malformed, .unknownTag, .duplicate, .late].idxOf r := by cases r <;> rfl

theorem UncutReason.code_eq_idxOf (r : UncutReason) :
    r.code = [UncutReason.noScan, .noLength, .late, .outOfRange, .stray, .noYield].idxOf r := by cases r <;> rfl

theorem FillCause.code_eq_idxOf (c : FillCause) : c.code = [FillCause.landing, .amend].idxOf c := by cases c <;> rfl

theorem Changeover.code_eq_idxOf (c : Changeover) :
    c.code = [Changeover.running, .draining, .tooling, .toolFault].idxOf c := by cases c <;> rfl

theorem ProfileCause.code_eq_idxOf (c : ProfileCause) :
    c.code = [ProfileCause.request, .drained, .ready, .timeout].idxOf c := by cases c <;> rfl

theorem Cutter.code_eq_idxOf (c : Cutter) :
    c.code = [Cutter.off, .spinup, .run, .idleWait, .standby].idxOf c := by cases c <;> rfl

theorem CutterCause.code_eq_idxOf (c : CutterCause) :
    c.code = [CutterCause.request, .line, .estop, .spunUp, .idle, .activity, .hysteresis, .wake].idxOf c := by
  cases c <;> rfl

theorem GaugeOutcome.code_eq_idxOf (o : GaugeOutcome) :
    o.code = [GaugeOutcome.pass, .suspect, .cancelled].idxOf o := by cases o <;> rfl

theorem GaugeCause.code_eq_idxOf (c : GaugeCause) :
    c.code = [GaugeCause.mark32, .barEnd, .request, .line, .estop].idxOf c := by cases c <;> rfl

theorem PrintCause.code_eq_idxOf (c : PrintCause) : c.code = [PrintCause.faultInput, .timeout].idxOf c := by
  cases c <;> rfl

theorem LineState.code_eq_idxOf (l : LineState) :
    l.code = [LineState.stopped, .running, .stopping, .halted].idxOf l := by cases l <;> rfl

theorem LineCause.code_eq_idxOf (c : LineCause) : c.code = [LineCause.request, .drained, .estop].idxOf c := by
  cases c <;> rfl

/-! ## The notice record (section 12.6) -/

@[simp] theorem holdsNumber_bePos (p : Pos) (bs : List Byte) : holdsNumber (bePos p ++ bs) 0 4 p.toNat :=
  holdsNumber_be4 _ _

theorem Notice.code_lt (n : Notice) : n.code < 17 := by cases n <;> simp [Notice.code]

/-- The record as its fields one after another, the rest 00h. -/
theorem Queued.record_eq (q : Queued) : q.record = be2 q.seq ++ (be1 q.notice.code ++ (be1 q.notice.detail.length
    ++ (q.notice.detail ++ List.replicate (28 - q.notice.detail.length) 0#8))) := by
  simp only [Queued.record, beText_eq q.notice.length_detail_le, List.append_assoc]

/-- Every notice's detail lies in the record as the table of section 12.6 lays it. -/
theorem Notice.laid_record (seq : Nat) (n : Notice) : n.laid (Queued.record { seq := seq, notice := n }) := by
  rw [Queued.record_eq]
  cases n with
  | orderFilled | orderDone =>
    refine ⟨?_, ?_⟩
    · simp [holdsNumbers, Notice.detail, Notice.code, holdsNumber_append, FillCause.code_eq_idxOf]
    · simp [Notice.detail, holdsText_append]
  | cart b arrival =>
    simp [Notice.laid, holdsNumbers, Notice.detail, Notice.code, holdsNumber_append]
  | _ =>
    simp [Notice.laid, holdsNumbers, Notice.detail, Notice.code, holdsNumber_append, Eye.code_eq_idxOf,
      PlanStatus.sent_eq_code, DiscardReason.code_eq_idxOf, UncutReason.code_eq_idxOf, Changeover.code_eq_idxOf,
      ProfileCause.code_eq_idxOf, Cutter.code_eq_idxOf, CutterCause.code_eq_idxOf, GaugeOutcome.code_eq_idxOf,
      GaugeCause.code_eq_idxOf, CloseReason.code_eq_idxOf, PrintCause.code_eq_idxOf, LineState.code_eq_idxOf,
      LineCause.code_eq_idxOf]

theorem Queued.laid_record (q : Queued) : q.laid q.record := by
  have hle := q.notice.length_detail_le
  refine ⟨?_, ?_, q.notice.laid_record q.seq, fun n i hn hi h32 => ?_⟩
  · simp [Queued.record]
  · simp [Queued.record_eq]
  · have hlen : n.toNat = q.notice.detail.length := by
      have he : BitVec.ofNat 8 q.notice.detail.length = n := by simpa [Queued.record, be2, be1] using hn
      rw [← he, BitVec.toNat_ofNat, Nat.mod_eq_of_lt (by omega)]
    rw [Queued.record_eq, List.getElem?_append_right (by simp; omega), List.getElem?_append_right (by simp; omega),
      List.getElem?_append_right (by simp; omega), List.getElem?_append_right (by simp; omega),
      List.getElem?_replicate, if_pos (by simp; omega)]

/-! ## NOTICE_POLL (R181, R182) -/

/-- The attention output after a poll, asserted while more are queued than were taken. -/
theorem polled_eq (l : Lif) (n : Nat) :
    l.polled n = { l with notices := l.notices.drop n, attention := decide (n < l.notices.length) } := by
  have hleft : (!(l.notices.drop n).isEmpty) = decide (n < l.notices.length) := by
    rw [Bool.eq_iff_iff]
    simp
  rw [Lif.polled, hleft]

/-- Settles O56: the record by offset, the raising, the poll, the date. -/
theorem noticesAndTheDate : Obligations.NoticesAndTheDate := by
  refine ⟨fun q => ⟨q.laid_record, q.notice.code_lt, _, rfl, ?_⟩, fun n => ⟨rfl, rfl⟩,
    fun l n => ⟨raise_masked l n, raise_queued l n, raise_overflow l n⟩, fun g n s hr => ?_, fun g d s hr hd => ⟨?_, ?_⟩⟩
  · have hcode := q.notice.code_lt
    simp
    omega
  · refine (request_answered hr 0x7B#8 g (noticePoll n)).trans (next_congr ?_)
    have hrange : (!within 1 8 n) = true ↔ ¬ (1 ≤ n ∧ n ≤ 8) := by
      simp [within]
      omega
    rw [noticePoll, answered_refuseIf, answered_taken, polled_eq]
    by_cases h : 1 ≤ n ∧ n ≤ 8
    · rw [if_neg (fun hbad => hrange.mp hbad h), if_pos h]
      simp [beList, State.setLif]
    · rw [if_pos (hrange.mpr h), if_neg h]
  · intro t n h ht
    refine (request_answered hr 0x7A#8 g (setDate d)).trans (next_congr ?_)
    rw [setDate_sound hd h ht]
    rfl
  · intro h
    refine (request_answered hr 0x7A#8 g (setDate d)).trans (next_congr ?_)
    rw [setDate_unsound hd h]
    rfl

end Sys2Proof.Machine
end
